-- ==== Sys2Proof/Word.lean ====
section
/-! DEFINITION. The word and byte types of the model, their plainest helpers, and the sparse maps that hold the state's arrays. -/

namespace Sys2Proof

/-- One byte. -/
abbrev Byte := BitVec 8
/-- A 64-bit word: the width of Peosh registers, message words, memory-structure words and register values. -/
abbrev Word := BitVec 64

/-- An array of the machine, as a list of index and value in rising order of index; an index that is not listed holds the
default value of that array. -/
abbrev SMap (α : Type) := List (Nat × α)

/-- Bits [hi:lo] of a word, as a number. -/
def bits (w : Word) (hi lo : Nat) : Nat := (w.toNat >>> lo) % 2 ^ (hi + 1 - lo)

/-- Bit `k` of a word. -/
def bit (w : Word) (k : Nat) : Bool := w.getLsbD k

/-- A field value placed at bit `lo`. -/
def fieldAt (v lo : Nat) : Word := BitVec.ofNat 64 (v <<< lo)

/-- A Boolean as a bit. -/
def b2n (b : Bool) : Nat := if b then 1 else 0

/-- The 8 bytes of a word in network order: the most significant byte first (R5, R24). -/
def wordBytesBE (w : Word) : List Byte := (List.range 8).map fun i => w.extractLsb' (8 * (7 - i)) 8

/-- The 8 bytes of a word, the least significant byte first (R5). -/
def wordBytesLE (w : Word) : List Byte := (List.range 8).map fun i => w.extractLsb' (8 * i) 8

/-- The number that bytes in network order spell. -/
def beNat (bs : List Byte) : Nat := bs.foldl (fun a b => 256 * a + b.toNat) 0

/-- The number that little-endian bytes spell (R5). -/
def leNat : List Byte → Nat
  | [] => 0
  | b :: bs => b.toNat + 256 * leNat bs

/-- The low `n` bytes of a number, in network order. -/
def natBE (n v : Nat) : List Byte := (List.range n).map fun i => BitVec.ofNat 8 (v >>> (8 * (n - 1 - i)))

/-- The low `n` bytes of a number, little-endian. -/
def natLE (n v : Nat) : List Byte := (List.range n).map fun i => BitVec.ofNat 8 (v >>> (8 * i))

end Sys2Proof
end

