-- ==== Sys2Proof/Syntax.lean ====
section
/-! DEFINITION. The commands of the block: one constructor of Instr per row of spec/opcode_table.json,
grouped by chapter, with the operands of each and, where the spec lets the outside decide something, what the outside decided. -/

namespace Sys2Proof

/-- A general register number, g0 to g31 (R27). -/
abbrev RegIx := Fin 32
/-- A predicate register number, p0 to p7 (R27). -/
abbrev PredIx := Fin 8
/-- What the SECDED of the on-chip memories finds uncorrectable for one Peosh instruction (R30, Table 19-9): nothing, word 0 or word 1 at
its fetch, or a word that it loads or reads. -/
inductive PeoshEcc where
  | clean | word0 | word1 | data
  deriving DecidableEq, Repr

/-- Who issues a Peosh instruction: a packet thread by its global number (R59) or a control core (Table 02-1). -/
inductive Who where
  | thread (t : Fin 1536)
  | core (k : Fin 16)
  deriving DecidableEq, Repr
/-- The issuer and the common fields PN and PRED of one issued instruction (Table 02-4, R26), and what its memory words meet. -/
structure Issue where
  who : Who
  pn : Bool
  pred : PredIx
  ecc : PeoshEcc := .clean
  deriving DecidableEq, Repr
/-- The conditions of cmp and cmpi, in the order of their codes (Table 02-7). -/
inductive Cond where
  | eq | ne | lt | ge | ltu | geu | tst | tstz
  deriving DecidableEq, Repr
/-- What the outside world answers to a control-core load that leaves the adapter: its data, a failed read (UR or CA, or a RESP other than
OK), no answer before the timeout, or poisoned data of the host. Loads that stay inside the adapter ignore it (R205, R219 to
R221, R397). -/
inductive ExtAnswer where
  | data (w : Word)
  | fail
  | timeout
  | poisoned
  deriving DecidableEq, Repr

/-- What a program-memory write reaches: the bytes from an offset of the 512 KiB program memory, or one entry field of
CLU_IMAGE_CTL (image A when false, B when true). -/
inductive ProgTarget where
  | bytes (offset : Nat) (data : List Byte)
  | entry (imageB : Bool) (value : BitVec 16)
  deriving DecidableEq, Repr

/-- The late checks of Table 04-11. -/
inductive LateCheck where
  | ingressFcs | endsEarly | hostPoison | bufferError | espAuth
  deriving DecidableEq, Repr

/-- What ECC or parity found in the words a step reads: nothing, a corrected single-bit error, an uncorrectable double-bit error, bad
parity of the TCAM entry that matches, or a TCAM entry of bad parity that matches, or does not, wrongly (R121, R136). -/
inductive EccEvent where
  | clean | corrected | uncorrectable | parity
  | falseHit (i : Nat)
  | falseMiss (i : Nat)
  deriving DecidableEq, Repr

/-- A Cuelrun frame (Table 08-4): the fields of its header and its payload. -/
structure CueFrame where
  dst : Nat
  src : Nat
  hops : Nat
  cls : Nat
  type : Nat
  win : Nat
  wgen : Nat
  seq : Nat
  deadline : Nat
  tag : Nat
  wrapped : Bool
  status : Nat
  payload : List Byte
  deriving DecidableEq, Repr

/-- The FEC codewords of a port since its last event: corrected, and found not correctable (R197). -/
structure FecNote where
  corr : Nat := 0
  uncorr : Nat := 0
  deriving DecidableEq, Repr
/-- What a MAC finds at the end of a frame: whether its FCS is correct, and the codewords since the port's last event. -/
structure RxFcs where
  ok : Bool
  fec : FecNote := {}
  deriving DecidableEq, Repr
/-- The MAC whose link is lost, and the codewords since the port's last event. -/
structure LossNote where
  mac : Fin 32
  fec : FecNote := {}
  deriving DecidableEq, Repr
/-- The channel of a delivery, as its key (a channel ID, or a unit section's key), and whether a word of the message is uncorrectable
(Table 19-9). -/
structure Delivery where
  ch : Nat
  bad : Bool := false
  deriving DecidableEq, Repr
/-- A state word that is uncorrectable when it is read (Table 19-9): of a policer, or of a TM element. -/
inductive StateWord where
  | policer (p : Fin 1048576) | element (n : Fin 348198)
  deriving DecidableEq, Repr
/-- What a save finds uncorrectable in the words it reads (Table 19-9): contexts of the key store, and state words. -/
structure Upsets where
  keys : List (Fin 65536) := []
  words : List StateWord := []
  deriving DecidableEq, Repr

/-- How the CRC of a received Cuelrun frame stands: correct, wrong, wrong on a transit frame that was being forwarded cut-through, or
the bitwise inverse of the correct one (R200). -/
inductive CueCrc where
  | good | bad | badCut | stomped
  deriving DecidableEq, Repr
/-- What a port finds at the end of a Cuelrun frame: how its CRC stands, and the codewords since the port's last event. -/
structure RxCrc where
  crc : CueCrc
  fec : FecNote := {}
  deriving DecidableEq, Repr

/-- The errors of a link and its physical layer, as the Base specification names them (R222): receiver error, bad TLP, bad DLLP, replay
timer timeout, REPLAY_NUM rollover and data link protocol error. -/
inductive LinkErr where
  | receiver | badTlp | badDllp | replayTimeout | replayRollover | dlProtocol
  deriving DecidableEq, Repr
/-- How a TLP arrives at the endpoint: sound, with poisoned data, failing its integrity check on an IDE stream, unprotected where
that stream should carry it, or lost to an error of its link (R221, R222, R225). Streams 0 to 3 are the link streams of the segments; 4 + 8 × controller + k is selective
stream k of a controller. -/
inductive Tlp where
  | good | poisoned | ideFail (stream : Nat) | unprotected (stream : Nat) | linkError (e : LinkErr)
  deriving DecidableEq, Repr
/-- How a read request arrives, and whether the word that answers it is uncorrectable. -/
structure TlpRead where
  tlp : Tlp
  bad : Bool := false
  deriving DecidableEq, Repr
/-- What a completion carries: data, a translation (the host page number, and whether it may be read and written), or the status
Unsupported Request or Completer Abort (R216, R220, R223). -/
inductive Cpl where
  | data (bytes : List Byte) | translation (page : Nat) (r w : Bool) | ur | ca
  deriving DecidableEq, Repr
/-- The errors the adapter logs in the AER registers of a function (R219, R221, R222, R225). -/
inductive AerErr where
  | completionTimeout | unexpectedCompletion | poisonedTlp | unsupportedRequest | ideCheckFailed | link (e : LinkErr)
  deriving DecidableEq, Repr
/-- A configuration write to a function, by the field of its capabilities that it changes (Table 09-2). Sizes are in the codes of the
Base specification: 128 bytes × 2^code. -/
inductive CfgItem where
  | busMaster (on : Bool) | memSpace (on : Bool) | d3hot (on : Bool)
  | maxPayload (code : Fin 8) | maxRead (code : Fin 8) | tagBits (n : Nat) | relaxed (on : Bool) | cplTimeout (code : Fin 16)
  | ats (on : Bool) | ltr (on : Bool) | ltrMax (snoop noSnoop : BitVec 16)
  | vfEnable (on : Bool) | numVfs (n : Nat) | vfMemSpace (on : Bool)
  | msix (enable mask : Bool) | aerClear (e : AerErr)
  deriving DecidableEq, Repr

/-- What the ECC finds in a fetched control-store word: nothing, a corrected bit, a bad copy with a good copy in the next replica, or two
bad copies (R257). -/
inductive UcEcc where
  | clean | corrected | replica | both
  deriving DecidableEq, Repr
/-- What a microcode context is dispatched for: a job of a ring, or a routine that firmware starts for an instance (R255). -/
inductive UcJob where
  | ring (kind : Fin 3) (n : Fin 65536)
  | routine (inst : Fin 4096)
  deriving DecidableEq, Repr

/-- What a BUDGET_WRITE writes: PWR_INST_BUD of an instance, or PWR_DOM_CFG of a domain. -/
inductive BudgetReg where
  | inst (i : Fin 4096) | dom (d : Fin 34)
  deriving DecidableEq, Repr
/-- The PLLs of Table 17-1, by what they feed. -/
inductive Pll where
  | fabric | table | cluster | core | timestamp | ddr (ch : Fin 8) | pcie (k : Fin 2) | port (p : Fin 4) | lane (n : Fin 32)
  deriving DecidableEq, Repr
/-- What triggers a FUNDAMENTAL_RESET: power-on of VDD_AO, PERST0_N low, or a fuse fault (Tables 09-9 and 19-9). -/
inductive ResetTrigger where
  | powerOn | perst0 | fuseFault
  deriving DecidableEq, Repr
/-- What the boot flash holds at a slot (Table 17-5): nothing, bytes that cannot be read, or the 16 words of a header, BODY and SIG. -/
inductive FlashSlot where
  | absent | unreadable | image (hdr : List Word) (body sig : List Byte)
  deriving DecidableEq, Repr
/-- What the training of a DDR5 channel finds: ranks, data rate in MT/s, and the 32 words of results (R399). -/
structure TrainResult where
  ranks : Byte
  rate : BitVec 16
  data : List Word
  deriving DecidableEq, Repr

/-- The commands of the QL-880, one per row of the table. -/
inductive Instr where
  /-- R8. A register write of `size` bytes (4 or 8) by requester identity `req` to DPA `addr`. -/
  | registerWrite (req : Nat) (addr : Nat) (size : Nat) (value : Word)
  -- Integer group (Table 02-8).
  | add (x : Issue) (rd ra rb : RegIx)
  | sub (x : Issue) (rd ra rb : RegIx)
  | and (x : Issue) (rd ra rb : RegIx)
  | or (x : Issue) (rd ra rb : RegIx)
  | xor (x : Issue) (rd ra rb : RegIx)
  | andn (x : Issue) (rd ra rb : RegIx)
  | sll (x : Issue) (rd ra rb : RegIx)
  | srl (x : Issue) (rd ra rb : RegIx)
  | sra (x : Issue) (rd ra rb : RegIx)
  | rotr (x : Issue) (rd ra rb : RegIx)
  | min (x : Issue) (rd ra rb : RegIx)
  | max (x : Issue) (rd ra rb : RegIx)
  | minu (x : Issue) (rd ra rb : RegIx)
  | maxu (x : Issue) (rd ra rb : RegIx)
  | mul (x : Issue) (rd ra rb : RegIx)
  | mulh (x : Issue) (rd ra rb : RegIx)
  | mulhu (x : Issue) (rd ra rb : RegIx)
  | div (x : Issue) (rd ra rb : RegIx)
  | divu (x : Issue) (rd ra rb : RegIx)
  | rem (x : Issue) (rd ra rb : RegIx)
  | remu (x : Issue) (rd ra rb : RegIx)
  | clz (x : Issue) (rd ra : RegIx)
  | ctz (x : Issue) (rd ra : RegIx)
  | popc (x : Issue) (rd ra : RegIx)
  | bswap8 (x : Issue) (rd ra : RegIx)
  | bswap4 (x : Issue) (rd ra : RegIx)
  | bswap2 (x : Issue) (rd ra : RegIx)
  | addi (x : Issue) (rd ra : RegIx) (imm : BitVec 12)
  | andi (x : Issue) (rd ra : RegIx) (imm : BitVec 12)
  | ori (x : Issue) (rd ra : RegIx) (imm : BitVec 12)
  | xori (x : Issue) (rd ra : RegIx) (imm : BitVec 12)
  | slli (x : Issue) (rd ra : RegIx) (sh : Fin 64)
  | srli (x : Issue) (rd ra : RegIx) (sh : Fin 64)
  | srai (x : Issue) (rd ra : RegIx) (sh : Fin 64)
  | rotri (x : Issue) (rd ra : RegIx) (sh : Fin 64)
  | ext (x : Issue) (rd ra : RegIx) (pos lenm1 : Fin 64)
  | exts (x : Issue) (rd ra : RegIx) (pos lenm1 : Fin 64)
  | ins (x : Issue) (rd ra : RegIx) (pos lenm1 : Fin 64)
  | cmp (x : Issue) (cc : Cond) (pd : PredIx) (ra rb : RegIx)
  | cmpi (x : Issue) (cc : Cond) (pd : PredIx) (ra : RegIx) (imm : BitVec 11)
  | pand (x : Issue) (pd pa pb : PredIx) (na nb : Bool)
  | por (x : Issue) (pd pa pb : PredIx) (na nb : Bool)
  | pxor (x : Issue) (pd pa pb : PredIx) (na nb : Bool)
  -- Memory and atomics (Table 02-9). `ext` answers a load that leaves the adapter (a host window or a peer window).
  | ldB (x : Issue) (rd ra : RegIx) (off : BitVec 12) (ext : ExtAnswer)
  | ldBu (x : Issue) (rd ra : RegIx) (off : BitVec 12) (ext : ExtAnswer)
  | ldH (x : Issue) (rd ra : RegIx) (off : BitVec 12) (ext : ExtAnswer)
  | ldHu (x : Issue) (rd ra : RegIx) (off : BitVec 12) (ext : ExtAnswer)
  | ldW (x : Issue) (rd ra : RegIx) (off : BitVec 12) (ext : ExtAnswer)
  | ldWu (x : Issue) (rd ra : RegIx) (off : BitVec 12) (ext : ExtAnswer)
  | ldD (x : Issue) (rd ra : RegIx) (off : BitVec 12) (ext : ExtAnswer)
  | stB (x : Issue) (rs ra : RegIx) (off : BitVec 12)
  | stH (x : Issue) (rs ra : RegIx) (off : BitVec 12)
  | stW (x : Issue) (rs ra : RegIx) (off : BitVec 12)
  | stD (x : Issue) (rs ra : RegIx) (off : BitVec 12)
  | aaddW (x : Issue) (rd ra rb : RegIx)
  | aaddD (x : Issue) (rd ra rb : RegIx)
  | casD (x : Issue) (rd ra rb : RegIx)
  | fenceR (x : Issue)
  | fenceW (x : Issue)
  | fenceRw (x : Issue)
  | fenceX (x : Issue)
  | fenceIo (x : Issue)
  -- Control flow (Table 02-10).
  | br (x : Issue) (disp : BitVec 22)
  | jal (x : Issue) (rd : RegIx) (disp : BitVec 17)
  | jalr (x : Issue) (rd ra : RegIx) (imm : BitVec 12)
  | jalL (x : Issue) (rd : RegIx) (target : BitVec 48)
  | liL (x : Issue) (rd : RegIx) (imm : BitVec 48)
  | addiL (x : Issue) (rd : RegIx) (imm : BitVec 48)
  -- Header vector (Table 02-10).
  | hvrd (x : Issue) (rd : RegIx) (hvi : Fin 64)
  | hvwr (x : Issue) (ra : RegIx) (hvi : Fin 64)
  | hvwrm (x : Issue) (rd ra : RegIx) (hvi : Fin 64)
  | hvrdx (x : Issue) (rd ra : RegIx)
  | hvwrx (x : Issue) (rd ra : RegIx)
  -- Channels, pegs and engines (R32 to R42).
  | chrd (x : Issue) (rd ra rb : RegIx)
  | chrdn (x : Issue) (rd ra rb : RegIx)
  | chrdPb (x : Issue) (rd ra rb : RegIx)
  | chwr (x : Issue) (ra rb : RegIx)
  | chend (x : Issue)
  | pegAcq (x : Issue) (rd ra : RegIx)
  | pegTry (x : Issue) (rd ra : RegIx)
  | pegRel (x : Issue) (ra : RegIx)
  /-- `qFull`: the unit's input queue is full, so the request waits at issue (R42). -/
  | lkp (x : Issue) (ra rb : RegIx) (qFull : Bool)
  | csub (x : Issue) (ra rb : RegIx) (qFull : Bool)
  | bowgo (x : Issue) (ra : RegIx) (qFull : Bool)
  -- Thread control and system instructions.
  | yield (x : Issue)
  | halt (x : Issue)
  | trap (x : Issue) (imm : BitVec 12)
  | brk (x : Issue) (imm : BitVec 12)
  | sysrd (x : Issue) (rd : RegIx) (sr : BitVec 12)
  | syswr (x : Issue) (ra : RegIx) (sr : BitVec 12)
  | sysset (x : Issue) (rd ra : RegIx) (sr : BitVec 12)
  | sysclr (x : Issue) (rd ra : RegIx) (sr : BitVec 12)
  | rfe (x : Issue)
  | idle (x : Issue)
  | tlbinv (x : Issue) (ra rb : RegIx)
  /-- `word` is the word that no instruction has (R29). -/
  | illegalEncoding (x : Issue) (word : BitVec 32)
  -- Events of control cores, threads, channels and pegs (chapters 02 and 03).
  | extIntTaken (k : Fin 16)
  | idleWake (k : Fin 16)
  | messageDelivered (d : Delivery)
  | wordReserved (ch : Nat)
  | pegGranted (t : Fin 1536)
  | engineAccept (t : Fin 1536)
  | imageCommit (c : Fin 8)
  /-- A write of `data` to program memory or to an entry field of cluster `c` (R58). -/
  | programMemoryWrite (c : Fin 8) (target : ProgTarget)
  | threadStart (t : Fin 1536)
  | threadStop (t : Fin 1536)
  | threadResume (t : Fin 1536)
  | threadKill (t : Fin 1536)
  | threadShareWrite (t : Fin 1536) (value : Word)
  | channelCfgWrite (c : Fin 8) (index : Fin 2048) (value : Word)
  | sendPortGo (req : Nat) (k : Fin 16) (count : Fin 32) (channel : BitVec 16)
  | sendPortAbort (req : Nat) (k : Fin 16)
  | sendDataWrite (req : Nat) (k : Fin 16) (word : Fin 16) (value : Word)
  | sendPortCommit (k : Fin 16)
  | unitMessageCommit (ch : Nat)
  /-- The peg, as its key. -/
  | holdWatchdogExpiry (peg : Nat)
  | silenceDetected (c : Fin 8)
  -- Parsing, classification, flow cache and actions (chapter 04). `h` is a packet handle.
  /-- A frame from MAC `mac`, without its FCS. `early`: its reception ended early. -/
  | frameReceive (mac : Fin 32) (bytes : List Byte) (fcs : RxFcs) (early : Bool)
  | parseWalk (h : Nat)
  /-- `walking`: a frame is being parsed by the bank that was active (R95). -/
  | parseGraphCommit (walking : Bool)
  /-- A write of one 64-bit word at an offset of block PAR. -/
  | parseMemoryWrite (offset : Nat) (value : Word)
  /-- `ddrFree`: a DDR5 flow-table read is available (R99). -/
  | classify (h : Nat) (ddrFree : Bool)
  | ddrFlowResult (h : Nat)
  | flowAgeVisit (set : Nat)
  | agePeriodWrite (value : Word)
  /-- The section of channel 0x8000 the message is read from: a cluster, or 8 for block PEG (R455). -/
  | flowInsert (sec : Fin 9)
  | flowInsertReplace (sec : Fin 9)
  | flowRemove (sec : Fin 9)
  /-- The section of channel 0x8001. -/
  | actionMessage (sec : Fin 9)
  | handoff (sec : Fin 9)
  | actionListApply (h : Nat)
  | mirrorWrite (session : Fin 64) (value : Word)
  | lateCheckFail (h : Nat) (check : LateCheck)
  -- Forwarding tables and learning (chapter 05).
  /-- The oldest lookup of a bank (4 is the TCAM) completes. `extBusy`: the bank has issued an extension read within the last 6 table
  cycles (R118); `ecc`: what the read met. -/
  | lookupComplete (bank : Fin 5) (extBusy : Bool) (ecc : EccEvent)
  /-- A write of bytes to the table windows, from a DPA on. -/
  | tableWindowWrite (dpa : Nat) (data : List Byte)
  /-- Register writes of TBL_LOCK: of LOCK = 1, of LOCK = 0 and of ABORT = 1. -/
  | tableLock (slot : Fin 64) (value : Word)
  | tableRelease (slot : Fin 64) (value : Word)
  | tableLockAbort (slot : Fin 64) (value : Word)
  | tablePublish (value : Word)
  | overlayDrain
  | fretWrite (fret : Fin 64) (value : Word)
  /-- The section of channel 0x8002. -/
  | learn (sec : Fin 9)
  | unlearn (sec : Fin 9)
  | parkedResume (bank : Fin 4)
  /-- A visit to one bucket, on chip or in the extension; `ageDue`: the visit that ends the bucket's ageing period. -/
  | emAgeScan (bank : Fin 4) (ext : Bool) (bucket : Nat) (ageDue : Bool)
  /-- An element of the TCAM, or a global slot index. -/
  | shadowCompare (tcam : Bool) (index : Nat) (ecc : EccEvent)
  | shadowRecheck (tcam : Bool) (index : Nat)
  -- Traffic manager (chapter 06).
  /-- `ovfRate`: an overflow write stays within 150 GB/s (R158). -/
  | tmEnqueue (h : Nat) (ovfRate : Bool)
  | overflowReadback (q : Fin 262144)
  /-- Level-0 point; `room`: the egress has room to take a frame (R141). -/
  | tmSelect (point : Fin 38) (room : Bool)
  /-- The element, as its index in the TM window (Table 06-2). -/
  | clampSweep (node : Nat)
  | shaperRefill (node : Nat)
  | tmElementWrite (node : Nat) (word : Fin 8) (value : Word)
  | policerWrite (p : Fin 1048576) (word : Fin 4) (value : Word)
  | tmFlush (value : Word)
  | flushComplete
  | instBufWrite (inst : Fin 4096) (value : Word)
  | ingressCellsWrite (value : Word)
  -- Cipher engine (chapter 07). `req` is the requester identity of R168.
  | contextWrite (ctx : Fin 65536) (word : Fin 8) (value : Word)
  /-- A write of `owner` to CIP_KLW_LOCK.OWNER. -/
  | klwClaim (req : Nat) (owner : BitVec 16)
  | klwRelease (req : Nat)
  | klwAutoRelease
  | klwDataWrite (req : Nat) (k : Fin 12) (value : Word)
  /-- Writes of CIP_KLW_CMD with GO = 1 and OP 1, 2 or 3. -/
  | klwLoad (req : Nat) (ctx : Fin 65536)
  | klwUnwrap (req : Nat) (kek ctx : Fin 65536)
  | klwErase (req : Nat) (ctx : Fin 65536)
  | klwCommandDone
  | eraseComplete (ctx : Fin 65536)
  | espOutbound (h : Nat)
  | espInbound (h : Nat)
  | csubComplete
  /-- The alarm, as its bit in Table 07-6. -/
  | keyAlarm (cause : Fin 6)
  | selftestRun
  | selftestComplete (pass : Bool)
  -- Ports and Cuelrun (chapter 08). A link is known by its MAC number; `p` is a port.
  | portModeWrite (p : Fin 4) (value : Word)
  | linkEnable (m : Fin 32)
  | linkDisable (m : Fin 32)
  /-- `common`: a common rate and FEC were found; `low`: the partner advertises RS(272,257+1). -/
  | anComplete (m : Fin 32) (common low : Bool)
  | trainingComplete (m : Fin 32)
  | trainingTimeout (m : Fin 32)
  | linkAligned (m : Fin 32)
  | alignTimeout (m : Fin 32)
  | linkLoss (l : LossNote)
  | faultRetry (m : Fin 32)
  /-- The neighbour's ID and FEC advertisement, and the round trip that its echo shows, in ns. -/
  | initReceived (p : Fin 4) (id : BitVec 16) (low : Bool) (roundTrip : Nat)
  | todStep (value : Word)
  | tsPop (m : Fin 32)
  | cuelrunReceive (p : Fin 4) (f : CueFrame) (crc : RxCrc)
  | linkAck (p : Fin 4) (seq : BitVec 16)
  | linkNak (p : Fin 4) (seq : BitVec 16)
  | nakBusy (p : Fin 4) (seq : BitVec 16)
  | nakBusyReplay (p : Fin 4)
  | replayTimeout (p : Fin 4)
  | peerWrite
  | peerRead
  | peerMsg
  | peerResp
  | readTimeout (tag : BitVec 16)
  | windowCommit (w : Fin 64)
  | readTagRelease (tag : BitVec 16)
  -- Host endpoint (chapter 09). `inst` is a function, by its instance number (R209); `seg` is a segment.
  | fundamentalReset (trigger : ResetTrigger)
  | segmentPerst (seg : Fin 4)
  | hotReset (seg : Fin 4)
  | linkDown (seg : Fin 4)
  | pfFlr (pf : Fin 4)
  | vfFlr (inst : Fin 4096)
  | pciReadyWrite (value : Word)
  | pciConfigWrite (inst : Fin 4096) (item : CfgItem)
  | hostBarWrite (inst : Fin 4096) (bar : Fin 6) (offset size : Nat) (value : Word) (tlp : Tlp)
  | hostBarRead (inst : Fin 4096) (bar : Fin 6) (offset size : Nat) (tlp : TlpRead)
  | completionReceived (inst : Fin 4096) (tag : Nat) (tlp : Tlp) (c : Cpl)
  | completionTimeout (inst : Fin 4096) (tag : Nat)
  | quarantineEnd (inst : Fin 4096) (tag : Nat)
  | tagQuotaWrite (inst : Fin 4096) (value : Word)
  | tagAvailable (inst : Fin 4096)
  | ltrCfgWrite (pf : Fin 4) (value : Word)
  /-- Pages `lo` to `hi` of a function, and the tag of the request. -/
  | atsInvalidate (inst : Fin 4096) (lo hi itag : Nat)
  | invalidationCompletion (inst : Fin 4096) (itag : Nat)
  /-- An object written to the DOE mailbox: its type (0 discovery, 1 CMA/SPDM, 2 secured CMA/SPDM), its bytes, and the IDE streams that
  the exchange keys (R224, R225). -/
  | doeObject (pf : Fin 4) (type : Fin 3) (bytes : List Byte) (keyed : List Nat)
  | doeAbort (pf : Fin 4)
  /-- `split` is PCIE_SPLIT, which PERST0_N samples. -/
  | perstNDeassertion (seg : Fin 4) (split : BitVec 2)
  /-- The link of a segment reaches L0, or a low-power link state, at a width and rate, in FLIT mode or not. -/
  | linkInL0 (seg : Fin 4) (width : Fin 17) (rate : Fin 8) (flit : Bool)
  -- Rings (chapter 10). Kinds: 0 SQ, 1 RQ, 2 CQ; `n` is a global ring number, `r` a local one.
  | ringMapWrite (inst : Fin 4096) (kind : Fin 3) (value : Word)
  /-- A write of word 0 with EN = 1 to a DISABLED ring. -/
  | ringEnable (kind : Fin 3) (n : Fin 65536) (value : Word)
  /-- A write of word 0 with EN = 0. -/
  | ringDisable (kind : Fin 3) (n : Fin 65536)
  | ringElementWrite (kind : Fin 3) (n : Fin 65536) (word : Fin 4) (value : Word)
  | sqRqDoorbell (inst : Fin 4096) (rq : Bool) (r : Fin 256) (value : BitVec 16)
  | cqDoorbell (inst : Fin 4096) (r : Fin 256) (value : BitVec 16) (arm : Bool)
  | doorbellRead (inst : Fin 4096) (kind : Fin 3) (r : Fin 256)
  /-- The oldest fetch read of a ring has ended. -/
  | descriptorData (rq : Bool) (n : Fin 65536)
  | txPayloadDone (job : Nat)
  | txDeparture (job : Nat)
  /-- A frame that the TM has handed to a host egress is written. -/
  | rxFrame (h : Nat)
  | fullTimeout (n : Fin 65536)
  | fullerTimer (n : Fin 65536)
  | ringDrainComplete (rq : Bool) (n : Fin 65536)
  -- Microcode (chapter 11). The context of `lane` whose turn it is issues its word, if the word has the row's SEQOP; `ctx` is a context.
  /-- A job enters at word `entry` of the entry table. -/
  | ucJobDispatch (entry : Fin 64) (job : UcJob)
  | ucNext (lane : Fin 32) (ecc : UcEcc)
  | ucJump (lane : Fin 32) (ecc : UcEcc)
  | ucBranch (lane : Fin 32) (ecc : UcEcc)
  | ucCall (lane : Fin 32) (ecc : UcEcc)
  | ucReturn (lane : Fin 32) (ecc : UcEcc)
  | ucDispatch (lane : Fin 32) (ecc : UcEcc)
  | ucWait (lane : Fin 32) (ecc : UcEcc)
  | ucEnd (lane : Fin 32) (ecc : UcEcc)
  | ucWaitEvent (ctx : Fin 256)
  /-- A write of HQE_MODE. -/
  | regimeWrite (value : Word)
  /-- A write of HQE_PATCH_LOAD. -/
  | patchLoad (value : Word)
  | patchLoadDone
  | ucResume (ctx : Fin 256)
  | ucRollfwd (ctx : Fin 256)
  | ucRestart (ctx : Fin 256)
  /-- Writes of HQE_UC_DBG of a lane with HALT, STEP or RUN set; `ecc` is what a stepped word's fetch meets. -/
  | ucDbgHalt (lane : Fin 32) (value : Word)
  | ucDbgStep (lane : Fin 32) (value : Word) (ecc : UcEcc)
  | ucDbgRun (lane : Fin 32) (value : Word)
  -- Instances and Capo (chapter 12): writes of CAPO_INST_CTL.OP, and the ends of the operations.
  | instanceCreate (inst : Fin 4096)
  | instanceDestroy (inst : Fin 4096)
  | instanceReset (inst : Fin 4096)
  | instanceFreeze (inst : Fin 4096)
  | instanceSave (inst : Fin 4096)
  | instanceRestore (inst : Fin 4096)
  | instanceUnfreeze (inst : Fin 4096)
  | filterClear (inst : Fin 4096)
  | resetComplete (inst : Fin 4096)
  | freezeDrainDone (inst : Fin 4096)
  | freezeTimeout (inst : Fin 4096)
  | saveComplete (inst : Fin 4096) (found : Upsets)
  /-- What the restore finds lost in the key store and in state words. -/
  | restoreComplete (inst : Fin 4096) (keys : List (Fin 65536)) (words : List StateWord)
  /-- A host write of PCI_MBX_CTL with GO = 1, and a firmware write with DONE = 1. -/
  | mailboxGo (pf : Fin 4) (value : Word)
  | mailboxDone (pf : Fin 4) (value : Word)
  /-- A write of the low or high half of a range of the Hatband. -/
  | hbRangeWrite (inst : Fin 4096) (range : Fin 16) (hi : Bool) (value : Word)
  /-- A write of CAPO_INST_CTL. -/
  | logEnableWrite (inst : Fin 4096) (value : Word)
  | logConsumerRead (inst : Fin 4096)
  -- Storage (chapter 13). `c` is a connection, `n` an SQ in NVMe personality, `cmd` the number of a command the adapter holds.
  | nvmePersonalityWrite (inst : Fin 4096) (on : Bool)
  | nvmeCcWrite (inst : Fin 4096) (value : BitVec 32)
  /-- 0 AQA, 1 ASQ, 2 ACQ. -/
  | nvmeAdminCfgWrite (inst : Fin 4096) (reg : Fin 3) (value : Word)
  | adminDoorbell (inst : Fin 4096) (cq : Bool) (value : BitVec 16)
  /-- Queue `y` of a controller. -/
  | nvmeIoDoorbell (inst : Fin 4096) (y : Fin 512) (cq : Bool) (value : BitVec 16)
  | admIrq (inst : Fin 4096)
  /-- Word `word` of the element of NSID `k` + 1. -/
  | namespaceWrite (inst : Fin 4096) (k : Fin 16) (word : Fin 4) (value : Word)
  | connSetup (c : Fin 16384) (value : Word)
  | connLive (c : Fin 16384) (value : Word)
  | connIdle (c : Fin 16384) (value : Word)
  | connElementWrite (c : Fin 16384) (word : Fin 16) (value : Word)
  | nvmeFlush (n : Fin 65536)
  | nvmeWrite (n : Fin 65536)
  | nvmeRead (n : Fin 65536)
  | nvmeWriteZeroes (n : Fin 65536)
  | nvmeDsm (n : Fin 65536)
  /-- The guest reads of a command (its PRP list, or its data) have ended. -/
  | stagingDone (cmd : Nat)
  | tcpSegment (h : Nat)
  | segmentTransmit (c : Fin 16384)
  | retransmitTimeout (c : Fin 16384)
  | ackDelayTimer (c : Fin 16384)
  /-- The section of channel 0x8003. -/
  | excDone (sec : Fin 9)
  | excReinject (sec : Fin 9)
  | excRetransmit (sec : Fin 9)
  | excFail (sec : Fin 9)
  | excTimeout (c : Fin 16384)
  | reconnectExpiry (c : Fin 16384)
  | commandDetach (inst : Fin 4096)
  -- Bow (chapter 14). `c` is a channel.
  | bowEnable (c : Fin 512)
  | bowDisable (c : Fin 512)
  | bowStart (c : Fin 512)
  | bowArm (c : Fin 512)
  | bowDisarm (c : Fin 512)
  | bowShadowWrite (c : Fin 512) (word : Fin 4) (value : Word)
  | bowCfgWrite (c : Fin 512) (value : Word)
  | bowTimerWrite (t : Fin 64) (value : Word)
  | bowTimerFire (t : Fin 64)
  | bowTriggerConsume (c : Fin 512)
  | bowDescArrive (c : Fin 512)
  | bowBlockEnd (c : Fin 512)
  | bowBlockComplete (c : Fin 512)
  | bowAccessFail (c : Fin 512)
  | bowCqRoom (c : Fin 512)
  | bowDisableDone (c : Fin 512)
  | bowCqCfgWrite (q : Fin 16) (value : Word)
  | bowCqHeadWrite (q : Fin 16) (value : BitVec 16)
  -- Interrupt controller (chapter 15).
  | interruptEdge (src : Fin 2048)
  | edgeToPending (src : Fin 2048)
  | icuSet (src : Fin 2048)
  | icuPendingClear (src : Fin 2048)
  | icuSrcCfgWrite (src : Fin 2048) (value : Word)
  /-- `req` is the requester identity; core k is 0xE000 + k. -/
  | icuClaim (req : Nat) (k : Fin 16)
  | icuEoi (req : Nat) (k : Fin 16) (src : Fin 2048)
  | redirectHoldExpiry (src : Fin 2048)
  -- Power (chapter 16). `d` is a domain of Table 16-1.
  /-- `depth` is the deepest depth whose idle time has elapsed. -/
  | domainIdleEntry (d : Fin 34) (depth : Fin 5)
  | domainRequest (d : Fin 34) (value : Word)
  | domainWakeWrite (d : Fin 34) (value : Word)
  | domainAck (d : Fin 34)
  | depthReached (d : Fin 34)
  /-- `src` is a WAKE_EN bit of Table 16-3, or none for a register access. -/
  | domainWake (d : Fin 34) (src : Option (Fin 4))
  /-- `uncorr`: the restore of depth 3 met a line that ECC could not correct. -/
  | wakeComplete (d : Fin 34) (uncorr : Bool)
  | loadWindow (loads : List Byte)
  | budgetWrite (target : BudgetReg) (value : Word)
  /-- The readings of the sixteen sensors, in 0.125 °C, signed. -/
  | thermalSample (readings : Vector (BitVec 16) 16)
  /-- `ack`: the regulator acknowledges. -/
  | avsStep (ack : Bool)
  | telemetrySample (rail : Fin 7) (mv : BitVec 16) (mw : BitVec 32)
  -- Clocks, resets and boot (chapter 17).
  | pllLockLoss (pll : Pll)
  | pllLockRegained (pll : Pll)
  /-- What the two slots hold, and whether Soundpost's self-tests pass (R381, R430). -/
  | flashVerify (a b : FlashSlot) (tests : Bool)
  | coreRelease (value : Word)
  | warmRestartRequest (value : Word)
  | warmDrainLimit
  | warmEscalate
  | tuneWrite (item : Fin 160) (value : Word)
  -- DDR5 and the map (chapter 18).
  | memTrain (ch : Fin 8)
  | memRestore (ch : Fin 8)
  /-- `result` is none where training fails. -/
  | memTrainDone (ch : Fin 8) (result : Option TrainResult)
  | memCfgWrite (value : Word)
  | memLock
  | l3ModeSwitch
  | secretRegionWrite (region : Fin 15) (hi : Bool) (value : Word)
  | aliasWrite (req : Nat) (addr : Nat) (size : Nat) (value : Word)
  | aliasRead (req : Nat) (addr : Nat) (size : Nat)
  /-- `ecc` is what the ECC of the line finds. -/
  | scrubRead (line : Nat) (ecc : EccEvent)
  -- Soundpost (chapters 19 and 20).
  | setEndpointId (eid : Byte)
  | getTid
  | setTid (tid : Byte)
  | getPldmVersion (type : Byte)
  | getPldmTypes
  | getPldmCommands (type : Byte)
  | readTelemetry
  | readCrashLog (first count : Nat)
  | readStatus
  | clearCrashLog
  | requestReset (kind : Byte)
  | forcePowerOff (mask : BitVec 34)
  | spdmRequest (secured : Bool) (bytes : List Byte)
  | spdmBusy
  | wdogStart (value : Word)
  | wdogKick (value : Word)
  | wdogWarning
  | wdogBite
  | logClear
  | logAppend (info1 : Word)
  | dbgTokenGo
  /-- The 20 words of a token. -/
  | jtagDbgToken (token : List Word)
  | newChallenge
  | approvedEnter
  | diceSeal
  | rngRead (req : Nat)
  | drbgReseed
  | entropySample (pass : Bool)
  | supplyOutOfRange (rail : Fin 7)
  | railReturns (rail : Fin 7)
  | shieldBreach
  | seqStage
  | seqFail
  | testModePin (high : Bool)
  | mgmtBusTimeout
  deriving DecidableEq, Repr

end Sys2Proof
end

