-- ==== Sys2Proof/WellFormed.lean ====
section
/-! DEFINITION. When a command is well formed: what its operand types do not already say. -/

namespace Sys2Proof

/-- A requester identity: 16 bits, or 0x10000 for Bow. -/
def isReq (r : Nat) : Bool := decide (r ≤ 0x10000)
/-- A device physical address (chapter 18): 48 bits. -/
def isDpa (a : Nat) : Bool := decide (a < 2 ^ 48)
/-- The size of a register or memory access, in bytes. -/
def isSize (n : Nat) : Bool := n == 1 || n == 2 || n == 4 || n == 8
/-- The size of a host access to a BAR, in bytes. -/
def isTlpSize (n : Nat) : Bool := decide (1 ≤ n) && decide (n ≤ 8)
/-- A packet handle: 24 bits. -/
def isHandle (h : Nat) : Bool := decide (h < 2 ^ 24)
/-- A channel's key: a channel ID of R32, or the key of a section of a unit channel (R455). -/
def isChan (k : Nat) : Bool :=
  decide (k < 0x4000) || (decide (0x8004 ≤ k) && decide (k ≤ 0x87FF)) || (decide (0x10000 ≤ k) && decide (k < 0x10040) && decide (k % 16 ≤ 8))
/-- A peg's key: a global peg ID, or the key of a local peg of a cluster. -/
def isPeg (k : Nat) : Bool := decide (k < 0x4000) || (decide (0x10000 ≤ k) && decide (k < 0x18000))

/-- Whether some instruction has this first word (Tables 02-5 to 02-7, R27, R29). -/
def peoshAssigned (w : Nat) : Bool :=
  let f (hi lo : Nat) : Nat := w / 2 ^ lo % 2 ^ (hi + 1 - lo)
  let fn := f 6 0
  let opc := f 27 22
  -- format X: FN at [3:0] and [6:4] zero
  let x (last : Nat) : Bool := f 6 4 == 0 && decide (f 3 0 ≤ last)
  match opc with
  | 0x01 => decide (fn ≤ 0x0D) || fn == 0x10 || fn == 0x11 || fn == 0x12 || (decide (0x14 ≤ fn) && decide (fn ≤ 0x17)) ||
      (decide (0x20 ≤ fn) && decide (fn ≤ 0x25) && f 11 7 == 0)
  | 0x02 | 0x03 | 0x04 | 0x05 | 0x07 | 0x08 | 0x09 | 0x0B | 0x20 | 0x21 | 0x22 | 0x30 | 0x31 | 0x32 | 0x34 => sysZero opc (f 21 17) (f 16 12)
  | 0x06 => decide (f 11 8 ≤ 3) && f 7 6 == 0
  | 0x0A => f 21 20 == 0 && decide (fn ≤ 7)
  | 0x0C => f 10 2 == 0 && decide (f 1 0 ≤ 2)
  | 0x10 | 0x11 | 0x12 | 0x13 | 0x14 | 0x15 | 0x16 | 0x18 | 0x19 | 0x1A | 0x1B => true
  | 0x1C => decide (fn ≤ 2)
  | 0x1D => x 5 && f 3 0 != 0
  | 0x28 => decide (fn ≤ 4)
  | 0x29 => decide (fn ≤ 2)
  | 0x2A => decide (fn ≤ 2)
  | 0x2B => f 5 3 == 0 && vec (f 2 0) (f 21 17) (f 11 6)
  | 0x2C => f 21 16 == 0 && decide (f 15 12 ≤ 3) && (decide (2 ≤ f 15 12) || f 11 0 == 0)
  | 0x33 => x 2
  | 0x3C => true
  | 0x3D => f 16 16 == 0
  | _ => false
where
  /-- RA of sysrd and RD of syswr must be zero (R47). -/
  sysZero (opc rd ra : Nat) : Bool := if opc = 0x30 then ra == 0 else if opc = 0x31 then rd == 0 else true
  /-- The zero fields of the header-vector group (Table 02-10). -/
  vec (fn rd hvi : Nat) : Bool :=
    match fn with
    | 0 | 2 => true
    | 1 => rd == 0
    | 3 | 4 => hvi == 0
    | _ => false

/-- A program-memory write stays inside the 512 KiB (R58). -/
def ProgTarget.wf : ProgTarget → Bool
  | .bytes offset data => decide (offset + data.length ≤ 0x80000)
  | .entry _ _ => true
/-- The fields of a Cuelrun header fit their widths (Table 08-4). -/
def CueFrame.wf (f : CueFrame) : Bool :=
  [(f.dst, 16), (f.src, 16), (f.hops, 8), (f.cls, 3), (f.type, 3), (f.win, 6), (f.wgen, 8), (f.seq, 16), (f.deadline, 24), (f.tag, 16),
    (f.status, 3)].all fun p => decide (p.1 < 2 ^ p.2)
/-- The IDE stream of a TLP exists (R225). -/
def Tlp.wf : Tlp → Bool
  | .good | .poisoned | .linkError _ => true
  | .ideFail n | .unprotected n => decide (n < 36)
/-- A configuration write names a tag width and a number of VFs that its field can hold (Table 09-2). -/
def CfgItem.wf : CfgItem → Bool
  | .tagBits n => n == 8 || n == 10 || n == 14
  | .numVfs n => decide (n < 2 ^ 16)
  | .busMaster _ | .memSpace _ | .d3hot _ | .maxPayload _ | .maxRead _ | .relaxed _ | .cplTimeout _ | .ats _ | .ltr _ | .ltrMax _ _
  | .vfEnable _ | .vfMemSpace _ | .msix _ _ | .aerClear _ => true
/-- A flash header has 16 words (Table 17-5). -/
def FlashSlot.wf : FlashSlot → Bool
  | .absent | .unreadable => true
  | .image hdr _ _ => hdr.length == 16

/-- A command is well formed. -/
def Instr.wf : Instr → Bool
  | .registerWrite req addr size _ => isReq req && isDpa addr && isSize size
  | .add .. | .sub .. | .and .. | .or .. | .xor .. | .andn .. | .sll .. | .srl .. | .sra .. | .rotr .. | .min .. | .max ..
  | .minu .. | .maxu .. | .mul .. | .mulh .. | .mulhu .. | .div .. | .divu .. | .rem .. | .remu .. | .clz .. | .ctz .. | .popc ..
  | .bswap8 .. | .bswap4 .. | .bswap2 .. | .addi .. | .andi .. | .ori .. | .xori .. | .slli .. | .srli .. | .srai .. | .rotri ..
  | .ext .. | .exts .. | .ins .. | .cmp .. | .cmpi .. | .pand .. | .por .. | .pxor .. | .ldB .. | .ldBu .. | .ldH .. | .ldHu ..
  | .ldW .. | .ldWu .. | .ldD .. | .stB .. | .stH .. | .stW .. | .stD .. | .aaddW .. | .aaddD .. | .casD .. | .fenceR ..
  | .fenceW .. | .fenceRw .. | .fenceX .. | .fenceIo .. | .br .. | .jal .. | .jalr .. | .jalL .. | .liL .. | .addiL .. | .hvrd ..
  | .hvwr .. | .hvwrm .. | .hvrdx .. | .hvwrx .. | .chrd .. | .chrdn .. | .chrdPb .. | .chwr .. | .chend .. | .pegAcq ..
  | .pegTry .. | .pegRel .. | .lkp .. | .csub .. | .bowgo .. | .yield .. | .halt .. | .trap .. | .brk .. | .sysrd .. | .syswr ..
  | .sysset .. | .sysclr .. | .rfe .. | .idle .. | .tlbinv .. => true
  | .illegalEncoding x word => x.pn == word.getLsbD 31 && x.pred.val == word.toNat / 2 ^ 28 % 8 && !peoshAssigned word.toNat
  | .extIntTaken .. | .idleWake .. => true
  | .messageDelivered d => isChan d.ch
  | .wordReserved ch => isChan ch
  | .pegGranted .. | .engineAccept .. | .imageCommit .. => true
  | .programMemoryWrite _ target => target.wf
  | .threadStart .. | .threadStop .. | .threadResume .. | .threadKill .. | .threadShareWrite .. | .channelCfgWrite .. => true
  | .sendPortGo req _ _ _ => isReq req
  | .sendPortAbort req _ => isReq req
  | .sendDataWrite req _ _ _ => isReq req
  | .sendPortCommit .. => true
  | .unitMessageCommit ch => isChan ch
  | .holdWatchdogExpiry peg => isPeg peg
  | .silenceDetected .. | .frameReceive .. => true
  | .parseWalk h => isHandle h
  | .parseGraphCommit .. => true
  | .parseMemoryWrite offset _ => decide (offset < 0x1000000) && offset % 8 == 0
  | .classify h _ => isHandle h
  | .ddrFlowResult h => isHandle h
  | .flowAgeVisit set => decide (set < 131072)
  | .agePeriodWrite .. | .flowInsert .. | .flowInsertReplace .. | .flowRemove .. | .actionMessage .. | .handoff .. => true
  | .actionListApply h => isHandle h
  | .mirrorWrite .. => true
  | .lateCheckFail h _ => isHandle h
  | .lookupComplete .. => true
  | .tableWindowWrite dpa data => isDpa dpa && !data.isEmpty
  | .tableLock .. | .tableRelease .. | .tableLockAbort .. | .tablePublish .. | .overlayDrain | .fretWrite .. | .learn ..
  | .unlearn .. | .parkedResume .. => true
  | .emAgeScan _ inExt bucket _ => decide (bucket < if inExt then 2 ^ 24 else 131072)
  | .shadowCompare tcam index _ => decide (index < if tcam then 131072 else 2097152)
  | .shadowRecheck tcam index => decide (index < if tcam then 131072 else 2097152)
  | .tmEnqueue h _ => isHandle h
  | .overflowReadback .. | .tmSelect .. => true
  | .clampSweep node => decide (node < 348198)
  | .shaperRefill node => decide (node < 348198)
  | .tmElementWrite node _ _ => decide (node < 348198)
  | .policerWrite .. | .tmFlush .. | .flushComplete | .instBufWrite .. | .ingressCellsWrite .. | .contextWrite .. => true
  | .klwClaim req _ => isReq req
  | .klwRelease req => isReq req
  | .klwAutoRelease => true
  | .klwDataWrite req _ _ => isReq req
  | .klwLoad req _ => isReq req
  | .klwUnwrap req _ _ => isReq req
  | .klwErase req _ => isReq req
  | .klwCommandDone | .eraseComplete .. => true
  | .espOutbound h => isHandle h
  | .espInbound h => isHandle h
  | .csubComplete | .keyAlarm .. | .selftestRun | .selftestComplete .. | .portModeWrite .. | .linkEnable .. | .linkDisable ..
  | .anComplete .. | .trainingComplete .. | .trainingTimeout .. | .linkAligned .. | .alignTimeout .. | .linkLoss ..
  | .faultRetry .. | .initReceived .. | .todStep .. | .tsPop .. => true
  | .cuelrunReceive _ f _ => f.wf
  | .linkAck .. | .linkNak .. | .nakBusy .. | .nakBusyReplay .. | .replayTimeout .. | .peerWrite | .peerRead | .peerMsg
  | .peerResp | .readTimeout .. | .windowCommit .. | .readTagRelease .. | .fundamentalReset .. | .segmentPerst .. | .hotReset ..
  | .linkDown .. | .pfFlr .. | .vfFlr .. | .pciReadyWrite .. => true
  | .pciConfigWrite _ item => item.wf
  | .hostBarWrite _ _ _ size _ tlp => isTlpSize size && tlp.wf
  | .hostBarRead _ _ _ size r => isTlpSize size && r.tlp.wf
  | .completionReceived _ tag tlp _ => decide (tag < 2 ^ 14) && tlp.wf
  | .completionTimeout _ tag => decide (tag < 2 ^ 14)
  | .quarantineEnd _ tag => decide (tag < 2 ^ 14)
  | .tagQuotaWrite .. | .tagAvailable .. | .ltrCfgWrite .. => true
  | .atsInvalidate _ lo hi itag => decide (lo ≤ hi) && decide (itag < 32)
  | .invalidationCompletion _ itag => decide (itag < 32)
  | .doeObject _ _ _ keyed => keyed.all fun k => decide (k < 36)
  | .doeAbort .. | .perstNDeassertion .. | .linkInL0 .. | .ringMapWrite .. | .ringEnable .. | .ringDisable ..
  | .ringElementWrite .. | .sqRqDoorbell .. | .cqDoorbell .. | .doorbellRead .. | .descriptorData .. | .txPayloadDone ..
  | .txDeparture .. => true
  | .rxFrame h => isHandle h
  | .fullTimeout .. | .fullerTimer .. | .ringDrainComplete .. | .ucJobDispatch .. | .ucNext .. | .ucJump .. | .ucBranch ..
  | .ucCall .. | .ucReturn .. | .ucDispatch .. | .ucWait .. | .ucEnd .. | .ucWaitEvent .. | .regimeWrite .. | .patchLoad ..
  | .patchLoadDone | .ucResume .. | .ucRollfwd .. | .ucRestart .. | .ucDbgHalt .. | .ucDbgStep .. | .ucDbgRun ..
  | .instanceCreate .. | .instanceDestroy .. | .instanceReset .. | .instanceFreeze .. | .instanceSave .. | .instanceRestore ..
  | .instanceUnfreeze .. | .filterClear .. | .resetComplete .. | .freezeDrainDone .. | .freezeTimeout .. | .saveComplete ..
  | .restoreComplete .. => true
  | .mailboxGo .. | .mailboxDone .. | .hbRangeWrite .. | .logEnableWrite .. | .logConsumerRead .. | .nvmePersonalityWrite ..
  | .nvmeCcWrite .. | .nvmeAdminCfgWrite .. | .adminDoorbell .. | .nvmeIoDoorbell .. | .admIrq .. | .namespaceWrite ..
  | .connSetup .. | .connLive .. | .connIdle .. | .connElementWrite .. | .nvmeFlush .. | .nvmeWrite .. | .nvmeRead ..
  | .nvmeWriteZeroes .. | .nvmeDsm .. | .stagingDone .. => true
  | .tcpSegment h => isHandle h
  | .segmentTransmit .. | .retransmitTimeout .. | .ackDelayTimer .. | .excDone .. | .excReinject .. | .excRetransmit ..
  | .excFail .. | .excTimeout .. | .reconnectExpiry .. | .commandDetach .. | .bowEnable .. | .bowDisable .. | .bowStart ..
  | .bowArm .. | .bowDisarm .. | .bowShadowWrite .. | .bowCfgWrite .. | .bowTimerWrite .. | .bowTimerFire ..
  | .bowTriggerConsume .. | .bowDescArrive .. | .bowBlockEnd .. | .bowBlockComplete .. | .bowAccessFail .. | .bowCqRoom ..
  | .bowDisableDone .. | .bowCqCfgWrite .. | .bowCqHeadWrite .. | .interruptEdge .. | .edgeToPending .. | .icuSet ..
  | .icuPendingClear .. | .icuSrcCfgWrite .. => true
  | .icuClaim req _ => isReq req
  | .icuEoi req _ _ => isReq req
  | .redirectHoldExpiry .. | .domainIdleEntry .. | .domainRequest .. | .domainWakeWrite .. | .domainAck .. | .depthReached ..
  | .domainWake .. | .wakeComplete .. => true
  | .loadWindow loads => loads.length == 34
  | .budgetWrite .. | .thermalSample .. | .avsStep .. | .telemetrySample .. | .pllLockLoss .. | .pllLockRegained .. => true
  | .flashVerify a b _ => a.wf && b.wf
  | .coreRelease .. | .warmRestartRequest .. | .warmDrainLimit | .warmEscalate | .tuneWrite .. | .memTrain .. | .memRestore .. => true
  | .memTrainDone _ result => match result with | none => true | some r => r.data.length == 32
  | .memCfgWrite .. | .memLock | .l3ModeSwitch | .secretRegionWrite .. => true
  | .aliasWrite req addr size _ => isReq req && isDpa addr && isSize size
  | .aliasRead req addr size => isReq req && isDpa addr && isSize size
  | .scrubRead line _ => decide (line < 2 ^ 33)
  | .setEndpointId .. | .getTid | .setTid .. | .getPldmVersion .. | .getPldmTypes | .getPldmCommands .. | .readTelemetry
  | .readCrashLog .. | .readStatus | .clearCrashLog | .requestReset .. | .forcePowerOff .. | .spdmRequest .. | .spdmBusy
  | .wdogStart .. | .wdogKick .. | .wdogWarning | .wdogBite | .logClear | .logAppend .. | .dbgTokenGo => true
  | .jtagDbgToken token => token.length == 20
  | .newChallenge | .approvedEnter | .diceSeal => true
  | .rngRead req => isReq req
  | .drbgReseed | .entropySample .. | .supplyOutOfRange .. | .railReturns .. | .shieldBreach | .seqStage | .seqFail
  | .testModePin .. | .mgmtBusTimeout => true

end Sys2Proof
end

