-- ==== Sys2Proof/Decode.lean ====
section
/-! DEFINITION. The decoder of the command table. The table gives no row any bits: a command of the block is an event or an access from
outside, not a word of memory, so no word spells one (log entry 6). The words of Peosh instructions, which the block's own threads fetch
from program memory, are in Machine/Operands.lean and, as a whole, in `peoshAssigned`. -/

namespace Sys2Proof

/-- The command that a word spells by the bits of the command table: none, since no row has bits. -/
def decodeTableWord (_nbits _w : Nat) : Option Instr := none

end Sys2Proof
end

