-- ==== Sys2Proof/Config.lean ====
section
/-! DEFINITION. What the spec leaves open. Each constant has no body: nothing in Lean can evaluate it or prove a value of it, so a
statement that holds of the model holds whatever these values are. -/

namespace Sys2Proof.Config

/-- Free words: a value the spec leaves undefined or draws at random, by the number of the draw (log entry 3). -/
opaque freeWord : Nat → Word
/-- Free bytes, by the number of the draw. -/
opaque freeByte : Nat → Byte
/-- Free choices, by the number of the draw. -/
opaque freeBool : Nat → Bool
/-- Free numbers, by the number of the draw. -/
opaque freeNat : Nat → Nat

/-- What a byte reads as that the spec calls undefined since event `n`, by its DPA (R398, R402). -/
opaque lostByte : Nat → Nat → Byte
/-- Whether a line whose contents are undefined since event `n` reads as poisoned (R398), by its line number. -/
opaque lostPoison : Nat → Nat → Bool
/-- The parity byte that the adapter computes for a TCAM entry of words 0 to 3 (Table 05-6). -/
opaque tcamParity : Word → Word → Word → Word → Byte
/-- Fused: the part is a QL-880-32 (R2). -/
opaque grade32 : Bool
/-- Fused: the silicon revision (SP_PART.REVISION). -/
opaque revision : Byte
/-- Fused: the factory value of tuning item `i` (SP_TUNE.FACTORY). -/
opaque tuneFactory : Nat → BitVec 16
/-- Fused: the identifier of the ROM microcode (HQE_PATCH_STATUS.ROM_ID). -/
opaque romId : BitVec 16

/-- Fused: the Vendor ID and the Revision ID of the functions (Table 09-2). -/
opaque vendorId : BitVec 16
opaque revisionId : Byte
/-- The Subsystem IDs that firmware gives a function before it sets PCI_READY (Table 09-2), by instance. The spec gives no register for
them (log entry 40). -/
opaque subsystemIds : Nat → BitVec 32
/-- Fused: the Device Serial Number (Table 09-2). -/
opaque serial : Word
/-- Fused: word `k` of ROM microword `a` of the control store, which the spec does not print (R256). -/
opaque ucRom : Nat → Nat → Word
/-- Fused: the smallest security version accepted, of patches (0) and of boot images (1) (R267, R385). -/
opaque svnMin : Nat → Nat
/-- Fused: whether a key slot names an enrolled key. -/
opaque enrolled : Nat → Bool
/-- Byte `i` of the patch key that Soundpost derives from fuses (R267). -/
opaque patchKey : Nat → Byte
/-- The public key of a slot, a point of P-384, whose hash is fused: slot 0 is the Ecgor key, slot 1 the operator's enrolled key; other numbers
are the keys that their users name. -/
opaque publicKey : Nat → Nat × Nat

/-- Fused: the AVS entry, 0 to 7, of the temperature band that a Tj in 0.125 °C lies in (R370). -/
opaque avsBand : Int → Fin 8
/-- Fused: the 48 bytes of the UDS, and the digest of the ROM (R425). -/
opaque uds : List Byte
opaque romDigest : List Byte
/-- Word `k` of the alias private key and the certificate chain that the DICE engine derives from the DeviceID seed and the CDI, a derivation
that the spec does not give (R425, R426). -/
opaque aliasWord : List Byte → List Byte → Nat → Word

/-- The fused word of SP_PART: part identifier 0x0880, revision and grade (0 for QL-880-64, 1 for QL-880-32). -/
def partWord : Word :=
  BitVec.ofNat 64 (0x0880 <<< 48) ||| BitVec.ofNat 64 (revision.toNat <<< 40) |||
    BitVec.ofNat 64 ((if grade32 then 1 else 0) <<< 32)

end Sys2Proof.Config
end

