-- ==== Sys2Proof/Machine/RegTypes.lean ====
section
/-! DEFINITION. What a register descriptor says: where the register is, what resets it, and its fields (R7, R8). -/

namespace Sys2Proof.Machine

/-- The access types of Table 00-4. -/
inductive Access where
  | rw | ro | wo | w1c | w1s | rc | wok | rwl | rws
  deriving DecidableEq, Repr

/-- What sets a register to its reset value: fundamental reset alone, fundamental reset and warm restart, the power-on of
VDD_AO alone, or nothing. -/
inductive ResetBy where
  | fundamental | warm | aon | never
  deriving DecidableEq, Repr

/-- One field: its lowest bit, its width and its access type. -/
structure FieldDesc where
  lo : Nat
  w : Nat
  acc : Access
  deriving DecidableEq, Repr

/-- One register array: its number in the model, its block (Table 18-3), the address of element 0, its dimensions as stride and
count (outermost first), its width in bits, its reset value, what resets it, and its fields. -/
structure RegDesc where
  rid : Nat
  block : Nat
  base : Nat
  dims : List (Nat × Nat)
  width : Nat
  rst : Word
  resetBy : ResetBy
  fields : List FieldDesc
  deriving DecidableEq, Repr

/-- One named field of a register array. -/
structure Field where
  reg : RegDesc
  lo : Nat
  w : Nat
  deriving DecidableEq, Repr

end Sys2Proof.Machine
end

