-- ==== Sys2Proof/Machine/Regs.lean ====
section
/-! DEFINITION. The register map: one descriptor per register array of the spec, and one per word of every element
array that the spec places at an address. Each descriptor gives the address of element 0, the strides and counts of its
dimensions (outermost first), its width, its reset value, what resets it, and the access type of every field, as the
register headings and field tables of spec/02 to spec/19 give them. A 128-bit register is two 64-bit ones, _LO and _HI.
CLU registers carry the cluster as their first dimension (block CLU, one per cluster, R395). -/

namespace Sys2Proof.Machine

/-! ### Registers of chapter 02 -/

def Reg.CLU_IMAGE_CTL : RegDesc :=
  { rid := 0, block := 17, base := 0x20011000400, dims := [(0x1000000, 8)], width := 32, rst := 0x0, resetBy := .warm,
    fields := [⟨16, 16, .rw⟩, ⟨0, 16, .rw⟩] }
def Fld.CLU_IMAGE_CTL_ENTRY_B : Field := ⟨Reg.CLU_IMAGE_CTL, 16, 16⟩
def Fld.CLU_IMAGE_CTL_ENTRY_A : Field := ⟨Reg.CLU_IMAGE_CTL, 0, 16⟩
def Reg.CLU_PROG_EPOCH : RegDesc :=
  { rid := 1, block := 17, base := 0x20011000408, dims := [(0x1000000, 8)], width := 32, rst := 0x0, resetBy := .warm,
    fields := [⟨16, 8, .ro⟩, ⟨8, 1, .ro⟩, ⟨0, 1, .w1s⟩] }
def Fld.CLU_PROG_EPOCH_EPOCH : Field := ⟨Reg.CLU_PROG_EPOCH, 16, 8⟩
def Fld.CLU_PROG_EPOCH_ACTIVE_IMAGE : Field := ⟨Reg.CLU_PROG_EPOCH, 8, 1⟩
def Fld.CLU_PROG_EPOCH_COMMIT : Field := ⟨Reg.CLU_PROG_EPOCH, 0, 1⟩
def Reg.CLU_IMAGE_STATUS : RegDesc :=
  { rid := 2, block := 17, base := 0x20011000410, dims := [(0x1000000, 8)], width := 32, rst := 0x0, resetBy := .warm,
    fields := [⟨17, 1, .w1c⟩, ⟨16, 1, .w1c⟩, ⟨0, 8, .ro⟩] }
def Fld.CLU_IMAGE_STATUS_IMAGE_WRITE_REFUSED : Field := ⟨Reg.CLU_IMAGE_STATUS, 17, 1⟩
def Fld.CLU_IMAGE_STATUS_SWAP_REFUSED : Field := ⟨Reg.CLU_IMAGE_STATUS, 16, 1⟩
def Fld.CLU_IMAGE_STATUS_OLD_COUNT : Field := ⟨Reg.CLU_IMAGE_STATUS, 0, 8⟩

/-- The register arrays of chapter 02. -/
def Reg.ch02 : List RegDesc :=
  [Reg.CLU_IMAGE_CTL, Reg.CLU_PROG_EPOCH, Reg.CLU_IMAGE_STATUS]

/-! ### Registers of chapter 03 -/

def Reg.CLU_THR_SHARE : RegDesc :=
  { rid := 3, block := 17, base := 0x20011022000, dims := [(0x1000000, 8), (0x8, 192)], width := 32, rst := 0x80001004, resetBy := .warm,
    fields := [⟨31, 1, .rw⟩, ⟨8, 8, .rw⟩, ⟨0, 4, .rw⟩] }
def Fld.CLU_THR_SHARE_MODE : Field := ⟨Reg.CLU_THR_SHARE, 31, 1⟩
def Fld.CLU_THR_SHARE_ENG : Field := ⟨Reg.CLU_THR_SHARE, 8, 8⟩
def Fld.CLU_THR_SHARE_PKT : Field := ⟨Reg.CLU_THR_SHARE, 0, 4⟩
def Reg.CLU_SHARE_POOL : RegDesc :=
  { rid := 4, block := 17, base := 0x20011000510, dims := [(0x1000000, 8)], width := 64, rst := 0x60000000180, resetBy := .warm,
    fields := [⟨63, 1, .w1c⟩, ⟨48, 11, .ro⟩, ⟨32, 11, .ro⟩, ⟨16, 9, .ro⟩, ⟨0, 9, .ro⟩] }
def Fld.CLU_SHARE_POOL_SHARE_REFUSED : Field := ⟨Reg.CLU_SHARE_POOL, 63, 1⟩
def Fld.CLU_SHARE_POOL_ENG_STATIC : Field := ⟨Reg.CLU_SHARE_POOL, 48, 11⟩
def Fld.CLU_SHARE_POOL_ENG_FREE : Field := ⟨Reg.CLU_SHARE_POOL, 32, 11⟩
def Fld.CLU_SHARE_POOL_PKT_STATIC : Field := ⟨Reg.CLU_SHARE_POOL, 16, 9⟩
def Fld.CLU_SHARE_POOL_PKT_FREE : Field := ⟨Reg.CLU_SHARE_POOL, 0, 9⟩
def Reg.CLU_CHAN_CFG : RegDesc :=
  { rid := 5, block := 17, base := 0x20011010000, dims := [(0x1000000, 8), (0x8, 2048)], width := 32, rst := 0x0, resetBy := .warm,
    fields := [⟨31, 1, .rw⟩, ⟨26, 2, .rw⟩, ⟨24, 2, .rw⟩, ⟨8, 4, .rw⟩, ⟨4, 4, .rw⟩] }
def Fld.CLU_CHAN_CFG_EN : Field := ⟨Reg.CLU_CHAN_CFG, 31, 1⟩
def Fld.CLU_CHAN_CFG_WR_SCOPE : Field := ⟨Reg.CLU_CHAN_CFG, 26, 2⟩
def Fld.CLU_CHAN_CFG_RD_SCOPE : Field := ⟨Reg.CLU_CHAN_CFG, 24, 2⟩
def Fld.CLU_CHAN_CFG_RD_CORE : Field := ⟨Reg.CLU_CHAN_CFG, 8, 4⟩
def Fld.CLU_CHAN_CFG_RD_THREAD : Field := ⟨Reg.CLU_CHAN_CFG, 4, 4⟩
def Reg.CLU_CHAN_STATUS : RegDesc :=
  { rid := 6, block := 17, base := 0x20011014000, dims := [(0x1000000, 8), (0x8, 2048)], width := 64, rst := 0x0, resetBy := .warm,
    fields := [⟨48, 16, .rc⟩, ⟨40, 1, .w1c⟩, ⟨32, 8, .ro⟩, ⟨24, 8, .ro⟩, ⟨16, 6, .ro⟩, ⟨8, 6, .ro⟩, ⟨0, 6, .ro⟩] }
def Fld.CLU_CHAN_STATUS_DROPPED : Field := ⟨Reg.CLU_CHAN_STATUS, 48, 16⟩
def Fld.CLU_CHAN_STATUS_CFG_BUSY : Field := ⟨Reg.CLU_CHAN_STATUS, 40, 1⟩
def Fld.CLU_CHAN_STATUS_READERS : Field := ⟨Reg.CLU_CHAN_STATUS, 32, 8⟩
def Fld.CLU_CHAN_STATUS_WRITERS : Field := ⟨Reg.CLU_CHAN_STATUS, 24, 8⟩
def Fld.CLU_CHAN_STATUS_RESERVED : Field := ⟨Reg.CLU_CHAN_STATUS, 16, 6⟩
def Fld.CLU_CHAN_STATUS_COMMITTED : Field := ⟨Reg.CLU_CHAN_STATUS, 8, 6⟩
def Fld.CLU_CHAN_STATUS_MESSAGES : Field := ⟨Reg.CLU_CHAN_STATUS, 0, 6⟩
def Reg.CLU_SYS_RD : RegDesc :=
  { rid := 7, block := 17, base := 0x20011018000, dims := [(0x1000000, 8), (0x8, 32)], width := 64, rst := 0x0, resetBy := .warm,
    fields := [⟨0, 64, .rw⟩] }
def Fld.CLU_SYS_RD_RD : Field := ⟨Reg.CLU_SYS_RD, 0, 64⟩
def Reg.PEG_SEND_DATA : RegDesc :=
  { rid := 8, block := 16, base := 0x20010080000, dims := [(0x100, 16), (0x8, 16)], width := 64, rst := 0x0, resetBy := .warm,
    fields := [⟨0, 64, .wo⟩] }
def Fld.PEG_SEND_DATA_WORD : Field := ⟨Reg.PEG_SEND_DATA, 0, 64⟩
def Reg.PEG_SEND_CMD : RegDesc :=
  { rid := 9, block := 16, base := 0x20010080080, dims := [(0x100, 16)], width := 32, rst := 0x0, resetBy := .warm,
    fields := [⟨31, 1, .w1s⟩, ⟨30, 1, .w1s⟩, ⟨16, 5, .rw⟩, ⟨0, 16, .rw⟩] }
def Fld.PEG_SEND_CMD_GO : Field := ⟨Reg.PEG_SEND_CMD, 31, 1⟩
def Fld.PEG_SEND_CMD_ABORT : Field := ⟨Reg.PEG_SEND_CMD, 30, 1⟩
def Fld.PEG_SEND_CMD_COUNT : Field := ⟨Reg.PEG_SEND_CMD, 16, 5⟩
def Fld.PEG_SEND_CMD_CHANNEL : Field := ⟨Reg.PEG_SEND_CMD, 0, 16⟩
def Reg.PEG_SEND_STATUS : RegDesc :=
  { rid := 10, block := 16, base := 0x20010080088, dims := [(0x100, 16)], width := 64, rst := 0x0, resetBy := .warm,
    fields := [⟨63, 1, .ro⟩, ⟨62, 1, .w1c⟩, ⟨48, 8, .ro⟩, ⟨0, 32, .ro⟩] }
def Fld.PEG_SEND_STATUS_BUSY : Field := ⟨Reg.PEG_SEND_STATUS, 63, 1⟩
def Fld.PEG_SEND_STATUS_REFUSED : Field := ⟨Reg.PEG_SEND_STATUS, 62, 1⟩
def Fld.PEG_SEND_STATUS_RESULT : Field := ⟨Reg.PEG_SEND_STATUS, 48, 8⟩
def Fld.PEG_SEND_STATUS_SENT : Field := ⟨Reg.PEG_SEND_STATUS, 0, 32⟩
def Reg.PEG_WDOG : RegDesc :=
  { rid := 11, block := 16, base := 0x20010000000, dims := [], width := 32, rst := 0x3E8, resetBy := .warm,
    fields := [⟨31, 1, .rw⟩, ⟨30, 1, .rw⟩, ⟨0, 20, .rw⟩] }
def Fld.PEG_WDOG_EN : Field := ⟨Reg.PEG_WDOG, 31, 1⟩
def Fld.PEG_WDOG_KILL : Field := ⟨Reg.PEG_WDOG, 30, 1⟩
def Fld.PEG_WDOG_LIMIT : Field := ⟨Reg.PEG_WDOG, 0, 20⟩
def Reg.PEG_STATE : RegDesc :=
  { rid := 12, block := 16, base := 0x20010100000, dims := [(0x8, 16384)], width := 32, rst := 0x0, resetBy := .warm,
    fields := [⟨31, 1, .ro⟩, ⟨30, 1, .ro⟩, ⟨16, 11, .ro⟩, ⟨0, 8, .ro⟩] }
def Fld.PEG_STATE_HELD : Field := ⟨Reg.PEG_STATE, 31, 1⟩
def Fld.PEG_STATE_BROKEN : Field := ⟨Reg.PEG_STATE, 30, 1⟩
def Fld.PEG_STATE_HOLDER : Field := ⟨Reg.PEG_STATE, 16, 11⟩
def Fld.PEG_STATE_WAITERS : Field := ⟨Reg.PEG_STATE, 0, 8⟩
def Reg.CLU_PEG_STATE : RegDesc :=
  { rid := 13, block := 17, base := 0x20011030000, dims := [(0x1000000, 8), (0x8, 4096)], width := 32, rst := 0x0, resetBy := .warm,
    fields := [⟨31, 1, .ro⟩, ⟨30, 1, .ro⟩, ⟨16, 11, .ro⟩, ⟨0, 8, .ro⟩] }
def Fld.CLU_PEG_STATE_HELD : Field := ⟨Reg.CLU_PEG_STATE, 31, 1⟩
def Fld.CLU_PEG_STATE_BROKEN : Field := ⟨Reg.CLU_PEG_STATE, 30, 1⟩
def Fld.CLU_PEG_STATE_HOLDER : Field := ⟨Reg.CLU_PEG_STATE, 16, 11⟩
def Fld.CLU_PEG_STATE_WAITERS : Field := ⟨Reg.CLU_PEG_STATE, 0, 8⟩
def Reg.CLU_SUPV : RegDesc :=
  { rid := 14, block := 17, base := 0x20011000500, dims := [(0x1000000, 8)], width := 64, rst := 0x80000000, resetBy := .warm,
    fields := [⟨48, 16, .rw⟩, ⟨32, 16, .rw⟩, ⟨31, 1, .rw⟩, ⟨0, 8, .rw⟩] }
def Fld.CLU_SUPV_SILENCE_VEC_B : Field := ⟨Reg.CLU_SUPV, 48, 16⟩
def Fld.CLU_SUPV_SILENCE_VEC_A : Field := ⟨Reg.CLU_SUPV, 32, 16⟩
def Fld.CLU_SUPV_SILENCE_EN : Field := ⟨Reg.CLU_SUPV, 31, 1⟩
def Fld.CLU_SUPV_SUPV_THREAD : Field := ⟨Reg.CLU_SUPV, 0, 8⟩
def Reg.CLU_SUPV_STATUS : RegDesc :=
  { rid := 15, block := 17, base := 0x20011000508, dims := [(0x1000000, 8)], width := 32, rst := 0x0, resetBy := .warm,
    fields := [⟨20, 8, .ro⟩, ⟨17, 1, .w1c⟩, ⟨16, 1, .w1c⟩, ⟨0, 16, .ro⟩] }
def Fld.CLU_SUPV_STATUS_RECORDS_PENDING : Field := ⟨Reg.CLU_SUPV_STATUS, 20, 8⟩
def Fld.CLU_SUPV_STATUS_SUPV_DOWN : Field := ⟨Reg.CLU_SUPV_STATUS, 17, 1⟩
def Fld.CLU_SUPV_STATUS_SILENCE_ESC : Field := ⟨Reg.CLU_SUPV_STATUS, 16, 1⟩
def Fld.CLU_SUPV_STATUS_SILENCE_COUNT : Field := ⟨Reg.CLU_SUPV_STATUS, 0, 16⟩
def Reg.CLU_DBG : RegDesc :=
  { rid := 16, block := 17, base := 0x20011000520, dims := [(0x1000000, 8)], width := 32, rst := 0x0, resetBy := .warm,
    fields := [⟨31, 1, .rw⟩, ⟨30, 1, .w1c⟩, ⟨0, 8, .ro⟩] }
def Fld.CLU_DBG_ATTACH : Field := ⟨Reg.CLU_DBG, 31, 1⟩
def Fld.CLU_DBG_BRK_EVENT : Field := ⟨Reg.CLU_DBG, 30, 1⟩
def Fld.CLU_DBG_LAST_THREAD : Field := ⟨Reg.CLU_DBG, 0, 8⟩
def Reg.CLU_THR_CTL : RegDesc :=
  { rid := 17, block := 17, base := 0x20011020000, dims := [(0x1000000, 8), (0x8, 192)], width := 32, rst := 0x0, resetBy := .warm,
    fields := [⟨3, 1, .w1s⟩, ⟨2, 1, .w1s⟩, ⟨1, 1, .w1s⟩, ⟨0, 1, .w1s⟩] }
def Fld.CLU_THR_CTL_KILL : Field := ⟨Reg.CLU_THR_CTL, 3, 1⟩
def Fld.CLU_THR_CTL_STOP : Field := ⟨Reg.CLU_THR_CTL, 2, 1⟩
def Fld.CLU_THR_CTL_RESUME : Field := ⟨Reg.CLU_THR_CTL, 1, 1⟩
def Fld.CLU_THR_CTL_START : Field := ⟨Reg.CLU_THR_CTL, 0, 1⟩
def Reg.CLU_THR_STATUS : RegDesc :=
  { rid := 18, block := 17, base := 0x20011021000, dims := [(0x1000000, 8), (0x8, 192)], width := 64, rst := 0x0, resetBy := .warm,
    fields := [⟨32, 18, .ro⟩, ⟨24, 5, .ro⟩, ⟨16, 4, .ro⟩, ⟨12, 4, .ro⟩, ⟨8, 1, .ro⟩, ⟨0, 8, .ro⟩] }
def Fld.CLU_THR_STATUS_PC : Field := ⟨Reg.CLU_THR_STATUS, 32, 18⟩
def Fld.CLU_THR_STATUS_OPEN_WORDS : Field := ⟨Reg.CLU_THR_STATUS, 24, 5⟩
def Fld.CLU_THR_STATUS_PEGS_HELD : Field := ⟨Reg.CLU_THR_STATUS, 16, 4⟩
def Fld.CLU_THR_STATUS_STATE : Field := ⟨Reg.CLU_THR_STATUS, 12, 4⟩
def Fld.CLU_THR_STATUS_IMAGE : Field := ⟨Reg.CLU_THR_STATUS, 8, 1⟩
def Fld.CLU_THR_STATUS_EPOCH : Field := ⟨Reg.CLU_THR_STATUS, 0, 8⟩

/-- The register arrays of chapter 03. -/
def Reg.ch03 : List RegDesc :=
  [Reg.CLU_THR_SHARE, Reg.CLU_SHARE_POOL, Reg.CLU_CHAN_CFG, Reg.CLU_CHAN_STATUS, Reg.CLU_SYS_RD, Reg.PEG_SEND_DATA] ++
  [Reg.PEG_SEND_CMD, Reg.PEG_SEND_STATUS, Reg.PEG_WDOG, Reg.PEG_STATE, Reg.CLU_PEG_STATE, Reg.CLU_SUPV] ++
  [Reg.CLU_SUPV_STATUS, Reg.CLU_DBG, Reg.CLU_THR_CTL, Reg.CLU_THR_STATUS]

/-! ### Registers of chapter 04 -/

def Reg.PAR_SRC_CFG : RegDesc :=
  { rid := 19, block := 10, base := 0x2000A000000, dims := [(0x8, 39)], width := 32, rst := 0xFF000000, resetBy := .warm,
    fields := [⟨24, 8, .rw⟩, ⟨16, 8, .rw⟩, ⟨0, 12, .rw⟩] }
def Fld.PAR_SRC_CFG_ENG_MAP : Field := ⟨Reg.PAR_SRC_CFG, 24, 8⟩
def Fld.PAR_SRC_CFG_START : Field := ⟨Reg.PAR_SRC_CFG, 16, 8⟩
def Fld.PAR_SRC_CFG_INSTANCE : Field := ⟨Reg.PAR_SRC_CFG, 0, 12⟩
def Reg.PAR_GRAPH_CTL : RegDesc :=
  { rid := 20, block := 10, base := 0x2000A000200, dims := [], width := 32, rst := 0x0, resetBy := .warm,
    fields := [⟨9, 1, .w1c⟩, ⟨8, 1, .w1c⟩, ⟨2, 1, .ro⟩, ⟨1, 1, .ro⟩, ⟨0, 1, .w1s⟩] }
def Fld.PAR_GRAPH_CTL_GRAPH_WRITE_REFUSED : Field := ⟨Reg.PAR_GRAPH_CTL, 9, 1⟩
def Fld.PAR_GRAPH_CTL_COMMIT_REFUSED : Field := ⟨Reg.PAR_GRAPH_CTL, 8, 1⟩
def Fld.PAR_GRAPH_CTL_PENDING : Field := ⟨Reg.PAR_GRAPH_CTL, 2, 1⟩
def Fld.PAR_GRAPH_CTL_ACTIVE : Field := ⟨Reg.PAR_GRAPH_CTL, 1, 1⟩
def Fld.PAR_GRAPH_CTL_COMMIT : Field := ⟨Reg.PAR_GRAPH_CTL, 0, 1⟩
def Reg.PAR_KEY_PROFILE : RegDesc :=
  { rid := 21, block := 10, base := 0x2000A001000, dims := [(0x8, 16)], width := 64, rst := 0x20000000000, resetBy := .warm,
    fields := [⟨63, 1, .rw⟩, ⟨61, 2, .rw⟩, ⟨58, 3, .rw⟩, ⟨47, 11, .rw⟩, ⟨40, 6, .ro⟩, ⟨0, 32, .rw⟩] }
def Fld.PAR_KEY_PROFILE_VALID : Field := ⟨Reg.PAR_KEY_PROFILE, 63, 1⟩
def Fld.PAR_KEY_PROFILE_MODE : Field := ⟨Reg.PAR_KEY_PROFILE, 61, 2⟩
def Fld.PAR_KEY_PROFILE_DISP_LOG2 : Field := ⟨Reg.PAR_KEY_PROFILE, 58, 3⟩
def Fld.PAR_KEY_PROFILE_DISP_BASE : Field := ⟨Reg.PAR_KEY_PROFILE, 47, 11⟩
def Fld.PAR_KEY_PROFILE_KEY_LEN : Field := ⟨Reg.PAR_KEY_PROFILE, 40, 6⟩
def Fld.PAR_KEY_PROFILE_SEED : Field := ⟨Reg.PAR_KEY_PROFILE, 0, 32⟩
def Reg.PAR_KEY_SEG : RegDesc :=
  { rid := 22, block := 10, base := 0x2000A001100, dims := [(0x40, 16), (0x8, 8)], width := 32, rst := 0x0, resetBy := .warm,
    fields := [⟨31, 1, .rw⟩, ⟨13, 9, .rw⟩, ⟨8, 5, .rw⟩] }
def Fld.PAR_KEY_SEG_EN : Field := ⟨Reg.PAR_KEY_SEG, 31, 1⟩
def Fld.PAR_KEY_SEG_OFF : Field := ⟨Reg.PAR_KEY_SEG, 13, 9⟩
def Fld.PAR_KEY_SEG_LENM1 : Field := ⟨Reg.PAR_KEY_SEG, 8, 5⟩
def Reg.PAR_FC_QUOTA : RegDesc :=
  { rid := 23, block := 10, base := 0x2000A080000, dims := [(0x8, 4096)], width := 64, rst := 0x20000000000, resetBy := .warm,
    fields := [⟨42, 21, .rw⟩, ⟨21, 21, .rw⟩, ⟨0, 21, .ro⟩] }
def Fld.PAR_FC_QUOTA_RESV : Field := ⟨Reg.PAR_FC_QUOTA, 42, 21⟩
def Fld.PAR_FC_QUOTA_CAP : Field := ⟨Reg.PAR_FC_QUOTA, 21, 21⟩
def Fld.PAR_FC_QUOTA_USED : Field := ⟨Reg.PAR_FC_QUOTA, 0, 21⟩
def Reg.PAR_FC_CFG : RegDesc :=
  { rid := 24, block := 10, base := 0x2000A000300, dims := [], width := 64, rst := 0x3E8, resetBy := .warm,
    fields := [⟨52, 12, .rw⟩, ⟨47, 5, .rw⟩, ⟨16, 16, .rw⟩, ⟨0, 16, .rw⟩] }
def Fld.PAR_FC_CFG_FT_BASE : Field := ⟨Reg.PAR_FC_CFG, 52, 12⟩
def Fld.PAR_FC_CFG_LOG2_BUCKETS : Field := ⟨Reg.PAR_FC_CFG, 47, 5⟩
def Fld.PAR_FC_CFG_NOTIFY_CH : Field := ⟨Reg.PAR_FC_CFG, 16, 16⟩
def Fld.PAR_FC_CFG_AGE_PERIOD : Field := ⟨Reg.PAR_FC_CFG, 0, 16⟩
def Reg.ACT_MIRROR : RegDesc :=
  { rid := 25, block := 11, base := 0x2000B001000, dims := [(0x8, 64)], width := 64, rst := 0x1FFF00000000, resetBy := .warm,
    fields := [⟨63, 1, .rw⟩, ⟨62, 1, .rw⟩, ⟨61, 1, .rw⟩, ⟨49, 12, .rw⟩, ⟨45, 4, .rw⟩, ⟨32, 13, .rw⟩, ⟨0, 18, .rw⟩] }
def Fld.ACT_MIRROR_EN : Field := ⟨Reg.ACT_MIRROR, 63, 1⟩
def Fld.ACT_MIRROR_POINT : Field := ⟨Reg.ACT_MIRROR, 62, 1⟩
def Fld.ACT_MIRROR_TMPL_EN : Field := ⟨Reg.ACT_MIRROR, 61, 1⟩
def Fld.ACT_MIRROR_TMPL : Field := ⟨Reg.ACT_MIRROR, 49, 12⟩
def Fld.ACT_MIRROR_SAMPLE_LOG2 : Field := ⟨Reg.ACT_MIRROR, 45, 4⟩
def Fld.ACT_MIRROR_TRUNC : Field := ⟨Reg.ACT_MIRROR, 32, 13⟩
def Fld.ACT_MIRROR_QUEUE : Field := ⟨Reg.ACT_MIRROR, 0, 18⟩
def Reg.ACT_CFG : RegDesc :=
  { rid := 26, block := 11, base := 0x2000B000000, dims := [], width := 64, rst := 0x100000000000, resetBy := .warm,
    fields := [⟨36, 14, .rw⟩, ⟨18, 18, .rw⟩, ⟨0, 18, .rw⟩] }
def Fld.ACT_CFG_CT_BYTES : Field := ⟨Reg.ACT_CFG, 36, 14⟩
def Fld.ACT_CFG_LIST_BASE : Field := ⟨Reg.ACT_CFG, 18, 18⟩
def Fld.ACT_CFG_CNT_BASE : Field := ⟨Reg.ACT_CFG, 0, 18⟩
def Reg.PAR_STATE_W0 : RegDesc :=
  { rid := 146, block := 10, base := 0x2000A100000, dims := [(0x10000, 2), (0x10, 256)], width := 64, rst := 0x0, resetBy := .warm,
    fields := [⟨63, 1, .rw⟩, ⟨61, 2, .rw⟩, ⟨53, 8, .rw⟩, ⟨45, 8, .rw⟩, ⟨33, 12, .rw⟩, ⟨28, 5, .rw⟩, ⟨17, 11, .rw⟩, ⟨14, 3, .rw⟩, ⟨11, 3, .rw⟩, ⟨10, 1, .rw⟩] }
def Fld.PAR_STATE_W0_VALID : Field := ⟨Reg.PAR_STATE_W0, 63, 1⟩
def Fld.PAR_STATE_W0_DEF_KIND : Field := ⟨Reg.PAR_STATE_W0, 61, 2⟩
def Fld.PAR_STATE_W0_DEF_NEXT : Field := ⟨Reg.PAR_STATE_W0, 53, 8⟩
def Fld.PAR_STATE_W0_SEL_OFF : Field := ⟨Reg.PAR_STATE_W0, 45, 8⟩
def Fld.PAR_STATE_W0_TRANS_BASE : Field := ⟨Reg.PAR_STATE_W0, 33, 12⟩
def Fld.PAR_STATE_W0_TRANS_COUNT : Field := ⟨Reg.PAR_STATE_W0, 28, 5⟩
def Fld.PAR_STATE_W0_EXT_BASE : Field := ⟨Reg.PAR_STATE_W0, 17, 11⟩
def Fld.PAR_STATE_W0_EXT_COUNT : Field := ⟨Reg.PAR_STATE_W0, 14, 3⟩
def Fld.PAR_STATE_W0_LAYER : Field := ⟨Reg.PAR_STATE_W0, 11, 3⟩
def Fld.PAR_STATE_W0_CHK4 : Field := ⟨Reg.PAR_STATE_W0, 10, 1⟩
def Reg.PAR_STATE_W1 : RegDesc :=
  { rid := 147, block := 10, base := 0x2000A100008, dims := [(0x10000, 2), (0x10, 256)], width := 64, rst := 0x0, resetBy := .warm,
    fields := [⟨56, 8, .rw⟩, ⟨54, 2, .rw⟩, ⟨46, 8, .rw⟩, ⟨42, 4, .rw⟩, ⟨38, 4, .rw⟩, ⟨36, 2, .rw⟩] }
def Fld.PAR_STATE_W1_HLEN_FIXED : Field := ⟨Reg.PAR_STATE_W1, 56, 8⟩
def Fld.PAR_STATE_W1_HLEN_MODE : Field := ⟨Reg.PAR_STATE_W1, 54, 2⟩
def Fld.PAR_STATE_W1_HLEN_OFF : Field := ⟨Reg.PAR_STATE_W1, 46, 8⟩
def Fld.PAR_STATE_W1_HLEN_SHIFT : Field := ⟨Reg.PAR_STATE_W1, 42, 4⟩
def Fld.PAR_STATE_W1_HLEN_WIDTHM1 : Field := ⟨Reg.PAR_STATE_W1, 38, 4⟩
def Fld.PAR_STATE_W1_HLEN_UNIT : Field := ⟨Reg.PAR_STATE_W1, 36, 2⟩
def Reg.PAR_TRANS_W0 : RegDesc :=
  { rid := 148, block := 10, base := 0x2000A200000, dims := [(0x10000, 2), (0x10, 4096)], width := 64, rst := 0x0, resetBy := .warm,
    fields := [⟨32, 32, .rw⟩, ⟨0, 32, .rw⟩] }
def Fld.PAR_TRANS_W0_MASK : Field := ⟨Reg.PAR_TRANS_W0, 32, 32⟩
def Fld.PAR_TRANS_W0_VALUE : Field := ⟨Reg.PAR_TRANS_W0, 0, 32⟩
def Reg.PAR_TRANS_W1 : RegDesc :=
  { rid := 149, block := 10, base := 0x2000A200008, dims := [(0x10000, 2), (0x10, 4096)], width := 64, rst := 0x0, resetBy := .warm,
    fields := [⟨63, 1, .rw⟩, ⟨61, 2, .rw⟩, ⟨53, 8, .rw⟩] }
def Fld.PAR_TRANS_W1_VALID : Field := ⟨Reg.PAR_TRANS_W1, 63, 1⟩
def Fld.PAR_TRANS_W1_KIND : Field := ⟨Reg.PAR_TRANS_W1, 61, 2⟩
def Fld.PAR_TRANS_W1_NEXT : Field := ⟨Reg.PAR_TRANS_W1, 53, 8⟩
def Reg.PAR_EXT_W0 : RegDesc :=
  { rid := 150, block := 10, base := 0x2000A300000, dims := [(0x4000, 2), (0x8, 2048)], width := 64, rst := 0x0, resetBy := .warm,
    fields := [⟨63, 1, .rw⟩, ⟨55, 8, .rw⟩, ⟨49, 6, .rw⟩, ⟨40, 9, .rw⟩] }
def Fld.PAR_EXT_W0_VALID : Field := ⟨Reg.PAR_EXT_W0, 63, 1⟩
def Fld.PAR_EXT_W0_SRC : Field := ⟨Reg.PAR_EXT_W0, 55, 8⟩
def Fld.PAR_EXT_W0_LENM1 : Field := ⟨Reg.PAR_EXT_W0, 49, 6⟩
def Fld.PAR_EXT_W0_DST : Field := ⟨Reg.PAR_EXT_W0, 40, 9⟩
def Reg.ACT_TMPL : RegDesc :=
  { rid := 151, block := 11, base := 0x2000B200000, dims := [(0x80, 4096), (0x8, 16)], width := 64, rst := 0x0, resetBy := .warm,
    fields := [⟨0, 64, .rw⟩] }
def Fld.ACT_TMPL_WORD : Field := ⟨Reg.ACT_TMPL, 0, 64⟩
def Reg.PARC_PARSE_EXC : RegDesc :=
  { rid := 261, block := 10, base := 0x2000A040000, dims := [(0x40, 39)], width := 64, rst := 0x0, resetBy := .warm,
    fields := [⟨0, 64, .rc⟩] }
def Fld.PARC_PARSE_EXC_COUNT : Field := ⟨Reg.PARC_PARSE_EXC, 0, 64⟩
def Reg.PARC_PARSE_DROP : RegDesc :=
  { rid := 262, block := 10, base := 0x2000A040008, dims := [(0x40, 39)], width := 64, rst := 0x0, resetBy := .warm,
    fields := [⟨0, 64, .rc⟩] }
def Fld.PARC_PARSE_DROP_COUNT : Field := ⟨Reg.PARC_PARSE_DROP, 0, 64⟩
def Reg.PARC_OVERRUN : RegDesc :=
  { rid := 263, block := 10, base := 0x2000A040010, dims := [(0x40, 39)], width := 64, rst := 0x0, resetBy := .warm,
    fields := [⟨0, 64, .rc⟩] }
def Fld.PARC_OVERRUN_COUNT : Field := ⟨Reg.PARC_OVERRUN, 0, 64⟩
def Reg.PARC_PROFILE_ERR : RegDesc :=
  { rid := 264, block := 10, base := 0x2000A040018, dims := [(0x40, 39)], width := 64, rst := 0x0, resetBy := .warm,
    fields := [⟨0, 64, .rc⟩] }
def Fld.PARC_PROFILE_ERR_COUNT : Field := ⟨Reg.PARC_PROFILE_ERR, 0, 64⟩
def Reg.PARC_PENDING_FULL : RegDesc :=
  { rid := 265, block := 10, base := 0x2000A040020, dims := [(0x40, 39)], width := 64, rst := 0x0, resetBy := .warm,
    fields := [⟨0, 64, .rc⟩] }
def Fld.PARC_PENDING_FULL_COUNT : Field := ⟨Reg.PARC_PENDING_FULL, 0, 64⟩
def Reg.PARC_DISPATCH_FULL : RegDesc :=
  { rid := 266, block := 10, base := 0x2000A040028, dims := [(0x40, 39)], width := 64, rst := 0x0, resetBy := .warm,
    fields := [⟨0, 64, .rc⟩] }
def Fld.PARC_DISPATCH_FULL_COUNT : Field := ⟨Reg.PARC_DISPATCH_FULL, 0, 64⟩
def Reg.PARC_PIN_DROP : RegDesc :=
  { rid := 267, block := 10, base := 0x2000A040030, dims := [(0x40, 39)], width := 64, rst := 0x0, resetBy := .warm,
    fields := [⟨0, 64, .rc⟩] }
def Fld.PARC_PIN_DROP_COUNT : Field := ⟨Reg.PARC_PIN_DROP, 0, 64⟩
def Reg.PARC_FH_STALE : RegDesc :=
  { rid := 268, block := 10, base := 0x2000A040038, dims := [(0x40, 39)], width := 64, rst := 0x0, resetBy := .warm,
    fields := [⟨0, 64, .rc⟩] }
def Fld.PARC_FH_STALE_COUNT : Field := ⟨Reg.PARC_FH_STALE, 0, 64⟩
def Reg.PARC_NOTICE_LOST : RegDesc :=
  { rid := 269, block := 10, base := 0x2000A050000, dims := [], width := 64, rst := 0x0, resetBy := .warm,
    fields := [⟨0, 64, .rc⟩] }
def Fld.PARC_NOTICE_LOST_COUNT : Field := ⟨Reg.PARC_NOTICE_LOST, 0, 64⟩
def Reg.ACTC_FCST : RegDesc :=
  { rid := 270, block := 11, base := 0x2000B040000, dims := [(0x8, 38)], width := 64, rst := 0x0, resetBy := .warm,
    fields := [⟨0, 64, .rc⟩] }
def Fld.ACTC_FCST_COUNT : Field := ⟨Reg.ACTC_FCST, 0, 64⟩
def Reg.ACTC_NO_QUEUE : RegDesc :=
  { rid := 271, block := 11, base := 0x2000B050000, dims := [], width := 64, rst := 0x0, resetBy := .warm,
    fields := [⟨0, 64, .rc⟩] }
def Fld.ACTC_NO_QUEUE_COUNT : Field := ⟨Reg.ACTC_NO_QUEUE, 0, 64⟩
def Reg.ACTC_LIST_ERR : RegDesc :=
  { rid := 272, block := 11, base := 0x2000B050008, dims := [], width := 64, rst := 0x0, resetBy := .warm,
    fields := [⟨0, 64, .rc⟩] }
def Fld.ACTC_LIST_ERR_COUNT : Field := ⟨Reg.ACTC_LIST_ERR, 0, 64⟩
def Reg.ACTC_NO_PACKET : RegDesc :=
  { rid := 273, block := 11, base := 0x2000B050010, dims := [], width := 64, rst := 0x0, resetBy := .warm,
    fields := [⟨0, 64, .rc⟩] }
def Fld.ACTC_NO_PACKET_COUNT : Field := ⟨Reg.ACTC_NO_PACKET, 0, 64⟩
def Reg.ACTC_ORPHAN_DROP : RegDesc :=
  { rid := 274, block := 11, base := 0x2000B050018, dims := [], width := 64, rst := 0x0, resetBy := .warm,
    fields := [⟨0, 64, .rc⟩] }
def Fld.ACTC_ORPHAN_DROP_COUNT : Field := ⟨Reg.ACTC_ORPHAN_DROP, 0, 64⟩
def Reg.ACTC_MIRROR_DROP : RegDesc :=
  { rid := 275, block := 11, base := 0x2000B050020, dims := [], width := 64, rst := 0x0, resetBy := .warm,
    fields := [⟨0, 64, .rc⟩] }
def Fld.ACTC_MIRROR_DROP_COUNT : Field := ⟨Reg.ACTC_MIRROR_DROP, 0, 64⟩
def Reg.ACTC_RECIRC_LIMIT : RegDesc :=
  { rid := 276, block := 11, base := 0x2000B050028, dims := [], width := 64, rst := 0x0, resetBy := .warm,
    fields := [⟨0, 64, .rc⟩] }
def Fld.ACTC_RECIRC_LIMIT_COUNT : Field := ⟨Reg.ACTC_RECIRC_LIMIT, 0, 64⟩
def Reg.ACTC_TTL_DROP : RegDesc :=
  { rid := 277, block := 11, base := 0x2000B050030, dims := [], width := 64, rst := 0x0, resetBy := .warm,
    fields := [⟨0, 64, .rc⟩] }
def Fld.ACTC_TTL_DROP_COUNT : Field := ⟨Reg.ACTC_TTL_DROP, 0, 64⟩
def Reg.ACTC_COUNT_ERR : RegDesc :=
  { rid := 278, block := 11, base := 0x2000B050038, dims := [], width := 64, rst := 0x0, resetBy := .warm,
    fields := [⟨0, 64, .rc⟩] }
def Fld.ACTC_COUNT_ERR_COUNT : Field := ⟨Reg.ACTC_COUNT_ERR, 0, 64⟩
def Reg.ACTC_DROP_REASON : RegDesc :=
  { rid := 279, block := 11, base := 0x2000B060000, dims := [(0x8, 256)], width := 64, rst := 0x0, resetBy := .warm,
    fields := [⟨0, 64, .rc⟩] }
def Fld.ACTC_DROP_REASON_COUNT : Field := ⟨Reg.ACTC_DROP_REASON, 0, 64⟩

/-- The register arrays of chapter 04. -/
def Reg.ch04 : List RegDesc :=
  [Reg.PAR_SRC_CFG, Reg.PAR_GRAPH_CTL, Reg.PAR_KEY_PROFILE, Reg.PAR_KEY_SEG, Reg.PAR_FC_QUOTA, Reg.PAR_FC_CFG] ++
  [Reg.ACT_MIRROR, Reg.ACT_CFG, Reg.PAR_STATE_W0, Reg.PAR_STATE_W1, Reg.PAR_TRANS_W0, Reg.PAR_TRANS_W1] ++
  [Reg.PAR_EXT_W0, Reg.ACT_TMPL, Reg.PARC_PARSE_EXC, Reg.PARC_PARSE_DROP, Reg.PARC_OVERRUN, Reg.PARC_PROFILE_ERR] ++
  [Reg.PARC_PENDING_FULL, Reg.PARC_DISPATCH_FULL, Reg.PARC_PIN_DROP, Reg.PARC_FH_STALE, Reg.PARC_NOTICE_LOST, Reg.ACTC_FCST] ++
  [Reg.ACTC_NO_QUEUE, Reg.ACTC_LIST_ERR, Reg.ACTC_NO_PACKET, Reg.ACTC_ORPHAN_DROP, Reg.ACTC_MIRROR_DROP, Reg.ACTC_RECIRC_LIMIT] ++
  [Reg.ACTC_TTL_DROP, Reg.ACTC_COUNT_ERR, Reg.ACTC_DROP_REASON]

/-! ### Registers of chapter 05 -/

def Reg.TBL_LKP_PROFILE : RegDesc :=
  { rid := 27, block := 12, base := 0x2000C002000, dims := [(0x8, 256)], width := 64, rst := 0x0, resetBy := .warm,
    fields := [⟨63, 1, .rw⟩, ⟨62, 1, .rw⟩, ⟨50, 6, .rw⟩, ⟨44, 4, .rw⟩] }
def Fld.TBL_LKP_PROFILE_VALID : Field := ⟨Reg.TBL_LKP_PROFILE, 63, 1⟩
def Fld.TBL_LKP_PROFILE_KIND : Field := ⟨Reg.TBL_LKP_PROFILE, 62, 1⟩
def Fld.TBL_LKP_PROFILE_TABLE : Field := ⟨Reg.TBL_LKP_PROFILE, 50, 6⟩
def Fld.TBL_LKP_PROFILE_TID : Field := ⟨Reg.TBL_LKP_PROFILE, 44, 4⟩
def Reg.TBL_EM_TABLE : RegDesc :=
  { rid := 28, block := 12, base := 0x2000C003000, dims := [(0x8, 64)], width := 64, rst := 0x3E80000000000, resetBy := .warm,
    fields := [⟨63, 1, .rw⟩, ⟨61, 2, .rw⟩, ⟨60, 1, .rw⟩, ⟨59, 1, .rw⟩, ⟨58, 1, .rw⟩, ⟨54, 4, .rw⟩, ⟨40, 14, .rw⟩, ⟨34, 6, .rw⟩, ⟨28, 6, .rw⟩] }
def Fld.TBL_EM_TABLE_VALID : Field := ⟨Reg.TBL_EM_TABLE, 63, 1⟩
def Fld.TBL_EM_TABLE_BANK : Field := ⟨Reg.TBL_EM_TABLE, 61, 2⟩
def Fld.TBL_EM_TABLE_KEY_WORDS2 : Field := ⟨Reg.TBL_EM_TABLE, 60, 1⟩
def Fld.TBL_EM_TABLE_EXT : Field := ⟨Reg.TBL_EM_TABLE, 59, 1⟩
def Fld.TBL_EM_TABLE_AGE_ON_HIT : Field := ⟨Reg.TBL_EM_TABLE, 58, 1⟩
def Fld.TBL_EM_TABLE_IDLE_TO : Field := ⟨Reg.TBL_EM_TABLE, 54, 4⟩
def Fld.TBL_EM_TABLE_DAMP_MS : Field := ⟨Reg.TBL_EM_TABLE, 40, 14⟩
def Fld.TBL_EM_TABLE_MOVE_POS : Field := ⟨Reg.TBL_EM_TABLE, 34, 6⟩
def Fld.TBL_EM_TABLE_MOVE_LENM1 : Field := ⟨Reg.TBL_EM_TABLE, 28, 6⟩
def Reg.TBL_EM_BANK : RegDesc :=
  { rid := 29, block := 12, base := 0x2000C000100, dims := [(0x8, 4)], width := 64, rst := 0x40003E80000, resetBy := .warm,
    fields := [⟨48, 16, .rw⟩, ⟨43, 5, .rw⟩, ⟨39, 4, .rw⟩, ⟨16, 16, .rw⟩] }
def Fld.TBL_EM_BANK_EXT_BASE : Field := ⟨Reg.TBL_EM_BANK, 48, 16⟩
def Fld.TBL_EM_BANK_EXT_LOG2 : Field := ⟨Reg.TBL_EM_BANK, 43, 5⟩
def Fld.TBL_EM_BANK_MAX_KICKS : Field := ⟨Reg.TBL_EM_BANK, 39, 4⟩
def Fld.TBL_EM_BANK_AGE_PERIOD : Field := ⟨Reg.TBL_EM_BANK, 16, 16⟩
def Reg.TBL_FRET : RegDesc :=
  { rid := 30, block := 12, base := 0x2000C003400, dims := [(0x8, 64)], width := 64, rst := 0x0, resetBy := .warm,
    fields := [⟨63, 1, .rw⟩, ⟨32, 17, .rw⟩, ⟨8, 8, .rw⟩, ⟨0, 8, .rw⟩] }
def Fld.TBL_FRET_VALID : Field := ⟨Reg.TBL_FRET, 63, 1⟩
def Fld.TBL_FRET_BASE : Field := ⟨Reg.TBL_FRET, 32, 17⟩
def Fld.TBL_FRET_PLEN_HI : Field := ⟨Reg.TBL_FRET, 8, 8⟩
def Fld.TBL_FRET_PLEN_LO : Field := ⟨Reg.TBL_FRET, 0, 8⟩
def Reg.TBL_LOCK : RegDesc :=
  { rid := 31, block := 12, base := 0x2000C001000, dims := [(0x8, 64)], width := 64, rst := 0x0, resetBy := .warm,
    fields := [⟨63, 1, .rw⟩, ⟨62, 1, .w1s⟩, ⟨61, 1, .w1c⟩, ⟨60, 1, .w1c⟩, ⟨59, 1, .w1c⟩, ⟨48, 8, .ro⟩, ⟨32, 13, .ro⟩, ⟨0, 32, .rw⟩] }
def Fld.TBL_LOCK_LOCK : Field := ⟨Reg.TBL_LOCK, 63, 1⟩
def Fld.TBL_LOCK_ABORT : Field := ⟨Reg.TBL_LOCK, 62, 1⟩
def Fld.TBL_LOCK_CONFLICT : Field := ⟨Reg.TBL_LOCK, 61, 1⟩
def Fld.TBL_LOCK_OVERFLOW : Field := ⟨Reg.TBL_LOCK, 60, 1⟩
def Fld.TBL_LOCK_DISCARDED : Field := ⟨Reg.TBL_LOCK, 59, 1⟩
def Fld.TBL_LOCK_GEN : Field := ⟨Reg.TBL_LOCK, 48, 8⟩
def Fld.TBL_LOCK_PENDING : Field := ⟨Reg.TBL_LOCK, 32, 13⟩
def Fld.TBL_LOCK_REGION : Field := ⟨Reg.TBL_LOCK, 0, 32⟩
def Reg.TBL_PUBLISH : RegDesc :=
  { rid := 32, block := 12, base := 0x2000C000010, dims := [], width := 64, rst := 0x0, resetBy := .warm,
    fields := [⟨0, 64, .w1s⟩] }
def Fld.TBL_PUBLISH_SLOTS : Field := ⟨Reg.TBL_PUBLISH, 0, 64⟩
def Reg.TBL_LEARN_CAP : RegDesc :=
  { rid := 33, block := 12, base := 0x2000C010000, dims := [(0x8, 4096)], width := 64, rst := 0x4000000000, resetBy := .warm,
    fields := [⟨24, 24, .rw⟩, ⟨0, 24, .ro⟩] }
def Fld.TBL_LEARN_CAP_CAP : Field := ⟨Reg.TBL_LEARN_CAP, 24, 24⟩
def Fld.TBL_LEARN_CAP_USED : Field := ⟨Reg.TBL_LEARN_CAP, 0, 24⟩
def Reg.TBL_NOTIFY_CFG : RegDesc :=
  { rid := 34, block := 12, base := 0x2000C000018, dims := [], width := 32, rst := 0x0, resetBy := .warm,
    fields := [⟨0, 16, .rw⟩] }
def Fld.TBL_NOTIFY_CFG_NOTIFY_CH : Field := ⟨Reg.TBL_NOTIFY_CFG, 0, 16⟩
def Reg.TBL_SWEEP_CFG : RegDesc :=
  { rid := 35, block := 12, base := 0x2000C000000, dims := [], width := 64, rst := 0x1F40032, resetBy := .warm,
    fields := [⟨63, 1, .rw⟩, ⟨62, 1, .rw⟩, ⟨61, 1, .rw⟩, ⟨40, 21, .rw⟩, ⟨16, 16, .rw⟩, ⟨0, 16, .rw⟩] }
def Fld.TBL_SWEEP_CFG_TCAM_EN : Field := ⟨Reg.TBL_SWEEP_CFG, 63, 1⟩
def Fld.TBL_SWEEP_CFG_EM_EN : Field := ⟨Reg.TBL_SWEEP_CFG, 62, 1⟩
def Fld.TBL_SWEEP_CFG_REPAIR : Field := ⟨Reg.TBL_SWEEP_CFG, 61, 1⟩
def Fld.TBL_SWEEP_CFG_SHADOW_BASE : Field := ⟨Reg.TBL_SWEEP_CFG, 40, 21⟩
def Fld.TBL_SWEEP_CFG_EM_PERIOD : Field := ⟨Reg.TBL_SWEEP_CFG, 16, 16⟩
def Fld.TBL_SWEEP_CFG_TCAM_PERIOD : Field := ⟨Reg.TBL_SWEEP_CFG, 0, 16⟩
def Reg.TBL_STATUS : RegDesc :=
  { rid := 36, block := 12, base := 0x2000C000008, dims := [], width := 64, rst := 0x0, resetBy := .warm,
    fields := [⟨63, 1, .w1c⟩, ⟨62, 1, .w1c⟩, ⟨61, 1, .w1c⟩, ⟨60, 1, .w1c⟩, ⟨32, 16, .ro⟩, ⟨23, 1, .ro⟩, ⟨0, 22, .ro⟩] }
def Fld.TBL_STATUS_MISMATCH : Field := ⟨Reg.TBL_STATUS, 63, 1⟩
def Fld.TBL_STATUS_SHADOW_ERR : Field := ⟨Reg.TBL_STATUS, 62, 1⟩
def Fld.TBL_STATUS_FRET_REFUSED : Field := ⟨Reg.TBL_STATUS, 61, 1⟩
def Fld.TBL_STATUS_FRET_ORDER : Field := ⟨Reg.TBL_STATUS, 60, 1⟩
def Fld.TBL_STATUS_TCAM_PASSES : Field := ⟨Reg.TBL_STATUS, 32, 16⟩
def Fld.TBL_STATUS_LAST_TCAM : Field := ⟨Reg.TBL_STATUS, 23, 1⟩
def Fld.TBL_STATUS_LAST_INDEX : Field := ⟨Reg.TBL_STATUS, 0, 22⟩
def Reg.TBL_EM_SLOT_W0 : RegDesc :=
  { rid := 152, block := 12, base := 0x10080000000, dims := [(0x1000000, 4), (0x20, 524288)], width := 64, rst := 0x0, resetBy := .warm,
    fields := [⟨63, 1, .rw⟩, ⟨62, 1, .rw⟩, ⟨61, 1, .rw⟩, ⟨60, 1, .rw⟩, ⟨59, 1, .rw⟩, ⟨54, 4, .rw⟩, ⟨48, 6, .rw⟩, ⟨36, 12, .rw⟩, ⟨16, 16, .rw⟩] }
def Fld.TBL_EM_SLOT_W0_VALID : Field := ⟨Reg.TBL_EM_SLOT_W0, 63, 1⟩
def Fld.TBL_EM_SLOT_W0_GEN : Field := ⟨Reg.TBL_EM_SLOT_W0, 62, 1⟩
def Fld.TBL_EM_SLOT_W0_LEARNED : Field := ⟨Reg.TBL_EM_SLOT_W0, 61, 1⟩
def Fld.TBL_EM_SLOT_W0_FLAP : Field := ⟨Reg.TBL_EM_SLOT_W0, 60, 1⟩
def Fld.TBL_EM_SLOT_W0_RECENT : Field := ⟨Reg.TBL_EM_SLOT_W0, 59, 1⟩
def Fld.TBL_EM_SLOT_W0_AGE : Field := ⟨Reg.TBL_EM_SLOT_W0, 54, 4⟩
def Fld.TBL_EM_SLOT_W0_TABLE : Field := ⟨Reg.TBL_EM_SLOT_W0, 48, 6⟩
def Fld.TBL_EM_SLOT_W0_INSTANCE : Field := ⟨Reg.TBL_EM_SLOT_W0, 36, 12⟩
def Fld.TBL_EM_SLOT_W0_MV_STAMP : Field := ⟨Reg.TBL_EM_SLOT_W0, 16, 16⟩
def Reg.TBL_EM_SLOT_W1 : RegDesc :=
  { rid := 153, block := 12, base := 0x10080000008, dims := [(0x1000000, 4), (0x20, 524288)], width := 64, rst := 0x0, resetBy := .warm,
    fields := [⟨0, 48, .rw⟩] }
def Fld.TBL_EM_SLOT_W1_KEY0 : Field := ⟨Reg.TBL_EM_SLOT_W1, 0, 48⟩
def Reg.TBL_EM_SLOT_W2 : RegDesc :=
  { rid := 154, block := 12, base := 0x10080000010, dims := [(0x1000000, 4), (0x20, 524288)], width := 64, rst := 0x0, resetBy := .warm,
    fields := [⟨0, 64, .rw⟩] }
def Fld.TBL_EM_SLOT_W2_KEY1 : Field := ⟨Reg.TBL_EM_SLOT_W2, 0, 64⟩
def Reg.TBL_EM_SLOT_W3 : RegDesc :=
  { rid := 155, block := 12, base := 0x10080000018, dims := [(0x1000000, 4), (0x20, 524288)], width := 64, rst := 0x0, resetBy := .warm,
    fields := [⟨0, 64, .rw⟩] }
def Fld.TBL_EM_SLOT_W3_DATA : Field := ⟨Reg.TBL_EM_SLOT_W3, 0, 64⟩
def Reg.TBL_TCAM_W0 : RegDesc :=
  { rid := 156, block := 12, base := 0x10084000000, dims := [(0x40, 131072)], width := 64, rst := 0x0, resetBy := .warm,
    fields := [⟨63, 1, .rw⟩, ⟨48, 8, .rw⟩, ⟨44, 4, .rw⟩, ⟨32, 12, .rw⟩, ⟨0, 16, .rw⟩] }
def Fld.TBL_TCAM_W0_VALID : Field := ⟨Reg.TBL_TCAM_W0, 63, 1⟩
def Fld.TBL_TCAM_W0_PLEN : Field := ⟨Reg.TBL_TCAM_W0, 48, 8⟩
def Fld.TBL_TCAM_W0_TID : Field := ⟨Reg.TBL_TCAM_W0, 44, 4⟩
def Fld.TBL_TCAM_W0_INSTANCE : Field := ⟨Reg.TBL_TCAM_W0, 32, 12⟩
def Fld.TBL_TCAM_W0_VRF : Field := ⟨Reg.TBL_TCAM_W0, 0, 16⟩
def Reg.TBL_TCAM_W1 : RegDesc :=
  { rid := 157, block := 12, base := 0x10084000008, dims := [(0x40, 131072)], width := 64, rst := 0x0, resetBy := .warm,
    fields := [⟨0, 64, .rw⟩] }
def Fld.TBL_TCAM_W1_ADDR_HI : Field := ⟨Reg.TBL_TCAM_W1, 0, 64⟩
def Reg.TBL_TCAM_W2 : RegDesc :=
  { rid := 158, block := 12, base := 0x10084000010, dims := [(0x40, 131072)], width := 64, rst := 0x0, resetBy := .warm,
    fields := [⟨0, 64, .rw⟩] }
def Fld.TBL_TCAM_W2_ADDR_LO : Field := ⟨Reg.TBL_TCAM_W2, 0, 64⟩
def Reg.TBL_TCAM_W3 : RegDesc :=
  { rid := 159, block := 12, base := 0x10084000018, dims := [(0x40, 131072)], width := 64, rst := 0x0, resetBy := .warm,
    fields := [⟨0, 64, .rw⟩] }
def Fld.TBL_TCAM_W3_DATA : Field := ⟨Reg.TBL_TCAM_W3, 0, 64⟩
def Reg.TBL_TCAM_W4 : RegDesc :=
  { rid := 160, block := 12, base := 0x10084000020, dims := [(0x40, 131072)], width := 64, rst := 0x0, resetBy := .warm,
    fields := [⟨0, 8, .ro⟩] }
def Fld.TBL_TCAM_W4_PARITY : Field := ⟨Reg.TBL_TCAM_W4, 0, 8⟩
def Reg.TBLC_LOOKUPS : RegDesc :=
  { rid := 280, block := 12, base := 0x2000C020000, dims := [(0x100, 5)], width := 64, rst := 0x0, resetBy := .warm,
    fields := [⟨0, 64, .rc⟩] }
def Fld.TBLC_LOOKUPS_COUNT : Field := ⟨Reg.TBLC_LOOKUPS, 0, 64⟩
def Reg.TBLC_HITS : RegDesc :=
  { rid := 281, block := 12, base := 0x2000C020008, dims := [(0x100, 5)], width := 64, rst := 0x0, resetBy := .warm,
    fields := [⟨0, 64, .rc⟩] }
def Fld.TBLC_HITS_COUNT : Field := ⟨Reg.TBLC_HITS, 0, 64⟩
def Reg.TBLC_EXT_BUSY : RegDesc :=
  { rid := 282, block := 12, base := 0x2000C020010, dims := [(0x100, 5)], width := 64, rst := 0x0, resetBy := .warm,
    fields := [⟨0, 64, .rc⟩] }
def Fld.TBLC_EXT_BUSY_COUNT : Field := ⟨Reg.TBLC_EXT_BUSY, 0, 64⟩
def Reg.TBLC_LEARNS : RegDesc :=
  { rid := 283, block := 12, base := 0x2000C020018, dims := [(0x100, 5)], width := 64, rst := 0x0, resetBy := .warm,
    fields := [⟨0, 64, .rc⟩] }
def Fld.TBLC_LEARNS_COUNT : Field := ⟨Reg.TBLC_LEARNS, 0, 64⟩
def Reg.TBLC_MOVES : RegDesc :=
  { rid := 284, block := 12, base := 0x2000C020020, dims := [(0x100, 5)], width := 64, rst := 0x0, resetBy := .warm,
    fields := [⟨0, 64, .rc⟩] }
def Fld.TBLC_MOVES_COUNT : Field := ⟨Reg.TBLC_MOVES, 0, 64⟩
def Reg.TBLC_DAMPED : RegDesc :=
  { rid := 285, block := 12, base := 0x2000C020028, dims := [(0x100, 5)], width := 64, rst := 0x0, resetBy := .warm,
    fields := [⟨0, 64, .rc⟩] }
def Fld.TBLC_DAMPED_COUNT : Field := ⟨Reg.TBLC_DAMPED, 0, 64⟩
def Reg.TBLC_LEARN_FULL : RegDesc :=
  { rid := 286, block := 12, base := 0x2000C020030, dims := [(0x100, 5)], width := 64, rst := 0x0, resetBy := .warm,
    fields := [⟨0, 64, .rc⟩] }
def Fld.TBLC_LEARN_FULL_COUNT : Field := ⟨Reg.TBLC_LEARN_FULL, 0, 64⟩
def Reg.TBLC_QUOTA : RegDesc :=
  { rid := 287, block := 12, base := 0x2000C020038, dims := [(0x100, 5)], width := 64, rst := 0x0, resetBy := .warm,
    fields := [⟨0, 64, .rc⟩] }
def Fld.TBLC_QUOTA_COUNT : Field := ⟨Reg.TBLC_QUOTA, 0, 64⟩
def Reg.TBLC_PARKED : RegDesc :=
  { rid := 288, block := 12, base := 0x2000C020040, dims := [(0x100, 5)], width := 64, rst := 0x0, resetBy := .warm,
    fields := [⟨0, 64, .rc⟩] }
def Fld.TBLC_PARKED_COUNT : Field := ⟨Reg.TBLC_PARKED, 0, 64⟩
def Reg.TBLC_RELOCATIONS : RegDesc :=
  { rid := 289, block := 12, base := 0x2000C020048, dims := [(0x100, 5)], width := 64, rst := 0x0, resetBy := .warm,
    fields := [⟨0, 64, .rc⟩] }
def Fld.TBLC_RELOCATIONS_COUNT : Field := ⟨Reg.TBLC_RELOCATIONS, 0, 64⟩
def Reg.TBLC_ECC_CORR : RegDesc :=
  { rid := 290, block := 12, base := 0x2000C020050, dims := [(0x100, 5)], width := 64, rst := 0x0, resetBy := .warm,
    fields := [⟨0, 64, .rc⟩] }
def Fld.TBLC_ECC_CORR_COUNT : Field := ⟨Reg.TBLC_ECC_CORR, 0, 64⟩
def Reg.TBLC_ECC_UNCORR : RegDesc :=
  { rid := 291, block := 12, base := 0x2000C020058, dims := [(0x100, 5)], width := 64, rst := 0x0, resetBy := .warm,
    fields := [⟨0, 64, .rc⟩] }
def Fld.TBLC_ECC_UNCORR_COUNT : Field := ⟨Reg.TBLC_ECC_UNCORR, 0, 64⟩
def Reg.TBLC_MISMATCH : RegDesc :=
  { rid := 292, block := 12, base := 0x2000C020060, dims := [(0x100, 5)], width := 64, rst := 0x0, resetBy := .warm,
    fields := [⟨0, 64, .rc⟩] }
def Fld.TBLC_MISMATCH_COUNT : Field := ⟨Reg.TBLC_MISMATCH, 0, 64⟩
def Reg.TBLC_REPAIRED : RegDesc :=
  { rid := 293, block := 12, base := 0x2000C020068, dims := [(0x100, 5)], width := 64, rst := 0x0, resetBy := .warm,
    fields := [⟨0, 64, .rc⟩] }
def Fld.TBLC_REPAIRED_COUNT : Field := ⟨Reg.TBLC_REPAIRED, 0, 64⟩
def Reg.TBLC_PARTIAL_WRITE : RegDesc :=
  { rid := 294, block := 12, base := 0x2000C020070, dims := [(0x100, 5)], width := 64, rst := 0x0, resetBy := .warm,
    fields := [⟨0, 64, .rc⟩] }
def Fld.TBLC_PARTIAL_WRITE_COUNT : Field := ⟨Reg.TBLC_PARTIAL_WRITE, 0, 64⟩
def Reg.TBLC_EM_UNLOCKED : RegDesc :=
  { rid := 295, block := 12, base := 0x2000C020078, dims := [(0x100, 5)], width := 64, rst := 0x0, resetBy := .warm,
    fields := [⟨0, 64, .rc⟩] }
def Fld.TBLC_EM_UNLOCKED_COUNT : Field := ⟨Reg.TBLC_EM_UNLOCKED, 0, 64⟩
def Reg.TBLC_NOTICE_LOST : RegDesc :=
  { rid := 296, block := 12, base := 0x2000C020800, dims := [], width := 64, rst := 0x0, resetBy := .warm,
    fields := [⟨0, 64, .rc⟩] }
def Fld.TBLC_NOTICE_LOST_COUNT : Field := ⟨Reg.TBLC_NOTICE_LOST, 0, 64⟩

/-- The register arrays of chapter 05. -/
def Reg.ch05 : List RegDesc :=
  [Reg.TBL_LKP_PROFILE, Reg.TBL_EM_TABLE, Reg.TBL_EM_BANK, Reg.TBL_FRET, Reg.TBL_LOCK, Reg.TBL_PUBLISH] ++
  [Reg.TBL_LEARN_CAP, Reg.TBL_NOTIFY_CFG, Reg.TBL_SWEEP_CFG, Reg.TBL_STATUS, Reg.TBL_EM_SLOT_W0, Reg.TBL_EM_SLOT_W1] ++
  [Reg.TBL_EM_SLOT_W2, Reg.TBL_EM_SLOT_W3, Reg.TBL_TCAM_W0, Reg.TBL_TCAM_W1, Reg.TBL_TCAM_W2, Reg.TBL_TCAM_W3] ++
  [Reg.TBL_TCAM_W4, Reg.TBLC_LOOKUPS, Reg.TBLC_HITS, Reg.TBLC_EXT_BUSY, Reg.TBLC_LEARNS, Reg.TBLC_MOVES] ++
  [Reg.TBLC_DAMPED, Reg.TBLC_LEARN_FULL, Reg.TBLC_QUOTA, Reg.TBLC_PARKED, Reg.TBLC_RELOCATIONS, Reg.TBLC_ECC_CORR] ++
  [Reg.TBLC_ECC_UNCORR, Reg.TBLC_MISMATCH, Reg.TBLC_REPAIRED, Reg.TBLC_PARTIAL_WRITE, Reg.TBLC_EM_UNLOCKED, Reg.TBLC_NOTICE_LOST]

/-! ### Registers of chapter 06 -/

def Reg.TM_CFG : RegDesc :=
  { rid := 37, block := 13, base := 0x2000D000000, dims := [], width := 64, rst := 0x1000000000000000, resetBy := .warm,
    fields := [⟨44, 20, .rw⟩] }
def Fld.TM_CFG_INGRESS_CELLS : Field := ⟨Reg.TM_CFG, 44, 20⟩
def Reg.TM_OVF_CFG : RegDesc :=
  { rid := 38, block := 13, base := 0x2000D000008, dims := [], width := 64, rst := 0x0, resetBy := .warm,
    fields := [⟨52, 12, .rw⟩, ⟨47, 5, .rw⟩] }
def Fld.TM_OVF_CFG_OVF_BASE : Field := ⟨Reg.TM_OVF_CFG, 52, 12⟩
def Fld.TM_OVF_CFG_OVF_LOG2 : Field := ⟨Reg.TM_OVF_CFG, 47, 5⟩
def Reg.TM_BUF_POOL : RegDesc :=
  { rid := 39, block := 13, base := 0x2000D000010, dims := [], width := 64, rst := 0x7000010000, resetBy := .warm,
    fields := [⟨63, 1, .w1c⟩, ⟨40, 20, .ro⟩, ⟨20, 20, .ro⟩, ⟨0, 20, .ro⟩] }
def Fld.TM_BUF_POOL_RESV_REFUSED : Field := ⟨Reg.TM_BUF_POOL, 63, 1⟩
def Fld.TM_BUF_POOL_RESV_TOTAL : Field := ⟨Reg.TM_BUF_POOL, 40, 20⟩
def Fld.TM_BUF_POOL_SHARED_FREE : Field := ⟨Reg.TM_BUF_POOL, 20, 20⟩
def Fld.TM_BUF_POOL_ING_FREE : Field := ⟨Reg.TM_BUF_POOL, 0, 20⟩
def Reg.TM_FLUSH : RegDesc :=
  { rid := 40, block := 13, base := 0x2000D000020, dims := [], width := 64, rst := 0x0, resetBy := .warm,
    fields := [⟨63, 1, .ro⟩, ⟨62, 1, .w1c⟩, ⟨0, 18, .rw⟩] }
def Fld.TM_FLUSH_BUSY : Field := ⟨Reg.TM_FLUSH, 63, 1⟩
def Fld.TM_FLUSH_REFUSED : Field := ⟨Reg.TM_FLUSH, 62, 1⟩
def Fld.TM_FLUSH_QUEUE : Field := ⟨Reg.TM_FLUSH, 0, 18⟩
def Reg.TM_INST_BUF : RegDesc :=
  { rid := 41, block := 13, base := 0x2000D010000, dims := [(0x8, 4096)], width := 64, rst := 0xFFFFF000000, resetBy := .warm,
    fields := [⟨44, 20, .rw⟩, ⟨24, 20, .rw⟩, ⟨0, 24, .rw⟩] }
def Fld.TM_INST_BUF_RESV : Field := ⟨Reg.TM_INST_BUF, 44, 20⟩
def Fld.TM_INST_BUF_SHARED_CAP : Field := ⟨Reg.TM_INST_BUF, 24, 20⟩
def Fld.TM_INST_BUF_OVF_CAP : Field := ⟨Reg.TM_INST_BUF, 0, 24⟩
def Reg.TM_INST_USE : RegDesc :=
  { rid := 42, block := 13, base := 0x2000D020000, dims := [(0x8, 4096)], width := 64, rst := 0x0, resetBy := .warm,
    fields := [⟨44, 20, .ro⟩, ⟨24, 20, .ro⟩, ⟨0, 24, .ro⟩] }
def Fld.TM_INST_USE_RESV_USED : Field := ⟨Reg.TM_INST_USE, 44, 20⟩
def Fld.TM_INST_USE_SHARED_USED : Field := ⟨Reg.TM_INST_USE, 24, 20⟩
def Fld.TM_INST_USE_OVF_USED : Field := ⟨Reg.TM_INST_USE, 0, 24⟩
def Reg.TM_WRED_COLOUR : RegDesc :=
  { rid := 43, block := 13, base := 0x2000D004000, dims := [(0x20, 256), (0x8, 3)], width := 64, rst := 0x0, resetBy := .warm,
    fields := [⟨56, 8, .rw⟩, ⟨28, 20, .rw⟩, ⟨8, 20, .rw⟩] }
def Fld.TM_WRED_COLOUR_MAXP : Field := ⟨Reg.TM_WRED_COLOUR, 56, 8⟩
def Fld.TM_WRED_COLOUR_MAX : Field := ⟨Reg.TM_WRED_COLOUR, 28, 20⟩
def Fld.TM_WRED_COLOUR_MIN : Field := ⟨Reg.TM_WRED_COLOUR, 8, 20⟩
def Reg.TM_WRED_AVG : RegDesc :=
  { rid := 44, block := 13, base := 0x2000D004018, dims := [(0x20, 256)], width := 64, rst := 0x9, resetBy := .warm,
    fields := [⟨0, 4, .rw⟩] }
def Fld.TM_WRED_AVG_AVG_SHIFT : Field := ⟨Reg.TM_WRED_AVG, 0, 4⟩
def Reg.TM_DSCP_MAP : RegDesc :=
  { rid := 45, block := 13, base := 0x2000D008000, dims := [(0x10, 16), (0x8, 2)], width := 64, rst := 0x0, resetBy := .warm,
    fields := [⟨0, 64, .rw⟩] }
def Fld.TM_DSCP_MAP_COLOUR : Field := ⟨Reg.TM_DSCP_MAP, 0, 64⟩
def Reg.TM_PCP_MAP : RegDesc :=
  { rid := 46, block := 13, base := 0x2000D008200, dims := [(0x8, 16)], width := 64, rst := 0x0, resetBy := .warm,
    fields := [⟨0, 16, .rw⟩] }
def Fld.TM_PCP_MAP_COLOUR : Field := ⟨Reg.TM_PCP_MAP, 0, 16⟩
def Reg.TM_NODE_W0 : RegDesc :=
  { rid := 161, block := 13, base := 0x10090000000, dims := [(0x40, 348198)], width := 64, rst := 0x0, resetBy := .warm,
    fields := [⟨63, 1, .rw⟩, ⟨48, 12, .rw⟩, ⟨40, 8, .rw⟩, ⟨0, 16, .rw⟩] }
def Fld.TM_NODE_W0_VALID : Field := ⟨Reg.TM_NODE_W0, 63, 1⟩
def Fld.TM_NODE_W0_WEIGHT : Field := ⟨Reg.TM_NODE_W0, 48, 12⟩
def Fld.TM_NODE_W0_OVERHEAD : Field := ⟨Reg.TM_NODE_W0, 40, 8⟩
def Fld.TM_NODE_W0_PARENT : Field := ⟨Reg.TM_NODE_W0, 0, 16⟩
def Reg.TM_NODE_W1 : RegDesc :=
  { rid := 162, block := 13, base := 0x10090000008, dims := [(0x40, 348198)], width := 64, rst := 0x0, resetBy := .warm,
    fields := [⟨38, 25, .rw⟩, ⟨0, 31, .rw⟩] }
def Fld.TM_NODE_W1_BURST : Field := ⟨Reg.TM_NODE_W1, 38, 25⟩
def Fld.TM_NODE_W1_RATE : Field := ⟨Reg.TM_NODE_W1, 0, 31⟩
def Reg.TM_NODE_W2 : RegDesc :=
  { rid := 163, block := 13, base := 0x10090000010, dims := [(0x40, 348198)], width := 64, rst := 0x0, resetBy := .warm,
    fields := [⟨0, 48, .rw⟩] }
def Fld.TM_NODE_W2_F : Field := ⟨Reg.TM_NODE_W2, 0, 48⟩
def Reg.TM_NODE_W3 : RegDesc :=
  { rid := 164, block := 13, base := 0x10090000018, dims := [(0x40, 348198)], width := 64, rst := 0x0, resetBy := .warm,
    fields := [⟨38, 26, .rw⟩, ⟨37, 1, .ro⟩] }
def Fld.TM_NODE_W3_TOKENS : Field := ⟨Reg.TM_NODE_W3, 38, 26⟩
def Fld.TM_NODE_W3_BACKLOG : Field := ⟨Reg.TM_NODE_W3, 37, 1⟩
def Reg.TM_NODE_W4 : RegDesc :=
  { rid := 165, block := 13, base := 0x10090000020, dims := [(0x40, 348198)], width := 64, rst := 0x0, resetBy := .warm,
    fields := [⟨0, 48, .rw⟩, ⟨63, 1, .rw⟩, ⟨62, 1, .rw⟩, ⟨48, 12, .rw⟩, ⟨40, 8, .rw⟩, ⟨20, 20, .rw⟩] }
def Fld.TM_NODE_W4_V : Field := ⟨Reg.TM_NODE_W4, 0, 48⟩
def Fld.TM_NODE_W4_ECN_EN : Field := ⟨Reg.TM_NODE_W4, 63, 1⟩
def Fld.TM_NODE_W4_OVF_EN : Field := ⟨Reg.TM_NODE_W4, 62, 1⟩
def Fld.TM_NODE_W4_INSTANCE : Field := ⟨Reg.TM_NODE_W4, 48, 12⟩
def Fld.TM_NODE_W4_PROFILE : Field := ⟨Reg.TM_NODE_W4, 40, 8⟩
def Fld.TM_NODE_W4_Q_MAX : Field := ⟨Reg.TM_NODE_W4, 20, 20⟩
def Reg.TM_NODE_W5 : RegDesc :=
  { rid := 166, block := 13, base := 0x10090000028, dims := [(0x40, 348198)], width := 64, rst := 0x0, resetBy := .warm,
    fields := [⟨44, 20, .ro⟩, ⟨20, 24, .ro⟩, ⟨0, 1, .ro⟩] }
def Fld.TM_NODE_W5_QLEN : Field := ⟨Reg.TM_NODE_W5, 44, 20⟩
def Fld.TM_NODE_W5_QLEN_OVF : Field := ⟨Reg.TM_NODE_W5, 20, 24⟩
def Fld.TM_NODE_W5_XOFF : Field := ⟨Reg.TM_NODE_W5, 0, 1⟩
def Reg.TM_NODE_W6 : RegDesc :=
  { rid := 167, block := 13, base := 0x10090000030, dims := [(0x40, 348198)], width := 64, rst := 0x0, resetBy := .warm,
    fields := [⟨0, 28, .ro⟩] }
def Fld.TM_NODE_W6_AVG : Field := ⟨Reg.TM_NODE_W6, 0, 28⟩
def Reg.TM_NODE_W7 : RegDesc :=
  { rid := 168, block := 13, base := 0x10090000038, dims := [(0x40, 348198)], width := 64, rst := 0x0, resetBy := .warm,
    fields := [] }
def Reg.TM_QCNT_TX_PKTS : RegDesc :=
  { rid := 169, block := 13, base := 0x10092000000, dims := [(0x20, 262144)], width := 64, rst := 0x0, resetBy := .warm,
    fields := [⟨0, 64, .rw⟩] }
def Fld.TM_QCNT_TX_PKTS_COUNT : Field := ⟨Reg.TM_QCNT_TX_PKTS, 0, 64⟩
def Reg.TM_QCNT_TX_BYTES : RegDesc :=
  { rid := 170, block := 13, base := 0x10092000008, dims := [(0x20, 262144)], width := 64, rst := 0x0, resetBy := .warm,
    fields := [⟨0, 64, .rw⟩] }
def Fld.TM_QCNT_TX_BYTES_COUNT : Field := ⟨Reg.TM_QCNT_TX_BYTES, 0, 64⟩
def Reg.TM_QCNT_DROP_PKTS : RegDesc :=
  { rid := 171, block := 13, base := 0x10092000010, dims := [(0x20, 262144)], width := 64, rst := 0x0, resetBy := .warm,
    fields := [⟨0, 64, .rw⟩] }
def Fld.TM_QCNT_DROP_PKTS_COUNT : Field := ⟨Reg.TM_QCNT_DROP_PKTS, 0, 64⟩
def Reg.TM_QCNT_ECN_MARKS : RegDesc :=
  { rid := 172, block := 13, base := 0x10092000018, dims := [(0x20, 262144)], width := 64, rst := 0x0, resetBy := .warm,
    fields := [⟨0, 64, .rw⟩] }
def Fld.TM_QCNT_ECN_MARKS_COUNT : Field := ⟨Reg.TM_QCNT_ECN_MARKS, 0, 64⟩
def Reg.TM_POL_W0 : RegDesc :=
  { rid := 173, block := 13, base := 0x10098000000, dims := [(0x20, 1048576)], width := 64, rst := 0x0, resetBy := .warm,
    fields := [⟨63, 1, .rw⟩, ⟨62, 1, .rw⟩, ⟨60, 2, .rw⟩, ⟨56, 4, .rw⟩, ⟨31, 25, .rw⟩, ⟨0, 31, .rw⟩] }
def Fld.TM_POL_W0_VALID : Field := ⟨Reg.TM_POL_W0, 63, 1⟩
def Fld.TM_POL_W0_MODE : Field := ⟨Reg.TM_POL_W0, 62, 1⟩
def Fld.TM_POL_W0_SRC : Field := ⟨Reg.TM_POL_W0, 60, 2⟩
def Fld.TM_POL_W0_MAP : Field := ⟨Reg.TM_POL_W0, 56, 4⟩
def Fld.TM_POL_W0_CBS : Field := ⟨Reg.TM_POL_W0, 31, 25⟩
def Fld.TM_POL_W0_CIR : Field := ⟨Reg.TM_POL_W0, 0, 31⟩
def Reg.TM_POL_W1 : RegDesc :=
  { rid := 174, block := 13, base := 0x10098000008, dims := [(0x20, 1048576)], width := 64, rst := 0x0, resetBy := .warm,
    fields := [⟨31, 25, .rw⟩, ⟨0, 31, .rw⟩] }
def Fld.TM_POL_W1_EBS_PBS : Field := ⟨Reg.TM_POL_W1, 31, 25⟩
def Fld.TM_POL_W1_PIR : Field := ⟨Reg.TM_POL_W1, 0, 31⟩
def Reg.TM_POL_W2 : RegDesc :=
  { rid := 175, block := 13, base := 0x10098000010, dims := [(0x20, 1048576)], width := 64, rst := 0x0, resetBy := .warm,
    fields := [⟨32, 32, .rw⟩, ⟨0, 32, .rw⟩] }
def Fld.TM_POL_W2_TC : Field := ⟨Reg.TM_POL_W2, 32, 32⟩
def Fld.TM_POL_W2_TE_TP : Field := ⟨Reg.TM_POL_W2, 0, 32⟩
def Reg.TM_POL_W3 : RegDesc :=
  { rid := 176, block := 13, base := 0x10098000018, dims := [(0x20, 1048576)], width := 64, rst := 0x0, resetBy := .warm,
    fields := [⟨32, 32, .rw⟩, ⟨0, 32, .rw⟩] }
def Fld.TM_POL_W3_RED_PKTS : Field := ⟨Reg.TM_POL_W3, 32, 32⟩
def Fld.TM_POL_W3_YELLOW_PKTS : Field := ⟨Reg.TM_POL_W3, 0, 32⟩
def Reg.TMC_ING_FULL : RegDesc :=
  { rid := 297, block := 13, base := 0x2000D030000, dims := [], width := 64, rst := 0x0, resetBy := .warm,
    fields := [⟨0, 64, .rc⟩] }
def Fld.TMC_ING_FULL_COUNT : Field := ⟨Reg.TMC_ING_FULL, 0, 64⟩
def Reg.TMC_NO_QUEUE_CFG : RegDesc :=
  { rid := 298, block := 13, base := 0x2000D030008, dims := [], width := 64, rst := 0x0, resetBy := .warm,
    fields := [⟨0, 64, .rc⟩] }
def Fld.TMC_NO_QUEUE_CFG_COUNT : Field := ⟨Reg.TMC_NO_QUEUE_CFG, 0, 64⟩
def Reg.TMC_TAIL : RegDesc :=
  { rid := 299, block := 13, base := 0x2000D030010, dims := [], width := 64, rst := 0x0, resetBy := .warm,
    fields := [⟨0, 64, .rc⟩] }
def Fld.TMC_TAIL_COUNT : Field := ⟨Reg.TMC_TAIL, 0, 64⟩
def Reg.TMC_WRED : RegDesc :=
  { rid := 300, block := 13, base := 0x2000D030018, dims := [], width := 64, rst := 0x0, resetBy := .warm,
    fields := [⟨0, 64, .rc⟩] }
def Fld.TMC_WRED_COUNT : Field := ⟨Reg.TMC_WRED, 0, 64⟩
def Reg.TMC_BUF : RegDesc :=
  { rid := 301, block := 13, base := 0x2000D030020, dims := [], width := 64, rst := 0x0, resetBy := .warm,
    fields := [⟨0, 64, .rc⟩] }
def Fld.TMC_BUF_COUNT : Field := ⟨Reg.TMC_BUF, 0, 64⟩
def Reg.TMC_OVF_BW : RegDesc :=
  { rid := 302, block := 13, base := 0x2000D030028, dims := [], width := 64, rst := 0x0, resetBy := .warm,
    fields := [⟨0, 64, .rc⟩] }
def Fld.TMC_OVF_BW_COUNT : Field := ⟨Reg.TMC_OVF_BW, 0, 64⟩
def Reg.TMC_FLUSHED : RegDesc :=
  { rid := 303, block := 13, base := 0x2000D030030, dims := [], width := 64, rst := 0x0, resetBy := .warm,
    fields := [⟨0, 64, .rc⟩] }
def Fld.TMC_FLUSHED_COUNT : Field := ⟨Reg.TMC_FLUSHED, 0, 64⟩
def Reg.TMC_STATE_REFUSED : RegDesc :=
  { rid := 304, block := 13, base := 0x2000D030038, dims := [], width := 64, rst := 0x0, resetBy := .warm,
    fields := [⟨0, 64, .rc⟩] }
def Fld.TMC_STATE_REFUSED_COUNT : Field := ⟨Reg.TMC_STATE_REFUSED, 0, 64⟩

/-- The register arrays of chapter 06. -/
def Reg.ch06 : List RegDesc :=
  [Reg.TM_CFG, Reg.TM_OVF_CFG, Reg.TM_BUF_POOL, Reg.TM_FLUSH, Reg.TM_INST_BUF, Reg.TM_INST_USE] ++
  [Reg.TM_WRED_COLOUR, Reg.TM_WRED_AVG, Reg.TM_DSCP_MAP, Reg.TM_PCP_MAP, Reg.TM_NODE_W0, Reg.TM_NODE_W1] ++
  [Reg.TM_NODE_W2, Reg.TM_NODE_W3, Reg.TM_NODE_W4, Reg.TM_NODE_W5, Reg.TM_NODE_W6, Reg.TM_NODE_W7] ++
  [Reg.TM_QCNT_TX_PKTS, Reg.TM_QCNT_TX_BYTES, Reg.TM_QCNT_DROP_PKTS, Reg.TM_QCNT_ECN_MARKS, Reg.TM_POL_W0, Reg.TM_POL_W1] ++
  [Reg.TM_POL_W2, Reg.TM_POL_W3, Reg.TMC_ING_FULL, Reg.TMC_NO_QUEUE_CFG, Reg.TMC_TAIL, Reg.TMC_WRED] ++
  [Reg.TMC_BUF, Reg.TMC_OVF_BW, Reg.TMC_FLUSHED, Reg.TMC_STATE_REFUSED]

/-! ### Registers of chapter 07 -/

def Reg.CIP_KLW_LOCK : RegDesc :=
  { rid := 47, block := 9, base := 0x20009000100, dims := [], width := 32, rst := 0x0, resetBy := .warm,
    fields := [⟨31, 1, .ro⟩, ⟨30, 1, .w1c⟩, ⟨29, 1, .w1c⟩, ⟨0, 16, .rw⟩] }
def Fld.CIP_KLW_LOCK_HELD : Field := ⟨Reg.CIP_KLW_LOCK, 31, 1⟩
def Fld.CIP_KLW_LOCK_AUTO_RELEASED : Field := ⟨Reg.CIP_KLW_LOCK, 30, 1⟩
def Fld.CIP_KLW_LOCK_CLAIM_REFUSED : Field := ⟨Reg.CIP_KLW_LOCK, 29, 1⟩
def Fld.CIP_KLW_LOCK_OWNER : Field := ⟨Reg.CIP_KLW_LOCK, 0, 16⟩
def Reg.CIP_KLW_CMD : RegDesc :=
  { rid := 48, block := 9, base := 0x20009000108, dims := [], width := 64, rst := 0x0, resetBy := .warm,
    fields := [⟨63, 1, .w1s⟩, ⟨60, 3, .rw⟩, ⟨16, 16, .rw⟩, ⟨0, 16, .rw⟩] }
def Fld.CIP_KLW_CMD_GO : Field := ⟨Reg.CIP_KLW_CMD, 63, 1⟩
def Fld.CIP_KLW_CMD_OP : Field := ⟨Reg.CIP_KLW_CMD, 60, 3⟩
def Fld.CIP_KLW_CMD_KEK : Field := ⟨Reg.CIP_KLW_CMD, 16, 16⟩
def Fld.CIP_KLW_CMD_CTX : Field := ⟨Reg.CIP_KLW_CMD, 0, 16⟩
def Reg.CIP_KLW_STATUS : RegDesc :=
  { rid := 49, block := 9, base := 0x20009000110, dims := [], width := 32, rst := 0x0, resetBy := .warm,
    fields := [⟨31, 1, .ro⟩, ⟨0, 8, .ro⟩] }
def Fld.CIP_KLW_STATUS_BUSY : Field := ⟨Reg.CIP_KLW_STATUS, 31, 1⟩
def Fld.CIP_KLW_STATUS_RESULT : Field := ⟨Reg.CIP_KLW_STATUS, 0, 8⟩
def Reg.CIP_KLW_DATA : RegDesc :=
  { rid := 50, block := 9, base := 0x20009000200, dims := [(0x8, 12)], width := 64, rst := 0x0, resetBy := .warm,
    fields := [⟨0, 64, .wok⟩] }
def Fld.CIP_KLW_DATA_DATA : Field := ⟨Reg.CIP_KLW_DATA, 0, 64⟩
def Reg.CIP_NOTIFY_CFG : RegDesc :=
  { rid := 51, block := 9, base := 0x20009000018, dims := [], width := 32, rst := 0x0, resetBy := .warm,
    fields := [⟨0, 16, .rw⟩] }
def Fld.CIP_NOTIFY_CFG_NOTIFY_CH : Field := ⟨Reg.CIP_NOTIFY_CFG, 0, 16⟩
def Reg.CIP_ALARM : RegDesc :=
  { rid := 52, block := 9, base := 0x20009000020, dims := [], width := 32, rst := 0x0, resetBy := .fundamental,
    fields := [⟨31, 1, .ro⟩, ⟨0, 6, .ro⟩] }
def Fld.CIP_ALARM_KEYLESS : Field := ⟨Reg.CIP_ALARM, 31, 1⟩
def Fld.CIP_ALARM_CAUSE : Field := ⟨Reg.CIP_ALARM, 0, 6⟩
def Reg.CIP_SELFTEST : RegDesc :=
  { rid := 53, block := 9, base := 0x20009000028, dims := [], width := 32, rst := 0x0, resetBy := .warm,
    fields := [⟨31, 1, .ro⟩, ⟨30, 1, .ro⟩, ⟨0, 16, .ro⟩, ⟨0, 1, .w1s⟩] }
def Fld.CIP_SELFTEST_READY : Field := ⟨Reg.CIP_SELFTEST, 31, 1⟩
def Fld.CIP_SELFTEST_RUNNING : Field := ⟨Reg.CIP_SELFTEST, 30, 1⟩
def Fld.CIP_SELFTEST_RUNS : Field := ⟨Reg.CIP_SELFTEST, 0, 16⟩
def Fld.CIP_SELFTEST_RUN : Field := ⟨Reg.CIP_SELFTEST, 0, 1⟩
def Reg.CIP_CTX_W0 : RegDesc :=
  { rid := 177, block := 9, base := 0x20009400000, dims := [(0x40, 65536)], width := 64, rst := 0x0, resetBy := .fundamental,
    fields := [⟨60, 4, .ro⟩, ⟨56, 4, .rw⟩, ⟨54, 2, .rw⟩, ⟨53, 1, .rw⟩, ⟨52, 1, .rw⟩, ⟨51, 1, .rw⟩, ⟨50, 1, .rw⟩, ⟨49, 1, .rw⟩, ⟨48, 1, .rw⟩, ⟨40, 8, .rw⟩, ⟨38, 2, .rw⟩, ⟨24, 12, .rw⟩] }
def Fld.CIP_CTX_W0_STATE : Field := ⟨Reg.CIP_CTX_W0, 60, 4⟩
def Fld.CIP_CTX_W0_ALG : Field := ⟨Reg.CIP_CTX_W0, 56, 4⟩
def Fld.CIP_CTX_W0_USE : Field := ⟨Reg.CIP_CTX_W0, 54, 2⟩
def Fld.CIP_CTX_W0_DIR : Field := ⟨Reg.CIP_CTX_W0, 53, 1⟩
def Fld.CIP_CTX_W0_ESN : Field := ⟨Reg.CIP_CTX_W0, 52, 1⟩
def Fld.CIP_CTX_W0_DU : Field := ⟨Reg.CIP_CTX_W0, 51, 1⟩
def Fld.CIP_CTX_W0_TUNNEL : Field := ⟨Reg.CIP_CTX_W0, 50, 1⟩
def Fld.CIP_CTX_W0_REPLAY_EN : Field := ⟨Reg.CIP_CTX_W0, 49, 1⟩
def Fld.CIP_CTX_W0_HOST_LOAD : Field := ⟨Reg.CIP_CTX_W0, 48, 1⟩
def Fld.CIP_CTX_W0_CSUB_CLU : Field := ⟨Reg.CIP_CTX_W0, 40, 8⟩
def Fld.CIP_CTX_W0_OWNER_PF : Field := ⟨Reg.CIP_CTX_W0, 38, 2⟩
def Fld.CIP_CTX_W0_INSTANCE : Field := ⟨Reg.CIP_CTX_W0, 24, 12⟩
def Reg.CIP_CTX_W1 : RegDesc :=
  { rid := 178, block := 9, base := 0x20009400008, dims := [(0x40, 65536)], width := 64, rst := 0x0, resetBy := .fundamental,
    fields := [⟨32, 32, .rw⟩] }
def Fld.CIP_CTX_W1_SPI : Field := ⟨Reg.CIP_CTX_W1, 32, 32⟩
def Reg.CIP_CTX_W2 : RegDesc :=
  { rid := 179, block := 9, base := 0x20009400010, dims := [(0x40, 65536)], width := 64, rst := 0x0, resetBy := .fundamental,
    fields := [⟨0, 64, .ro⟩] }
def Fld.CIP_CTX_W2_INV_CNT : Field := ⟨Reg.CIP_CTX_W2, 0, 64⟩
def Reg.CIP_CTX_W3 : RegDesc :=
  { rid := 180, block := 9, base := 0x20009400018, dims := [(0x40, 65536)], width := 64, rst := 0x0, resetBy := .fundamental,
    fields := [⟨0, 64, .rw⟩] }
def Fld.CIP_CTX_W3_LIMIT : Field := ⟨Reg.CIP_CTX_W3, 0, 64⟩
def Reg.CIP_CTX_W4 : RegDesc :=
  { rid := 181, block := 9, base := 0x20009400020, dims := [(0x40, 65536)], width := 64, rst := 0x0, resetBy := .fundamental,
    fields := [⟨0, 64, .rw⟩] }
def Fld.CIP_CTX_W4_SOFT : Field := ⟨Reg.CIP_CTX_W4, 0, 64⟩
def Reg.CIP_CTX_W5 : RegDesc :=
  { rid := 182, block := 9, base := 0x20009400028, dims := [(0x40, 65536)], width := 64, rst := 0x0, resetBy := .fundamental,
    fields := [⟨0, 64, .ro⟩] }
def Fld.CIP_CTX_W5_HIGHEST : Field := ⟨Reg.CIP_CTX_W5, 0, 64⟩
def Reg.CIP_CTX_W6 : RegDesc :=
  { rid := 183, block := 9, base := 0x20009400030, dims := [(0x40, 65536)], width := 64, rst := 0x0, resetBy := .fundamental,
    fields := [⟨0, 64, .ro⟩] }
def Fld.CIP_CTX_W6_WINDOW_LO : Field := ⟨Reg.CIP_CTX_W6, 0, 64⟩
def Reg.CIP_CTX_W7 : RegDesc :=
  { rid := 184, block := 9, base := 0x20009400038, dims := [(0x40, 65536)], width := 64, rst := 0x0, resetBy := .fundamental,
    fields := [⟨0, 64, .ro⟩] }
def Fld.CIP_CTX_W7_WINDOW_HI : Field := ⟨Reg.CIP_CTX_W7, 0, 64⟩
def Reg.CIPC_CFG_REFUSED : RegDesc :=
  { rid := 305, block := 9, base := 0x20009030000, dims := [], width := 64, rst := 0x0, resetBy := .warm,
    fields := [⟨0, 64, .rc⟩] }
def Fld.CIPC_CFG_REFUSED_COUNT : Field := ⟨Reg.CIPC_CFG_REFUSED, 0, 64⟩
def Reg.CIPC_KLW_REFUSED : RegDesc :=
  { rid := 306, block := 9, base := 0x20009030008, dims := [], width := 64, rst := 0x0, resetBy := .warm,
    fields := [⟨0, 64, .rc⟩] }
def Fld.CIPC_KLW_REFUSED_COUNT : Field := ⟨Reg.CIPC_KLW_REFUSED, 0, 64⟩
def Reg.CIPC_CTX_EMPTY_DROP : RegDesc :=
  { rid := 307, block := 9, base := 0x20009030010, dims := [], width := 64, rst := 0x0, resetBy := .warm,
    fields := [⟨0, 64, .rc⟩] }
def Fld.CIPC_CTX_EMPTY_DROP_COUNT : Field := ⟨Reg.CIPC_CTX_EMPTY_DROP, 0, 64⟩
def Reg.CIPC_EXHAUSTED_DROP : RegDesc :=
  { rid := 308, block := 9, base := 0x20009030018, dims := [], width := 64, rst := 0x0, resetBy := .warm,
    fields := [⟨0, 64, .rc⟩] }
def Fld.CIPC_EXHAUSTED_DROP_COUNT : Field := ⟨Reg.CIPC_EXHAUSTED_DROP, 0, 64⟩
def Reg.CIPC_CTX_MISMATCH : RegDesc :=
  { rid := 309, block := 9, base := 0x20009030020, dims := [], width := 64, rst := 0x0, resetBy := .warm,
    fields := [⟨0, 64, .rc⟩] }
def Fld.CIPC_CTX_MISMATCH_COUNT : Field := ⟨Reg.CIPC_CTX_MISMATCH, 0, 64⟩
def Reg.CIPC_LEN_ERR : RegDesc :=
  { rid := 310, block := 9, base := 0x20009030028, dims := [], width := 64, rst := 0x0, resetBy := .warm,
    fields := [⟨0, 64, .rc⟩] }
def Fld.CIPC_LEN_ERR_COUNT : Field := ⟨Reg.CIPC_LEN_ERR, 0, 64⟩
def Reg.CIPC_SPI_MISMATCH : RegDesc :=
  { rid := 311, block := 9, base := 0x20009030030, dims := [], width := 64, rst := 0x0, resetBy := .warm,
    fields := [⟨0, 64, .rc⟩] }
def Fld.CIPC_SPI_MISMATCH_COUNT : Field := ⟨Reg.CIPC_SPI_MISMATCH, 0, 64⟩
def Reg.CIPC_REPLAY_DROP : RegDesc :=
  { rid := 312, block := 9, base := 0x20009030038, dims := [], width := 64, rst := 0x0, resetBy := .warm,
    fields := [⟨0, 64, .rc⟩] }
def Fld.CIPC_REPLAY_DROP_COUNT : Field := ⟨Reg.CIPC_REPLAY_DROP, 0, 64⟩
def Reg.CIPC_AUTH_FAIL : RegDesc :=
  { rid := 313, block := 9, base := 0x20009030040, dims := [], width := 64, rst := 0x0, resetBy := .warm,
    fields := [⟨0, 64, .rc⟩] }
def Fld.CIPC_AUTH_FAIL_COUNT : Field := ⟨Reg.CIPC_AUTH_FAIL, 0, 64⟩
def Reg.CIPC_KEYLESS_DROP : RegDesc :=
  { rid := 314, block := 9, base := 0x20009030048, dims := [], width := 64, rst := 0x0, resetBy := .warm,
    fields := [⟨0, 64, .rc⟩] }
def Fld.CIPC_KEYLESS_DROP_COUNT : Field := ⟨Reg.CIPC_KEYLESS_DROP, 0, 64⟩
def Reg.CIPC_KW_FAIL : RegDesc :=
  { rid := 315, block := 9, base := 0x20009030050, dims := [], width := 64, rst := 0x0, resetBy := .warm,
    fields := [⟨0, 64, .rc⟩] }
def Fld.CIPC_KW_FAIL_COUNT : Field := ⟨Reg.CIPC_KW_FAIL, 0, 64⟩
def Reg.CIPC_NOTICE_LOST : RegDesc :=
  { rid := 316, block := 9, base := 0x20009030058, dims := [], width := 64, rst := 0x0, resetBy := .warm,
    fields := [⟨0, 64, .rc⟩] }
def Fld.CIPC_NOTICE_LOST_COUNT : Field := ⟨Reg.CIPC_NOTICE_LOST, 0, 64⟩

/-- The register arrays of chapter 07. -/
def Reg.ch07 : List RegDesc :=
  [Reg.CIP_KLW_LOCK, Reg.CIP_KLW_CMD, Reg.CIP_KLW_STATUS, Reg.CIP_KLW_DATA, Reg.CIP_NOTIFY_CFG, Reg.CIP_ALARM] ++
  [Reg.CIP_SELFTEST, Reg.CIP_CTX_W0, Reg.CIP_CTX_W1, Reg.CIP_CTX_W2, Reg.CIP_CTX_W3, Reg.CIP_CTX_W4] ++
  [Reg.CIP_CTX_W5, Reg.CIP_CTX_W6, Reg.CIP_CTX_W7, Reg.CIPC_CFG_REFUSED, Reg.CIPC_KLW_REFUSED, Reg.CIPC_CTX_EMPTY_DROP] ++
  [Reg.CIPC_EXHAUSTED_DROP, Reg.CIPC_CTX_MISMATCH, Reg.CIPC_LEN_ERR, Reg.CIPC_SPI_MISMATCH, Reg.CIPC_REPLAY_DROP, Reg.CIPC_AUTH_FAIL] ++
  [Reg.CIPC_KEYLESS_DROP, Reg.CIPC_KW_FAIL, Reg.CIPC_NOTICE_LOST]

/-! ### Registers of chapter 08 -/

def Reg.PRT_LANE_CFG : RegDesc :=
  { rid := 54, block := 14, base := 0x2000E008000, dims := [(0x8, 32)], width := 32, rst := 0x0, resetBy := .fundamental,
    fields := [⟨1, 1, .rw⟩, ⟨0, 1, .rw⟩] }
def Fld.PRT_LANE_CFG_RX_INV : Field := ⟨Reg.PRT_LANE_CFG, 1, 1⟩
def Fld.PRT_LANE_CFG_TX_INV : Field := ⟨Reg.PRT_LANE_CFG, 0, 1⟩
def Reg.PRT_PORT_CFG : RegDesc :=
  { rid := 55, block := 14, base := 0x2000E000000, dims := [(0x1000, 4)], width := 32, rst := 0x108, resetBy := .warm,
    fields := [⟨16, 8, .rw⟩, ⟨8, 4, .rw⟩, ⟨4, 2, .rw⟩, ⟨3, 1, .rw⟩, ⟨2, 1, .w1c⟩] }
def Fld.PRT_PORT_CFG_ENABLE : Field := ⟨Reg.PRT_PORT_CFG, 16, 8⟩
def Fld.PRT_PORT_CFG_MODE : Field := ⟨Reg.PRT_PORT_CFG, 8, 4⟩
def Fld.PRT_PORT_CFG_FEC : Field := ⟨Reg.PRT_PORT_CFG, 4, 2⟩
def Fld.PRT_PORT_CFG_AN_EN : Field := ⟨Reg.PRT_PORT_CFG, 3, 1⟩
def Fld.PRT_PORT_CFG_MODE_UNSUPPORTED : Field := ⟨Reg.PRT_PORT_CFG, 2, 1⟩
def Reg.PRT_MAC_STATUS : RegDesc :=
  { rid := 56, block := 14, base := 0x2000E100008, dims := [(0x400, 32)], width := 32, rst := 0x0, resetBy := .warm,
    fields := [⟨28, 4, .ro⟩, ⟨26, 2, .ro⟩, ⟨0, 16, .ro⟩] }
def Fld.PRT_MAC_STATUS_STATE : Field := ⟨Reg.PRT_MAC_STATUS, 28, 4⟩
def Fld.PRT_MAC_STATUS_FEC_ACTIVE : Field := ⟨Reg.PRT_MAC_STATUS, 26, 2⟩
def Fld.PRT_MAC_STATUS_LINK_DOWNS : Field := ⟨Reg.PRT_MAC_STATUS, 0, 16⟩
def Reg.PRT_MAC_CFG : RegDesc :=
  { rid := 57, block := 14, base := 0x2000E100000, dims := [(0x400, 32)], width := 32, rst := 0x97A00000, resetBy := .warm,
    fields := [⟨18, 14, .rw⟩, ⟨16, 2, .rw⟩, ⟨15, 1, .rw⟩, ⟨13, 2, .rw⟩] }
def Fld.PRT_MAC_CFG_MAX_FRAME : Field := ⟨Reg.PRT_MAC_CFG, 18, 14⟩
def Fld.PRT_MAC_CFG_MACSEC : Field := ⟨Reg.PRT_MAC_CFG, 16, 2⟩
def Fld.PRT_MAC_CFG_PTP_TX : Field := ⟨Reg.PRT_MAC_CFG, 15, 1⟩
def Fld.PRT_MAC_CFG_TX_AN : Field := ⟨Reg.PRT_MAC_CFG, 13, 2⟩
def Reg.PRT_MACSEC_SCI : RegDesc :=
  { rid := 58, block := 14, base := 0x2000E100010, dims := [(0x400, 32)], width := 64, rst := 0x0, resetBy := .warm,
    fields := [⟨0, 64, .rw⟩] }
def Fld.PRT_MACSEC_SCI_SCI : Field := ⟨Reg.PRT_MACSEC_SCI, 0, 64⟩
def Reg.PRT_MACSEC_TXSA : RegDesc :=
  { rid := 59, block := 14, base := 0x2000E100018, dims := [(0x400, 32)], width := 64, rst := 0x0, resetBy := .warm,
    fields := [⟨0, 64, .rw⟩] }
def Fld.PRT_MACSEC_TXSA_CTX : Field := ⟨Reg.PRT_MACSEC_TXSA, 0, 64⟩
def Reg.PRT_MACSEC_RXSA_LO : RegDesc :=
  { rid := 60, block := 14, base := 0x2000E100100, dims := [(0x400, 32), (0x10, 16)], width := 64, rst := 0x0, resetBy := .warm,
    fields := [⟨63, 1, .rw⟩, ⟨62, 1, .rw⟩, ⟨60, 2, .rw⟩, ⟨48, 8, .rw⟩, ⟨0, 16, .rw⟩] }
def Fld.PRT_MACSEC_RXSA_LO_VALID : Field := ⟨Reg.PRT_MACSEC_RXSA_LO, 63, 1⟩
def Fld.PRT_MACSEC_RXSA_LO_DEFAULT : Field := ⟨Reg.PRT_MACSEC_RXSA_LO, 62, 1⟩
def Fld.PRT_MACSEC_RXSA_LO_AN : Field := ⟨Reg.PRT_MACSEC_RXSA_LO, 60, 2⟩
def Fld.PRT_MACSEC_RXSA_LO_REPLAY_WIN : Field := ⟨Reg.PRT_MACSEC_RXSA_LO, 48, 8⟩
def Fld.PRT_MACSEC_RXSA_LO_CTX : Field := ⟨Reg.PRT_MACSEC_RXSA_LO, 0, 16⟩
def Reg.PRT_MACSEC_RXSA_HI : RegDesc :=
  { rid := 61, block := 14, base := 0x2000E100108, dims := [(0x400, 32), (0x10, 16)], width := 64, rst := 0x0, resetBy := .warm,
    fields := [⟨0, 64, .rw⟩] }
def Fld.PRT_MACSEC_RXSA_HI_SCI : Field := ⟨Reg.PRT_MACSEC_RXSA_HI, 0, 64⟩
def Reg.PRT_PTP_DELAY : RegDesc :=
  { rid := 62, block := 14, base := 0x2000E100020, dims := [(0x400, 32)], width := 64, rst := 0x0, resetBy := .fundamental,
    fields := [⟨32, 32, .rw⟩, ⟨0, 32, .rw⟩] }
def Fld.PRT_PTP_DELAY_RX : Field := ⟨Reg.PRT_PTP_DELAY, 32, 32⟩
def Fld.PRT_PTP_DELAY_TX : Field := ⟨Reg.PRT_PTP_DELAY, 0, 32⟩
def Reg.PRT_TS_HEAD : RegDesc :=
  { rid := 63, block := 14, base := 0x2000E100028, dims := [(0x400, 32)], width := 64, rst := 0x0, resetBy := .warm,
    fields := [⟨63, 1, .ro⟩, ⟨56, 4, .ro⟩, ⟨48, 8, .ro⟩, ⟨32, 16, .ro⟩, ⟨0, 1, .w1s⟩] }
def Fld.PRT_TS_HEAD_VALID : Field := ⟨Reg.PRT_TS_HEAD, 63, 1⟩
def Fld.PRT_TS_HEAD_MSG_TYPE : Field := ⟨Reg.PRT_TS_HEAD, 56, 4⟩
def Fld.PRT_TS_HEAD_DOMAIN : Field := ⟨Reg.PRT_TS_HEAD, 48, 8⟩
def Fld.PRT_TS_HEAD_SEQ_ID : Field := ⟨Reg.PRT_TS_HEAD, 32, 16⟩
def Fld.PRT_TS_HEAD_POP : Field := ⟨Reg.PRT_TS_HEAD, 0, 1⟩
def Reg.PRT_TOD_ADJ : RegDesc :=
  { rid := 64, block := 14, base := 0x2000E009000, dims := [], width := 32, rst := 0x0, resetBy := .fundamental,
    fields := [⟨0, 32, .rw⟩] }
def Fld.PRT_TOD_ADJ_RATE : Field := ⟨Reg.PRT_TOD_ADJ, 0, 32⟩
def Reg.CUE_WIN_CTL : RegDesc :=
  { rid := 65, block := 15, base := 0x2000F001000, dims := [(0x8, 64)], width := 32, rst := 0x0, resetBy := .warm,
    fields := [⟨16, 1, .w1c⟩, ⟨8, 8, .ro⟩, ⟨0, 1, .w1s⟩] }
def Fld.CUE_WIN_CTL_COMMIT_REFUSED : Field := ⟨Reg.CUE_WIN_CTL, 16, 1⟩
def Fld.CUE_WIN_CTL_GEN : Field := ⟨Reg.CUE_WIN_CTL, 8, 8⟩
def Fld.CUE_WIN_CTL_COMMIT : Field := ⟨Reg.CUE_WIN_CTL, 0, 1⟩
def Reg.CUE_CFG : RegDesc :=
  { rid := 66, block := 15, base := 0x2000F000000, dims := [], width := 64, rst := 0x400000C35080, resetBy := .warm,
    fields := [⟨48, 16, .rw⟩, ⟨32, 16, .rw⟩, ⟨8, 24, .rw⟩, ⟨4, 4, .rw⟩, ⟨2, 1, .rw⟩, ⟨0, 2, .rw⟩] }
def Fld.CUE_CFG_DEVICE_ID : Field := ⟨Reg.CUE_CFG, 48, 16⟩
def Fld.CUE_CFG_REQ_TIMEOUT : Field := ⟨Reg.CUE_CFG, 32, 16⟩
def Fld.CUE_CFG_RESP_DEADLINE : Field := ⟨Reg.CUE_CFG, 8, 24⟩
def Fld.CUE_CFG_RETRY_MAX : Field := ⟨Reg.CUE_CFG, 4, 4⟩
def Fld.CUE_CFG_RING_EN : Field := ⟨Reg.CUE_CFG, 2, 1⟩
def Fld.CUE_CFG_RING_A : Field := ⟨Reg.CUE_CFG, 0, 2⟩
def Reg.CUE_PORT_CFG : RegDesc :=
  { rid := 67, block := 15, base := 0x2000F000100, dims := [(0x8, 4)], width := 32, rst := 0x7D0, resetBy := .warm,
    fields := [⟨31, 1, .rw⟩, ⟨30, 1, .rw⟩, ⟨0, 16, .rw⟩] }
def Fld.CUE_PORT_CFG_TREE : Field := ⟨Reg.CUE_PORT_CFG, 31, 1⟩
def Fld.CUE_PORT_CFG_RING : Field := ⟨Reg.CUE_PORT_CFG, 30, 1⟩
def Fld.CUE_PORT_CFG_REPLAY_TIMEOUT : Field := ⟨Reg.CUE_PORT_CFG, 0, 16⟩
def Reg.CUE_PORT_STATUS : RegDesc :=
  { rid := 68, block := 15, base := 0x2000F000200, dims := [(0x8, 4)], width := 64, rst := 0x0, resetBy := .warm,
    fields := [⟨48, 16, .ro⟩, ⟨47, 1, .w1c⟩, ⟨32, 9, .ro⟩, ⟨0, 16, .ro⟩] }
def Fld.CUE_PORT_STATUS_NEIGHBOUR : Field := ⟨Reg.CUE_PORT_STATUS, 48, 16⟩
def Fld.CUE_PORT_STATUS_ID_CONFLICT : Field := ⟨Reg.CUE_PORT_STATUS, 47, 1⟩
def Fld.CUE_PORT_STATUS_UNACKED : Field := ⟨Reg.CUE_PORT_STATUS, 32, 9⟩
def Fld.CUE_PORT_STATUS_LINK_DELAY : Field := ⟨Reg.CUE_PORT_STATUS, 0, 16⟩
def Reg.CUE_ROUTE : RegDesc :=
  { rid := 69, block := 15, base := 0x2000F100000, dims := [(0x8, 65536)], width := 32, rst := 0x0, resetBy := .warm,
    fields := [⟨7, 1, .rw⟩, ⟨4, 2, .rw⟩, ⟨3, 1, .rw⟩, ⟨0, 2, .rw⟩] }
def Fld.CUE_ROUTE_VALID : Field := ⟨Reg.CUE_ROUTE, 7, 1⟩
def Fld.CUE_ROUTE_PORT : Field := ⟨Reg.CUE_ROUTE, 4, 2⟩
def Fld.CUE_ROUTE_ALT_VALID : Field := ⟨Reg.CUE_ROUTE, 3, 1⟩
def Fld.CUE_ROUTE_ALT_PORT : Field := ⟨Reg.CUE_ROUTE, 0, 2⟩
def Reg.CUE_OUT : RegDesc :=
  { rid := 70, block := 15, base := 0x2000F002000, dims := [(0x8, 64)], width := 64, rst := 0x0, resetBy := .warm,
    fields := [⟨48, 16, .rw⟩, ⟨42, 6, .rw⟩, ⟨34, 8, .rw⟩, ⟨31, 3, .rw⟩, ⟨0, 24, .rw⟩] }
def Fld.CUE_OUT_DEST : Field := ⟨Reg.CUE_OUT, 48, 16⟩
def Fld.CUE_OUT_RWIN : Field := ⟨Reg.CUE_OUT, 42, 6⟩
def Fld.CUE_OUT_RGEN : Field := ⟨Reg.CUE_OUT, 34, 8⟩
def Fld.CUE_OUT_CLASS : Field := ⟨Reg.CUE_OUT, 31, 3⟩
def Fld.CUE_OUT_DEADLINE : Field := ⟨Reg.CUE_OUT, 0, 24⟩
def Reg.CUE_L2_DEST : RegDesc :=
  { rid := 71, block := 15, base := 0x2000F080000, dims := [(0x8, 16384)], width := 64, rst := 0x0, resetBy := .warm,
    fields := [⟨48, 16, .rw⟩, ⟨45, 3, .rw⟩, ⟨0, 24, .rw⟩] }
def Fld.CUE_L2_DEST_DST : Field := ⟨Reg.CUE_L2_DEST, 48, 16⟩
def Fld.CUE_L2_DEST_CLASS : Field := ⟨Reg.CUE_L2_DEST, 45, 3⟩
def Fld.CUE_L2_DEST_DEADLINE : Field := ⟨Reg.CUE_L2_DEST, 0, 24⟩
def Reg.CUE_WIN_SH_W0 : RegDesc :=
  { rid := 185, block := 15, base := 0x2000F010000, dims := [(0x40, 64)], width := 64, rst := 0x0, resetBy := .warm,
    fields := [⟨0, 48, .rw⟩] }
def Fld.CUE_WIN_SH_W0_BASE : Field := ⟨Reg.CUE_WIN_SH_W0, 0, 48⟩
def Reg.CUE_WIN_SH_W1 : RegDesc :=
  { rid := 186, block := 15, base := 0x2000F010008, dims := [(0x40, 64)], width := 64, rst := 0x0, resetBy := .warm,
    fields := [⟨0, 48, .rw⟩] }
def Fld.CUE_WIN_SH_W1_LIMIT : Field := ⟨Reg.CUE_WIN_SH_W1, 0, 48⟩
def Reg.CUE_WIN_SH_W2 : RegDesc :=
  { rid := 187, block := 15, base := 0x2000F010010, dims := [(0x40, 64)], width := 64, rst := 0x0, resetBy := .warm,
    fields := [⟨62, 2, .rw⟩, ⟨0, 16, .rw⟩] }
def Fld.CUE_WIN_SH_W2_KIND : Field := ⟨Reg.CUE_WIN_SH_W2, 62, 2⟩
def Fld.CUE_WIN_SH_W2_CH : Field := ⟨Reg.CUE_WIN_SH_W2, 0, 16⟩
def Reg.CUE_WIN_SH_W3 : RegDesc :=
  { rid := 188, block := 15, base := 0x2000F010018, dims := [(0x40, 64)], width := 64, rst := 0x0, resetBy := .warm,
    fields := [⟨63, 1, .rw⟩, ⟨62, 1, .rw⟩, ⟨61, 1, .rw⟩, ⟨16, 16, .rw⟩, ⟨0, 16, .rw⟩] }
def Fld.CUE_WIN_SH_W3_VALID : Field := ⟨Reg.CUE_WIN_SH_W3, 63, 1⟩
def Fld.CUE_WIN_SH_W3_READ : Field := ⟨Reg.CUE_WIN_SH_W3, 62, 1⟩
def Fld.CUE_WIN_SH_W3_WRITE : Field := ⟨Reg.CUE_WIN_SH_W3, 61, 1⟩
def Fld.CUE_WIN_SH_W3_SRC_ID : Field := ⟨Reg.CUE_WIN_SH_W3, 16, 16⟩
def Fld.CUE_WIN_SH_W3_SRC_MASK : Field := ⟨Reg.CUE_WIN_SH_W3, 0, 16⟩
def Reg.CUE_WIN_AC_W0 : RegDesc :=
  { rid := 189, block := 15, base := 0x2000F020000, dims := [(0x40, 64)], width := 64, rst := 0x0, resetBy := .warm,
    fields := [⟨0, 48, .ro⟩] }
def Fld.CUE_WIN_AC_W0_BASE : Field := ⟨Reg.CUE_WIN_AC_W0, 0, 48⟩
def Reg.CUE_WIN_AC_W1 : RegDesc :=
  { rid := 190, block := 15, base := 0x2000F020008, dims := [(0x40, 64)], width := 64, rst := 0x0, resetBy := .warm,
    fields := [⟨0, 48, .ro⟩] }
def Fld.CUE_WIN_AC_W1_LIMIT : Field := ⟨Reg.CUE_WIN_AC_W1, 0, 48⟩
def Reg.CUE_WIN_AC_W2 : RegDesc :=
  { rid := 191, block := 15, base := 0x2000F020010, dims := [(0x40, 64)], width := 64, rst := 0x0, resetBy := .warm,
    fields := [⟨62, 2, .ro⟩, ⟨0, 16, .ro⟩] }
def Fld.CUE_WIN_AC_W2_KIND : Field := ⟨Reg.CUE_WIN_AC_W2, 62, 2⟩
def Fld.CUE_WIN_AC_W2_CH : Field := ⟨Reg.CUE_WIN_AC_W2, 0, 16⟩
def Reg.CUE_WIN_AC_W3 : RegDesc :=
  { rid := 192, block := 15, base := 0x2000F020018, dims := [(0x40, 64)], width := 64, rst := 0x0, resetBy := .warm,
    fields := [⟨63, 1, .ro⟩, ⟨62, 1, .ro⟩, ⟨61, 1, .ro⟩, ⟨16, 16, .ro⟩, ⟨0, 16, .ro⟩] }
def Fld.CUE_WIN_AC_W3_VALID : Field := ⟨Reg.CUE_WIN_AC_W3, 63, 1⟩
def Fld.CUE_WIN_AC_W3_READ : Field := ⟨Reg.CUE_WIN_AC_W3, 62, 1⟩
def Fld.CUE_WIN_AC_W3_WRITE : Field := ⟨Reg.CUE_WIN_AC_W3, 61, 1⟩
def Fld.CUE_WIN_AC_W3_SRC_ID : Field := ⟨Reg.CUE_WIN_AC_W3, 16, 16⟩
def Fld.CUE_WIN_AC_W3_SRC_MASK : Field := ⟨Reg.CUE_WIN_AC_W3, 0, 16⟩
def Reg.PRT_TS_TIME : RegDesc :=
  { rid := 246, block := 14, base := 0x2000E100030, dims := [(0x400, 32)], width := 64, rst := 0x0, resetBy := .warm,
    fields := [⟨0, 64, .ro⟩] }
def Fld.PRT_TS_TIME_STAMP : Field := ⟨Reg.PRT_TS_TIME, 0, 64⟩
def Reg.PRT_TOD_STEP : RegDesc :=
  { rid := 247, block := 14, base := 0x2000E009008, dims := [], width := 64, rst := 0x0, resetBy := .fundamental,
    fields := [⟨0, 64, .wo⟩] }
def Fld.PRT_TOD_STEP_STEP : Field := ⟨Reg.PRT_TOD_STEP, 0, 64⟩
def Reg.PRTC_RX_FRAMES : RegDesc :=
  { rid := 317, block := 14, base := 0x2000E100200, dims := [(0x400, 32)], width := 64, rst := 0x0, resetBy := .warm,
    fields := [⟨0, 64, .rc⟩] }
def Fld.PRTC_RX_FRAMES_COUNT : Field := ⟨Reg.PRTC_RX_FRAMES, 0, 64⟩
def Reg.PRTC_RX_BYTES : RegDesc :=
  { rid := 318, block := 14, base := 0x2000E100208, dims := [(0x400, 32)], width := 64, rst := 0x0, resetBy := .warm,
    fields := [⟨0, 64, .rc⟩] }
def Fld.PRTC_RX_BYTES_COUNT : Field := ⟨Reg.PRTC_RX_BYTES, 0, 64⟩
def Reg.PRTC_TX_FRAMES : RegDesc :=
  { rid := 319, block := 14, base := 0x2000E100210, dims := [(0x400, 32)], width := 64, rst := 0x0, resetBy := .warm,
    fields := [⟨0, 64, .rc⟩] }
def Fld.PRTC_TX_FRAMES_COUNT : Field := ⟨Reg.PRTC_TX_FRAMES, 0, 64⟩
def Reg.PRTC_TX_BYTES : RegDesc :=
  { rid := 320, block := 14, base := 0x2000E100218, dims := [(0x400, 32)], width := 64, rst := 0x0, resetBy := .warm,
    fields := [⟨0, 64, .rc⟩] }
def Fld.PRTC_TX_BYTES_COUNT : Field := ⟨Reg.PRTC_TX_BYTES, 0, 64⟩
def Reg.PRTC_RX_FCS_ERR : RegDesc :=
  { rid := 321, block := 14, base := 0x2000E100220, dims := [(0x400, 32)], width := 64, rst := 0x0, resetBy := .warm,
    fields := [⟨0, 64, .rc⟩] }
def Fld.PRTC_RX_FCS_ERR_COUNT : Field := ⟨Reg.PRTC_RX_FCS_ERR, 0, 64⟩
def Reg.PRTC_RX_RUNT : RegDesc :=
  { rid := 322, block := 14, base := 0x2000E100228, dims := [(0x400, 32)], width := 64, rst := 0x0, resetBy := .warm,
    fields := [⟨0, 64, .rc⟩] }
def Fld.PRTC_RX_RUNT_COUNT : Field := ⟨Reg.PRTC_RX_RUNT, 0, 64⟩
def Reg.PRTC_RX_OVERSIZE : RegDesc :=
  { rid := 323, block := 14, base := 0x2000E100230, dims := [(0x400, 32)], width := 64, rst := 0x0, resetBy := .warm,
    fields := [⟨0, 64, .rc⟩] }
def Fld.PRTC_RX_OVERSIZE_COUNT : Field := ⟨Reg.PRTC_RX_OVERSIZE, 0, 64⟩
def Reg.PRTC_RX_CTRL : RegDesc :=
  { rid := 324, block := 14, base := 0x2000E100238, dims := [(0x400, 32)], width := 64, rst := 0x0, resetBy := .warm,
    fields := [⟨0, 64, .rc⟩] }
def Fld.PRTC_RX_CTRL_COUNT : Field := ⟨Reg.PRTC_RX_CTRL, 0, 64⟩
def Reg.PRTC_RX_NO_SA : RegDesc :=
  { rid := 325, block := 14, base := 0x2000E100240, dims := [(0x400, 32)], width := 64, rst := 0x0, resetBy := .warm,
    fields := [⟨0, 64, .rc⟩] }
def Fld.PRTC_RX_NO_SA_COUNT : Field := ⟨Reg.PRTC_RX_NO_SA, 0, 64⟩
def Reg.PRTC_RX_REPLAY : RegDesc :=
  { rid := 326, block := 14, base := 0x2000E100248, dims := [(0x400, 32)], width := 64, rst := 0x0, resetBy := .warm,
    fields := [⟨0, 64, .rc⟩] }
def Fld.PRTC_RX_REPLAY_COUNT : Field := ⟨Reg.PRTC_RX_REPLAY, 0, 64⟩
def Reg.PRTC_RX_UNTAGGED : RegDesc :=
  { rid := 327, block := 14, base := 0x2000E100250, dims := [(0x400, 32)], width := 64, rst := 0x0, resetBy := .warm,
    fields := [⟨0, 64, .rc⟩] }
def Fld.PRTC_RX_UNTAGGED_COUNT : Field := ⟨Reg.PRTC_RX_UNTAGGED, 0, 64⟩
def Reg.PRTC_TX_ABORT : RegDesc :=
  { rid := 328, block := 14, base := 0x2000E100258, dims := [(0x400, 32)], width := 64, rst := 0x0, resetBy := .warm,
    fields := [⟨0, 64, .rc⟩] }
def Fld.PRTC_TX_ABORT_COUNT : Field := ⟨Reg.PRTC_TX_ABORT, 0, 64⟩
def Reg.PRTC_TS_LOST : RegDesc :=
  { rid := 329, block := 14, base := 0x2000E100260, dims := [(0x400, 32)], width := 64, rst := 0x0, resetBy := .warm,
    fields := [⟨0, 64, .rc⟩] }
def Fld.PRTC_TS_LOST_COUNT : Field := ⟨Reg.PRTC_TS_LOST, 0, 64⟩
def Reg.PRTC_FEC_CORR : RegDesc :=
  { rid := 330, block := 14, base := 0x2000E000400, dims := [(0x1000, 4)], width := 64, rst := 0x0, resetBy := .warm,
    fields := [⟨0, 64, .rc⟩] }
def Fld.PRTC_FEC_CORR_COUNT : Field := ⟨Reg.PRTC_FEC_CORR, 0, 64⟩
def Reg.PRTC_FEC_UNCORR : RegDesc :=
  { rid := 331, block := 14, base := 0x2000E000408, dims := [(0x1000, 4)], width := 64, rst := 0x0, resetBy := .warm,
    fields := [⟨0, 64, .rc⟩] }
def Fld.PRTC_FEC_UNCORR_COUNT : Field := ⟨Reg.PRTC_FEC_UNCORR, 0, 64⟩
def Reg.CUEC_RX_FRAMES : RegDesc :=
  { rid := 332, block := 15, base := 0x2000F030000, dims := [(0x100, 4)], width := 64, rst := 0x0, resetBy := .warm,
    fields := [⟨0, 64, .rc⟩] }
def Fld.CUEC_RX_FRAMES_COUNT : Field := ⟨Reg.CUEC_RX_FRAMES, 0, 64⟩
def Reg.CUEC_TX_FRAMES : RegDesc :=
  { rid := 333, block := 15, base := 0x2000F030008, dims := [(0x100, 4)], width := 64, rst := 0x0, resetBy := .warm,
    fields := [⟨0, 64, .rc⟩] }
def Fld.CUEC_TX_FRAMES_COUNT : Field := ⟨Reg.CUEC_TX_FRAMES, 0, 64⟩
def Reg.CUEC_CRC_ERR : RegDesc :=
  { rid := 334, block := 15, base := 0x2000F030010, dims := [(0x100, 4)], width := 64, rst := 0x0, resetBy := .warm,
    fields := [⟨0, 64, .rc⟩] }
def Fld.CUEC_CRC_ERR_COUNT : Field := ⟨Reg.CUEC_CRC_ERR, 0, 64⟩
def Reg.CUEC_REPLAYS : RegDesc :=
  { rid := 335, block := 15, base := 0x2000F030018, dims := [(0x100, 4)], width := 64, rst := 0x0, resetBy := .warm,
    fields := [⟨0, 64, .rc⟩] }
def Fld.CUEC_REPLAYS_COUNT : Field := ⟨Reg.CUEC_REPLAYS, 0, 64⟩
def Reg.CUEC_STOMP_TX : RegDesc :=
  { rid := 336, block := 15, base := 0x2000F030020, dims := [(0x100, 4)], width := 64, rst := 0x0, resetBy := .warm,
    fields := [⟨0, 64, .rc⟩] }
def Fld.CUEC_STOMP_TX_COUNT : Field := ⟨Reg.CUEC_STOMP_TX, 0, 64⟩
def Reg.CUEC_STOMP_RX : RegDesc :=
  { rid := 337, block := 15, base := 0x2000F030028, dims := [(0x100, 4)], width := 64, rst := 0x0, resetBy := .warm,
    fields := [⟨0, 64, .rc⟩] }
def Fld.CUEC_STOMP_RX_COUNT : Field := ⟨Reg.CUEC_STOMP_RX, 0, 64⟩
def Reg.CUEC_TRANSIT_BUSY : RegDesc :=
  { rid := 338, block := 15, base := 0x2000F030030, dims := [(0x100, 4)], width := 64, rst := 0x0, resetBy := .warm,
    fields := [⟨0, 64, .rc⟩] }
def Fld.CUEC_TRANSIT_BUSY_COUNT : Field := ⟨Reg.CUEC_TRANSIT_BUSY, 0, 64⟩
def Reg.CUEC_FAILOVER_DROP : RegDesc :=
  { rid := 339, block := 15, base := 0x2000F030038, dims := [(0x100, 4)], width := 64, rst := 0x0, resetBy := .warm,
    fields := [⟨0, 64, .rc⟩] }
def Fld.CUEC_FAILOVER_DROP_COUNT : Field := ⟨Reg.CUEC_FAILOVER_DROP, 0, 64⟩
def Reg.CUEC_WRAP_DROP : RegDesc :=
  { rid := 340, block := 15, base := 0x2000F030040, dims := [(0x100, 4)], width := 64, rst := 0x0, resetBy := .warm,
    fields := [⟨0, 64, .rc⟩] }
def Fld.CUEC_WRAP_DROP_COUNT : Field := ⟨Reg.CUEC_WRAP_DROP, 0, 64⟩
def Reg.CUEC_DEADLINE_DROP : RegDesc :=
  { rid := 341, block := 15, base := 0x2000F030800, dims := [], width := 64, rst := 0x0, resetBy := .warm,
    fields := [⟨0, 64, .rc⟩] }
def Fld.CUEC_DEADLINE_DROP_COUNT : Field := ⟨Reg.CUEC_DEADLINE_DROP, 0, 64⟩
def Reg.CUEC_NO_ROUTE : RegDesc :=
  { rid := 342, block := 15, base := 0x2000F030808, dims := [], width := 64, rst := 0x0, resetBy := .warm,
    fields := [⟨0, 64, .rc⟩] }
def Fld.CUEC_NO_ROUTE_COUNT : Field := ⟨Reg.CUEC_NO_ROUTE, 0, 64⟩
def Reg.CUEC_WINDOW_STALE : RegDesc :=
  { rid := 343, block := 15, base := 0x2000F030810, dims := [], width := 64, rst := 0x0, resetBy := .warm,
    fields := [⟨0, 64, .rc⟩] }
def Fld.CUEC_WINDOW_STALE_COUNT : Field := ⟨Reg.CUEC_WINDOW_STALE, 0, 64⟩
def Reg.CUEC_WINDOW_PERM : RegDesc :=
  { rid := 344, block := 15, base := 0x2000F030818, dims := [], width := 64, rst := 0x0, resetBy := .warm,
    fields := [⟨0, 64, .rc⟩] }
def Fld.CUEC_WINDOW_PERM_COUNT : Field := ⟨Reg.CUEC_WINDOW_PERM, 0, 64⟩
def Reg.CUEC_WINDOW_BUSY : RegDesc :=
  { rid := 345, block := 15, base := 0x2000F030820, dims := [], width := 64, rst := 0x0, resetBy := .warm,
    fields := [⟨0, 64, .rc⟩] }
def Fld.CUEC_WINDOW_BUSY_COUNT : Field := ⟨Reg.CUEC_WINDOW_BUSY, 0, 64⟩
def Reg.CUEC_LATE_RESP : RegDesc :=
  { rid := 346, block := 15, base := 0x2000F030828, dims := [], width := 64, rst := 0x0, resetBy := .warm,
    fields := [⟨0, 64, .rc⟩] }
def Fld.CUEC_LATE_RESP_COUNT : Field := ⟨Reg.CUEC_LATE_RESP, 0, 64⟩

/-- The register arrays of chapter 08. -/
def Reg.ch08 : List RegDesc :=
  [Reg.PRT_LANE_CFG, Reg.PRT_PORT_CFG, Reg.PRT_MAC_STATUS, Reg.PRT_MAC_CFG, Reg.PRT_MACSEC_SCI, Reg.PRT_MACSEC_TXSA] ++
  [Reg.PRT_MACSEC_RXSA_LO, Reg.PRT_MACSEC_RXSA_HI, Reg.PRT_PTP_DELAY, Reg.PRT_TS_HEAD, Reg.PRT_TOD_ADJ, Reg.CUE_WIN_CTL] ++
  [Reg.CUE_CFG, Reg.CUE_PORT_CFG, Reg.CUE_PORT_STATUS, Reg.CUE_ROUTE, Reg.CUE_OUT, Reg.CUE_L2_DEST] ++
  [Reg.CUE_WIN_SH_W0, Reg.CUE_WIN_SH_W1, Reg.CUE_WIN_SH_W2, Reg.CUE_WIN_SH_W3, Reg.CUE_WIN_AC_W0, Reg.CUE_WIN_AC_W1] ++
  [Reg.CUE_WIN_AC_W2, Reg.CUE_WIN_AC_W3, Reg.PRT_TS_TIME, Reg.PRT_TOD_STEP, Reg.PRTC_RX_FRAMES, Reg.PRTC_RX_BYTES] ++
  [Reg.PRTC_TX_FRAMES, Reg.PRTC_TX_BYTES, Reg.PRTC_RX_FCS_ERR, Reg.PRTC_RX_RUNT, Reg.PRTC_RX_OVERSIZE, Reg.PRTC_RX_CTRL] ++
  [Reg.PRTC_RX_NO_SA, Reg.PRTC_RX_REPLAY, Reg.PRTC_RX_UNTAGGED, Reg.PRTC_TX_ABORT, Reg.PRTC_TS_LOST, Reg.PRTC_FEC_CORR] ++
  [Reg.PRTC_FEC_UNCORR, Reg.CUEC_RX_FRAMES, Reg.CUEC_TX_FRAMES, Reg.CUEC_CRC_ERR, Reg.CUEC_REPLAYS, Reg.CUEC_STOMP_TX] ++
  [Reg.CUEC_STOMP_RX, Reg.CUEC_TRANSIT_BUSY, Reg.CUEC_FAILOVER_DROP, Reg.CUEC_WRAP_DROP, Reg.CUEC_DEADLINE_DROP, Reg.CUEC_NO_ROUTE] ++
  [Reg.CUEC_WINDOW_STALE, Reg.CUEC_WINDOW_PERM, Reg.CUEC_WINDOW_BUSY, Reg.CUEC_LATE_RESP]

/-! ### Registers of chapter 09 -/

def Reg.PCI_TAG_QUOTA : RegDesc :=
  { rid := 72, block := 4, base := 0x20004010000, dims := [(0x8, 4096)], width := 64, rst := 0x1000000000, resetBy := .fundamental,
    fields := [⟨42, 14, .rw⟩, ⟨28, 14, .rw⟩, ⟨14, 14, .ro⟩, ⟨0, 14, .ro⟩] }
def Fld.PCI_TAG_QUOTA_MIN : Field := ⟨Reg.PCI_TAG_QUOTA, 42, 14⟩
def Fld.PCI_TAG_QUOTA_CAP : Field := ⟨Reg.PCI_TAG_QUOTA, 28, 14⟩
def Fld.PCI_TAG_QUOTA_USED : Field := ⟨Reg.PCI_TAG_QUOTA, 14, 14⟩
def Fld.PCI_TAG_QUOTA_QUARANTINED : Field := ⟨Reg.PCI_TAG_QUOTA, 0, 14⟩
def Reg.PCI_TAG_POOL : RegDesc :=
  { rid := 73, block := 4, base := 0x20004000100, dims := [(0x8, 2)], width := 64, rst := 0x20000000, resetBy := .fundamental,
    fields := [⟨63, 1, .w1c⟩, ⟨32, 14, .ro⟩, ⟨16, 14, .ro⟩, ⟨0, 14, .ro⟩] }
def Fld.PCI_TAG_POOL_QUOTA_REFUSED : Field := ⟨Reg.PCI_TAG_POOL, 63, 1⟩
def Fld.PCI_TAG_POOL_RESV_TOTAL : Field := ⟨Reg.PCI_TAG_POOL, 32, 14⟩
def Fld.PCI_TAG_POOL_FREE : Field := ⟨Reg.PCI_TAG_POOL, 16, 14⟩
def Fld.PCI_TAG_POOL_QUARANTINED : Field := ⟨Reg.PCI_TAG_POOL, 0, 14⟩
def Reg.PCI_LTR_CFG : RegDesc :=
  { rid := 74, block := 4, base := 0x20004000200, dims := [(0x8, 4)], width := 32, rst := 0x0, resetBy := .fundamental,
    fields := [⟨31, 1, .rw⟩, ⟨26, 3, .rw⟩, ⟨16, 10, .rw⟩, ⟨15, 1, .rw⟩, ⟨10, 3, .rw⟩, ⟨0, 10, .rw⟩] }
def Fld.PCI_LTR_CFG_SNOOP_REQ : Field := ⟨Reg.PCI_LTR_CFG, 31, 1⟩
def Fld.PCI_LTR_CFG_SNOOP_SCALE : Field := ⟨Reg.PCI_LTR_CFG, 26, 3⟩
def Fld.PCI_LTR_CFG_SNOOP_VALUE : Field := ⟨Reg.PCI_LTR_CFG, 16, 10⟩
def Fld.PCI_LTR_CFG_NS_REQ : Field := ⟨Reg.PCI_LTR_CFG, 15, 1⟩
def Fld.PCI_LTR_CFG_NS_SCALE : Field := ⟨Reg.PCI_LTR_CFG, 10, 3⟩
def Fld.PCI_LTR_CFG_NS_VALUE : Field := ⟨Reg.PCI_LTR_CFG, 0, 10⟩
def Reg.PCI_READY : RegDesc :=
  { rid := 75, block := 4, base := 0x20004000000, dims := [], width := 32, rst := 0x0, resetBy := .fundamental,
    fields := [⟨0, 4, .w1s⟩] }
def Fld.PCI_READY_CFG : Field := ⟨Reg.PCI_READY, 0, 4⟩
def Reg.PCI_STRAP : RegDesc :=
  { rid := 76, block := 4, base := 0x20004000008, dims := [], width := 32, rst := 0x0, resetBy := .fundamental,
    fields := [⟨3, 1, .ro⟩, ⟨0, 2, .ro⟩] }
def Fld.PCI_STRAP_SPLIT_INVALID : Field := ⟨Reg.PCI_STRAP, 3, 1⟩
def Fld.PCI_STRAP_SPLIT : Field := ⟨Reg.PCI_STRAP, 0, 2⟩
def Reg.PCI_SEG_STATUS : RegDesc :=
  { rid := 77, block := 4, base := 0x20004000010, dims := [(0x8, 4)], width := 32, rst := 0x0, resetBy := .fundamental,
    fields := [⟨15, 1, .ro⟩, ⟨14, 1, .ro⟩, ⟨13, 1, .ro⟩, ⟨12, 1, .ro⟩, ⟨8, 4, .ro⟩, ⟨0, 5, .ro⟩] }
def Fld.PCI_SEG_STATUS_LINK_UP : Field := ⟨Reg.PCI_SEG_STATUS, 15, 1⟩
def Fld.PCI_SEG_STATUS_FLIT : Field := ⟨Reg.PCI_SEG_STATUS, 14, 1⟩
def Fld.PCI_SEG_STATUS_PERST : Field := ⟨Reg.PCI_SEG_STATUS, 13, 1⟩
def Fld.PCI_SEG_STATUS_LEAD : Field := ⟨Reg.PCI_SEG_STATUS, 12, 1⟩
def Fld.PCI_SEG_STATUS_RATE : Field := ⟨Reg.PCI_SEG_STATUS, 8, 4⟩
def Fld.PCI_SEG_STATUS_WIDTH : Field := ⟨Reg.PCI_SEG_STATUS, 0, 5⟩
def Reg.PCIC_CTO : RegDesc :=
  { rid := 347, block := 4, base := 0x20004020000, dims := [(0x100, 4)], width := 64, rst := 0x0, resetBy := .fundamental,
    fields := [⟨0, 64, .rc⟩] }
def Fld.PCIC_CTO_COUNT : Field := ⟨Reg.PCIC_CTO, 0, 64⟩
def Reg.PCIC_LATE_CPL : RegDesc :=
  { rid := 348, block := 4, base := 0x20004020008, dims := [(0x100, 4)], width := 64, rst := 0x0, resetBy := .fundamental,
    fields := [⟨0, 64, .rc⟩] }
def Fld.PCIC_LATE_CPL_COUNT : Field := ⟨Reg.PCIC_LATE_CPL, 0, 64⟩
def Reg.PCIC_UNEXP_CPL : RegDesc :=
  { rid := 349, block := 4, base := 0x20004020010, dims := [(0x100, 4)], width := 64, rst := 0x0, resetBy := .fundamental,
    fields := [⟨0, 64, .rc⟩] }
def Fld.PCIC_UNEXP_CPL_COUNT : Field := ⟨Reg.PCIC_UNEXP_CPL, 0, 64⟩
def Reg.PCIC_CPL_ERR : RegDesc :=
  { rid := 350, block := 4, base := 0x20004020018, dims := [(0x100, 4)], width := 64, rst := 0x0, resetBy := .fundamental,
    fields := [⟨0, 64, .rc⟩] }
def Fld.PCIC_CPL_ERR_COUNT : Field := ⟨Reg.PCIC_CPL_ERR, 0, 64⟩
def Reg.PCIC_POISON_RX : RegDesc :=
  { rid := 351, block := 4, base := 0x20004020020, dims := [(0x100, 4)], width := 64, rst := 0x0, resetBy := .fundamental,
    fields := [⟨0, 64, .rc⟩] }
def Fld.PCIC_POISON_RX_COUNT : Field := ⟨Reg.PCIC_POISON_RX, 0, 64⟩
def Reg.PCIC_POISON_TX : RegDesc :=
  { rid := 352, block := 4, base := 0x20004020028, dims := [(0x100, 4)], width := 64, rst := 0x0, resetBy := .fundamental,
    fields := [⟨0, 64, .rc⟩] }
def Fld.PCIC_POISON_TX_COUNT : Field := ⟨Reg.PCIC_POISON_TX, 0, 64⟩
def Reg.PCIC_BAR_RESERVED : RegDesc :=
  { rid := 353, block := 4, base := 0x20004020030, dims := [(0x100, 4)], width := 64, rst := 0x0, resetBy := .fundamental,
    fields := [⟨0, 64, .rc⟩] }
def Fld.PCIC_BAR_RESERVED_COUNT : Field := ⟨Reg.PCIC_BAR_RESERVED, 0, 64⟩
def Reg.PCIC_BAR_BAD_SIZE : RegDesc :=
  { rid := 354, block := 4, base := 0x20004020038, dims := [(0x100, 4)], width := 64, rst := 0x0, resetBy := .fundamental,
    fields := [⟨0, 64, .rc⟩] }
def Fld.PCIC_BAR_BAD_SIZE_COUNT : Field := ⟨Reg.PCIC_BAR_BAD_SIZE, 0, 64⟩
def Reg.PCIC_DB_HELD : RegDesc :=
  { rid := 355, block := 4, base := 0x20004020040, dims := [(0x100, 4)], width := 64, rst := 0x0, resetBy := .fundamental,
    fields := [⟨0, 64, .rc⟩] }
def Fld.PCIC_DB_HELD_COUNT : Field := ⟨Reg.PCIC_DB_HELD, 0, 64⟩
def Reg.PCIC_DARK_WRITES : RegDesc :=
  { rid := 356, block := 4, base := 0x20004020048, dims := [(0x100, 4)], width := 64, rst := 0x0, resetBy := .fundamental,
    fields := [⟨0, 64, .rc⟩] }
def Fld.PCIC_DARK_WRITES_COUNT : Field := ⟨Reg.PCIC_DARK_WRITES, 0, 64⟩
def Reg.PCIC_IDE_FAIL : RegDesc :=
  { rid := 357, block := 4, base := 0x20004020050, dims := [(0x100, 4)], width := 64, rst := 0x0, resetBy := .fundamental,
    fields := [⟨0, 64, .rc⟩] }
def Fld.PCIC_IDE_FAIL_COUNT : Field := ⟨Reg.PCIC_IDE_FAIL, 0, 64⟩

/-- The register arrays of chapter 09. -/
def Reg.ch09 : List RegDesc :=
  [Reg.PCI_TAG_QUOTA, Reg.PCI_TAG_POOL, Reg.PCI_LTR_CFG, Reg.PCI_READY, Reg.PCI_STRAP, Reg.PCI_SEG_STATUS] ++
  [Reg.PCIC_CTO, Reg.PCIC_LATE_CPL, Reg.PCIC_UNEXP_CPL, Reg.PCIC_CPL_ERR, Reg.PCIC_POISON_RX, Reg.PCIC_POISON_TX] ++
  [Reg.PCIC_BAR_RESERVED, Reg.PCIC_BAR_BAD_SIZE, Reg.PCIC_DB_HELD, Reg.PCIC_DARK_WRITES, Reg.PCIC_IDE_FAIL]

/-! ### Registers of chapter 10 -/

def Reg.HQE_INST_RINGS : RegDesc :=
  { rid := 78, block := 5, base := 0x20005080000, dims := [(0x20, 4096), (0x8, 3)], width := 64, rst := 0x0, resetBy := .fundamental,
    fields := [⟨32, 16, .rw⟩, ⟨0, 9, .rw⟩] }
def Fld.HQE_INST_RINGS_BASE : Field := ⟨Reg.HQE_INST_RINGS, 32, 16⟩
def Fld.HQE_INST_RINGS_COUNT : Field := ⟨Reg.HQE_INST_RINGS, 0, 9⟩
def Reg.HQE_CFG : RegDesc :=
  { rid := 79, block := 5, base := 0x20005000000, dims := [], width := 64, rst := 0x0, resetBy := .fundamental,
    fields := [⟨32, 26, .rw⟩] }
def Fld.HQE_CFG_HOLD_BASE : Field := ⟨Reg.HQE_CFG, 32, 26⟩
def Reg.HQE_STATUS : RegDesc :=
  { rid := 80, block := 5, base := 0x20005000008, dims := [], width := 64, rst := 0x0, resetBy := .warm,
    fields := [⟨63, 1, .w1c⟩, ⟨62, 1, .w1c⟩, ⟨16, 2, .ro⟩, ⟨0, 16, .ro⟩] }
def Fld.HQE_STATUS_ENABLE_REFUSED : Field := ⟨Reg.HQE_STATUS, 63, 1⟩
def Fld.HQE_STATUS_MAP_REFUSED : Field := ⟨Reg.HQE_STATUS, 62, 1⟩
def Fld.HQE_STATUS_LAST_KIND : Field := ⟨Reg.HQE_STATUS, 16, 2⟩
def Fld.HQE_STATUS_LAST_RING : Field := ⟨Reg.HQE_STATUS, 0, 16⟩
def Reg.HQE_SQ_W0 : RegDesc :=
  { rid := 193, block := 5, base := 0x20005400000, dims := [(0x20, 65536)], width := 64, rst := 0x0, resetBy := .fundamental,
    fields := [⟨63, 1, .rw⟩, ⟨62, 1, .rw⟩, ⟨61, 1, .rw⟩, ⟨60, 1, .rw⟩, ⟨59, 1, .rw⟩, ⟨52, 4, .rw⟩, ⟨32, 18, .rw⟩, ⟨0, 16, .rw⟩] }
def Fld.HQE_SQ_W0_EN : Field := ⟨Reg.HQE_SQ_W0, 63, 1⟩
def Fld.HQE_SQ_W0_PERS : Field := ⟨Reg.HQE_SQ_W0, 62, 1⟩
def Fld.HQE_SQ_W0_ATS : Field := ⟨Reg.HQE_SQ_W0, 61, 1⟩
def Fld.HQE_SQ_W0_RO_EN : Field := ⟨Reg.HQE_SQ_W0, 60, 1⟩
def Fld.HQE_SQ_W0_COMP_META : Field := ⟨Reg.HQE_SQ_W0, 59, 1⟩
def Fld.HQE_SQ_W0_LOG2SIZE : Field := ⟨Reg.HQE_SQ_W0, 52, 4⟩
def Fld.HQE_SQ_W0_TM_QUEUE : Field := ⟨Reg.HQE_SQ_W0, 32, 18⟩
def Fld.HQE_SQ_W0_CQ : Field := ⟨Reg.HQE_SQ_W0, 0, 16⟩
def Reg.HQE_SQ_W1 : RegDesc :=
  { rid := 194, block := 5, base := 0x20005400008, dims := [(0x20, 65536)], width := 64, rst := 0x0, resetBy := .fundamental,
    fields := [⟨12, 52, .rw⟩] }
def Fld.HQE_SQ_W1_BASE : Field := ⟨Reg.HQE_SQ_W1, 12, 52⟩
def Reg.HQE_SQ_W2 : RegDesc :=
  { rid := 195, block := 5, base := 0x20005400010, dims := [(0x20, 65536)], width := 64, rst := 0x0, resetBy := .fundamental,
    fields := [⟨60, 4, .ro⟩, ⟨56, 4, .ro⟩, ⟨48, 8, .ro⟩, ⟨16, 16, .ro⟩, ⟨0, 16, .ro⟩] }
def Fld.HQE_SQ_W2_STATE : Field := ⟨Reg.HQE_SQ_W2, 60, 4⟩
def Fld.HQE_SQ_W2_CAUSE : Field := ⟨Reg.HQE_SQ_W2, 56, 4⟩
def Fld.HQE_SQ_W2_ONCHIP : Field := ⟨Reg.HQE_SQ_W2, 48, 8⟩
def Fld.HQE_SQ_W2_PRODUCER : Field := ⟨Reg.HQE_SQ_W2, 16, 16⟩
def Fld.HQE_SQ_W2_CONSUMER : Field := ⟨Reg.HQE_SQ_W2, 0, 16⟩
def Reg.HQE_SQ_W3 : RegDesc :=
  { rid := 196, block := 5, base := 0x20005400018, dims := [(0x20, 65536)], width := 64, rst := 0x0, resetBy := .fundamental,
    fields := [] }
def Reg.HQE_RQ_W0 : RegDesc :=
  { rid := 197, block := 5, base := 0x20005600000, dims := [(0x20, 65536)], width := 64, rst := 0x0, resetBy := .fundamental,
    fields := [⟨63, 1, .rw⟩, ⟨62, 1, .rw⟩, ⟨61, 1, .rw⟩, ⟨60, 1, .rw⟩, ⟨59, 1, .rw⟩, ⟨52, 4, .rw⟩, ⟨32, 18, .rw⟩, ⟨0, 16, .rw⟩] }
def Fld.HQE_RQ_W0_EN : Field := ⟨Reg.HQE_RQ_W0, 63, 1⟩
def Fld.HQE_RQ_W0_PERS : Field := ⟨Reg.HQE_RQ_W0, 62, 1⟩
def Fld.HQE_RQ_W0_ATS : Field := ⟨Reg.HQE_RQ_W0, 61, 1⟩
def Fld.HQE_RQ_W0_RO_EN : Field := ⟨Reg.HQE_RQ_W0, 60, 1⟩
def Fld.HQE_RQ_W0_COMP_META : Field := ⟨Reg.HQE_RQ_W0, 59, 1⟩
def Fld.HQE_RQ_W0_LOG2SIZE : Field := ⟨Reg.HQE_RQ_W0, 52, 4⟩
def Fld.HQE_RQ_W0_TM_QUEUE : Field := ⟨Reg.HQE_RQ_W0, 32, 18⟩
def Fld.HQE_RQ_W0_CQ : Field := ⟨Reg.HQE_RQ_W0, 0, 16⟩
def Reg.HQE_RQ_W1 : RegDesc :=
  { rid := 198, block := 5, base := 0x20005600008, dims := [(0x20, 65536)], width := 64, rst := 0x0, resetBy := .fundamental,
    fields := [⟨12, 52, .rw⟩] }
def Fld.HQE_RQ_W1_BASE : Field := ⟨Reg.HQE_RQ_W1, 12, 52⟩
def Reg.HQE_RQ_W2 : RegDesc :=
  { rid := 199, block := 5, base := 0x20005600010, dims := [(0x20, 65536)], width := 64, rst := 0x0, resetBy := .fundamental,
    fields := [⟨60, 4, .ro⟩, ⟨56, 4, .ro⟩, ⟨48, 8, .ro⟩, ⟨16, 16, .ro⟩, ⟨0, 16, .ro⟩] }
def Fld.HQE_RQ_W2_STATE : Field := ⟨Reg.HQE_RQ_W2, 60, 4⟩
def Fld.HQE_RQ_W2_CAUSE : Field := ⟨Reg.HQE_RQ_W2, 56, 4⟩
def Fld.HQE_RQ_W2_ONCHIP : Field := ⟨Reg.HQE_RQ_W2, 48, 8⟩
def Fld.HQE_RQ_W2_PRODUCER : Field := ⟨Reg.HQE_RQ_W2, 16, 16⟩
def Fld.HQE_RQ_W2_CONSUMER : Field := ⟨Reg.HQE_RQ_W2, 0, 16⟩
def Reg.HQE_RQ_W3 : RegDesc :=
  { rid := 200, block := 5, base := 0x20005600018, dims := [(0x20, 65536)], width := 64, rst := 0x0, resetBy := .fundamental,
    fields := [] }
def Reg.HQE_CQ_W0 : RegDesc :=
  { rid := 201, block := 5, base := 0x20005800000, dims := [(0x20, 65536)], width := 64, rst := 0x0, resetBy := .fundamental,
    fields := [⟨63, 1, .rw⟩, ⟨62, 1, .rw⟩, ⟨61, 1, .rw⟩, ⟨52, 4, .rw⟩, ⟨32, 11, .rw⟩, ⟨16, 16, .rw⟩] }
def Fld.HQE_CQ_W0_EN : Field := ⟨Reg.HQE_CQ_W0, 63, 1⟩
def Fld.HQE_CQ_W0_PERS : Field := ⟨Reg.HQE_CQ_W0, 62, 1⟩
def Fld.HQE_CQ_W0_ATS : Field := ⟨Reg.HQE_CQ_W0, 61, 1⟩
def Fld.HQE_CQ_W0_LOG2SIZE : Field := ⟨Reg.HQE_CQ_W0, 52, 4⟩
def Fld.HQE_CQ_W0_VECTOR : Field := ⟨Reg.HQE_CQ_W0, 32, 11⟩
def Fld.HQE_CQ_W0_FULL_TO : Field := ⟨Reg.HQE_CQ_W0, 16, 16⟩
def Reg.HQE_CQ_W1 : RegDesc :=
  { rid := 202, block := 5, base := 0x20005800008, dims := [(0x20, 65536)], width := 64, rst := 0x0, resetBy := .fundamental,
    fields := [⟨12, 52, .rw⟩] }
def Fld.HQE_CQ_W1_BASE : Field := ⟨Reg.HQE_CQ_W1, 12, 52⟩
def Reg.HQE_CQ_W2 : RegDesc :=
  { rid := 203, block := 5, base := 0x20005800010, dims := [(0x20, 65536)], width := 64, rst := 0x0, resetBy := .fundamental,
    fields := [⟨60, 4, .ro⟩, ⟨56, 4, .ro⟩, ⟨55, 1, .ro⟩, ⟨48, 7, .ro⟩, ⟨16, 16, .ro⟩, ⟨0, 16, .ro⟩] }
def Fld.HQE_CQ_W2_STATE : Field := ⟨Reg.HQE_CQ_W2, 60, 4⟩
def Fld.HQE_CQ_W2_CAUSE : Field := ⟨Reg.HQE_CQ_W2, 56, 4⟩
def Fld.HQE_CQ_W2_ARMED : Field := ⟨Reg.HQE_CQ_W2, 55, 1⟩
def Fld.HQE_CQ_W2_HELD : Field := ⟨Reg.HQE_CQ_W2, 48, 7⟩
def Fld.HQE_CQ_W2_TAIL : Field := ⟨Reg.HQE_CQ_W2, 16, 16⟩
def Fld.HQE_CQ_W2_HEAD : Field := ⟨Reg.HQE_CQ_W2, 0, 16⟩
def Reg.HQE_CQ_W3 : RegDesc :=
  { rid := 204, block := 5, base := 0x20005800018, dims := [(0x20, 65536)], width := 64, rst := 0x0, resetBy := .fundamental,
    fields := [⟨56, 8, .rw⟩, ⟨40, 16, .rw⟩] }
def Fld.HQE_CQ_W3_COUNT : Field := ⟨Reg.HQE_CQ_W3, 56, 8⟩
def Fld.HQE_CQ_W3_TIME : Field := ⟨Reg.HQE_CQ_W3, 40, 16⟩
def Reg.HQEC_DB_UNMAPPED : RegDesc :=
  { rid := 358, block := 5, base := 0x200050C0000, dims := [], width := 64, rst := 0x0, resetBy := .warm,
    fields := [⟨0, 64, .rc⟩] }
def Fld.HQEC_DB_UNMAPPED_COUNT : Field := ⟨Reg.HQEC_DB_UNMAPPED, 0, 64⟩
def Reg.HQEC_DB_STALE : RegDesc :=
  { rid := 359, block := 5, base := 0x200050C0008, dims := [], width := 64, rst := 0x0, resetBy := .warm,
    fields := [⟨0, 64, .rc⟩] }
def Fld.HQEC_DB_STALE_COUNT : Field := ⟨Reg.HQEC_DB_STALE, 0, 64⟩
def Reg.HQEC_DB_IGNORED : RegDesc :=
  { rid := 360, block := 5, base := 0x200050C0010, dims := [], width := 64, rst := 0x0, resetBy := .warm,
    fields := [⟨0, 64, .rc⟩] }
def Fld.HQEC_DB_IGNORED_COUNT : Field := ⟨Reg.HQEC_DB_IGNORED, 0, 64⟩
def Reg.HQEC_OVERRUN : RegDesc :=
  { rid := 361, block := 5, base := 0x200050C0018, dims := [], width := 64, rst := 0x0, resetBy := .warm,
    fields := [⟨0, 64, .rc⟩] }
def Fld.HQEC_OVERRUN_COUNT : Field := ⟨Reg.HQEC_OVERRUN, 0, 64⟩
def Reg.HQEC_RING_ERRORS : RegDesc :=
  { rid := 362, block := 5, base := 0x200050C0020, dims := [], width := 64, rst := 0x0, resetBy := .warm,
    fields := [⟨0, 64, .rc⟩] }
def Fld.HQEC_RING_ERRORS_COUNT : Field := ⟨Reg.HQEC_RING_ERRORS, 0, 64⟩
def Reg.HQEC_CQ_FULL : RegDesc :=
  { rid := 363, block := 5, base := 0x200050C0028, dims := [], width := 64, rst := 0x0, resetBy := .warm,
    fields := [⟨0, 64, .rc⟩] }
def Fld.HQEC_CQ_FULL_COUNT : Field := ⟨Reg.HQEC_CQ_FULL, 0, 64⟩
def Reg.HQEC_CQ_TIMEOUT : RegDesc :=
  { rid := 364, block := 5, base := 0x200050C0030, dims := [], width := 64, rst := 0x0, resetBy := .warm,
    fields := [⟨0, 64, .rc⟩] }
def Fld.HQEC_CQ_TIMEOUT_COUNT : Field := ⟨Reg.HQEC_CQ_TIMEOUT, 0, 64⟩
def Reg.HQEC_CFG_REFUSED : RegDesc :=
  { rid := 365, block := 5, base := 0x200050C0038, dims := [], width := 64, rst := 0x0, resetBy := .warm,
    fields := [⟨0, 64, .rc⟩] }
def Fld.HQEC_CFG_REFUSED_COUNT : Field := ⟨Reg.HQEC_CFG_REFUSED, 0, 64⟩
def Reg.HQEC_VECTORS : RegDesc :=
  { rid := 366, block := 5, base := 0x200050C0040, dims := [], width := 64, rst := 0x0, resetBy := .warm,
    fields := [⟨0, 64, .rc⟩] }
def Fld.HQEC_VECTORS_COUNT : Field := ⟨Reg.HQEC_VECTORS, 0, 64⟩

/-- The register arrays of chapter 10. -/
def Reg.ch10 : List RegDesc :=
  [Reg.HQE_INST_RINGS, Reg.HQE_CFG, Reg.HQE_STATUS, Reg.HQE_SQ_W0, Reg.HQE_SQ_W1, Reg.HQE_SQ_W2] ++
  [Reg.HQE_SQ_W3, Reg.HQE_RQ_W0, Reg.HQE_RQ_W1, Reg.HQE_RQ_W2, Reg.HQE_RQ_W3, Reg.HQE_CQ_W0] ++
  [Reg.HQE_CQ_W1, Reg.HQE_CQ_W2, Reg.HQE_CQ_W3, Reg.HQEC_DB_UNMAPPED, Reg.HQEC_DB_STALE, Reg.HQEC_DB_IGNORED] ++
  [Reg.HQEC_OVERRUN, Reg.HQEC_RING_ERRORS, Reg.HQEC_CQ_FULL, Reg.HQEC_CQ_TIMEOUT, Reg.HQEC_CFG_REFUSED, Reg.HQEC_VECTORS]

/-! ### Registers of chapter 11 -/

def Reg.HQE_MODE : RegDesc :=
  { rid := 81, block := 5, base := 0x20005000100, dims := [], width := 32, rst := 0x1, resetBy := .warm,
    fields := [⟨31, 1, .ro⟩, ⟨30, 1, .ro⟩, ⟨29, 1, .w1c⟩, ⟨8, 1, .rw⟩, ⟨0, 2, .rw⟩] }
def Fld.HQE_MODE_STARTED : Field := ⟨Reg.HQE_MODE, 31, 1⟩
def Fld.HQE_MODE_MODE_PENDING : Field := ⟨Reg.HQE_MODE, 30, 1⟩
def Fld.HQE_MODE_DBG_REFUSED : Field := ⟨Reg.HQE_MODE, 29, 1⟩
def Fld.HQE_MODE_DEBUG_EN : Field := ⟨Reg.HQE_MODE, 8, 1⟩
def Fld.HQE_MODE_REGIME : Field := ⟨Reg.HQE_MODE, 0, 2⟩
def Reg.HQE_PATCH_LOAD : RegDesc :=
  { rid := 82, block := 5, base := 0x20005000110, dims := [], width := 64, rst := 0x0, resetBy := .warm,
    fields := [⟨63, 1, .w1s⟩, ⟨0, 48, .rw⟩] }
def Fld.HQE_PATCH_LOAD_GO : Field := ⟨Reg.HQE_PATCH_LOAD, 63, 1⟩
def Fld.HQE_PATCH_LOAD_ADDR : Field := ⟨Reg.HQE_PATCH_LOAD, 0, 48⟩
def Reg.HQE_PATCH_STATUS : RegDesc :=
  { rid := 83, block := 5, base := 0x20005000118, dims := [], width := 64, rst := 0x0, resetBy := .warm,
    fields := [⟨63, 1, .ro⟩, ⟨62, 1, .ro⟩, ⟨48, 8, .ro⟩, ⟨32, 16, .ro⟩, ⟨0, 20, .rw⟩] }
def Fld.HQE_PATCH_STATUS_BUSY : Field := ⟨Reg.HQE_PATCH_STATUS, 63, 1⟩
def Fld.HQE_PATCH_STATUS_LOADED : Field := ⟨Reg.HQE_PATCH_STATUS, 62, 1⟩
def Fld.HQE_PATCH_STATUS_RESULT : Field := ⟨Reg.HQE_PATCH_STATUS, 48, 8⟩
def Fld.HQE_PATCH_STATUS_ROM_ID : Field := ⟨Reg.HQE_PATCH_STATUS, 32, 16⟩
def Fld.HQE_PATCH_STATUS_LEN : Field := ⟨Reg.HQE_PATCH_STATUS, 0, 20⟩
def Reg.HQE_PATCH_MATCH : RegDesc :=
  { rid := 84, block := 5, base := 0x20005001000, dims := [(0x8, 64)], width := 64, rst := 0x0, resetBy := .warm,
    fields := [⟨63, 1, .ro⟩, ⟨32, 14, .ro⟩, ⟨0, 12, .ro⟩] }
def Fld.HQE_PATCH_MATCH_VALID : Field := ⟨Reg.HQE_PATCH_MATCH, 63, 1⟩
def Fld.HQE_PATCH_MATCH_ROM_ADDR : Field := ⟨Reg.HQE_PATCH_MATCH, 32, 14⟩
def Fld.HQE_PATCH_MATCH_PATCH_ADDR : Field := ⟨Reg.HQE_PATCH_MATCH, 0, 12⟩
def Reg.HQE_UC_CTX_STATUS : RegDesc :=
  { rid := 85, block := 5, base := 0x20005010000, dims := [(0x8, 256)], width := 64, rst := 0x0, resetBy := .warm,
    fields := [⟨60, 4, .ro⟩, ⟨58, 2, .ro⟩, ⟨53, 5, .ro⟩, ⟨52, 1, .ro⟩, ⟨32, 15, .ro⟩, ⟨16, 15, .ro⟩, ⟨0, 10, .ro⟩] }
def Fld.HQE_UC_CTX_STATUS_STATE : Field := ⟨Reg.HQE_UC_CTX_STATUS, 60, 4⟩
def Fld.HQE_UC_CTX_STATUS_RESTARTS : Field := ⟨Reg.HQE_UC_CTX_STATUS, 58, 2⟩
def Fld.HQE_UC_CTX_STATUS_PENDING : Field := ⟨Reg.HQE_UC_CTX_STATUS, 53, 5⟩
def Fld.HQE_UC_CTX_STATUS_ROLLFWD_ACTIVE : Field := ⟨Reg.HQE_UC_CTX_STATUS, 52, 1⟩
def Fld.HQE_UC_CTX_STATUS_PC : Field := ⟨Reg.HQE_UC_CTX_STATUS, 32, 15⟩
def Fld.HQE_UC_CTX_STATUS_SP_PC : Field := ⟨Reg.HQE_UC_CTX_STATUS, 16, 15⟩
def Fld.HQE_UC_CTX_STATUS_SEG_COUNT : Field := ⟨Reg.HQE_UC_CTX_STATUS, 0, 10⟩
def Reg.HQE_UC_CTX_CTL : RegDesc :=
  { rid := 86, block := 5, base := 0x20005010800, dims := [(0x8, 256)], width := 32, rst := 0x0, resetBy := .warm,
    fields := [⟨2, 1, .w1s⟩, ⟨1, 1, .w1s⟩, ⟨0, 1, .w1s⟩] }
def Fld.HQE_UC_CTX_CTL_RESTART : Field := ⟨Reg.HQE_UC_CTX_CTL, 2, 1⟩
def Fld.HQE_UC_CTX_CTL_ROLLFWD : Field := ⟨Reg.HQE_UC_CTX_CTL, 1, 1⟩
def Fld.HQE_UC_CTX_CTL_RESUME : Field := ⟨Reg.HQE_UC_CTX_CTL, 0, 1⟩
def Reg.HQE_UC_FAULT : RegDesc :=
  { rid := 87, block := 5, base := 0x20005000120, dims := [], width := 64, rst := 0x0, resetBy := .fundamental,
    fields := [⟨63, 1, .w1c⟩, ⟨62, 1, .w1c⟩, ⟨56, 6, .ro⟩, ⟨48, 8, .ro⟩, ⟨32, 15, .ro⟩, ⟨0, 32, .ro⟩] }
def Fld.HQE_UC_FAULT_VALID : Field := ⟨Reg.HQE_UC_FAULT, 63, 1⟩
def Fld.HQE_UC_FAULT_OVERRUN : Field := ⟨Reg.HQE_UC_FAULT, 62, 1⟩
def Fld.HQE_UC_FAULT_CODE : Field := ⟨Reg.HQE_UC_FAULT, 56, 6⟩
def Fld.HQE_UC_FAULT_CONTEXT : Field := ⟨Reg.HQE_UC_FAULT, 48, 8⟩
def Fld.HQE_UC_FAULT_PC : Field := ⟨Reg.HQE_UC_FAULT, 32, 15⟩
def Fld.HQE_UC_FAULT_INFO : Field := ⟨Reg.HQE_UC_FAULT, 0, 32⟩
def Reg.HQE_UC_DBG : RegDesc :=
  { rid := 88, block := 5, base := 0x20005011000, dims := [(0x8, 32)], width := 32, rst := 0x0, resetBy := .warm,
    fields := [⟨31, 1, .w1s⟩, ⟨30, 1, .w1s⟩, ⟨29, 1, .w1s⟩, ⟨28, 1, .rw⟩, ⟨16, 3, .rw⟩, ⟨0, 15, .rw⟩] }
def Fld.HQE_UC_DBG_HALT : Field := ⟨Reg.HQE_UC_DBG, 31, 1⟩
def Fld.HQE_UC_DBG_STEP : Field := ⟨Reg.HQE_UC_DBG, 30, 1⟩
def Fld.HQE_UC_DBG_RUN : Field := ⟨Reg.HQE_UC_DBG, 29, 1⟩
def Fld.HQE_UC_DBG_BREAK_EN : Field := ⟨Reg.HQE_UC_DBG, 28, 1⟩
def Fld.HQE_UC_DBG_CTX : Field := ⟨Reg.HQE_UC_DBG, 16, 3⟩
def Fld.HQE_UC_DBG_BREAK_ADDR : Field := ⟨Reg.HQE_UC_DBG, 0, 15⟩
def Reg.HQEC_UC_ECC_CORR : RegDesc :=
  { rid := 367, block := 5, base := 0x200050C0100, dims := [], width := 64, rst := 0x0, resetBy := .warm,
    fields := [⟨0, 64, .rc⟩] }
def Fld.HQEC_UC_ECC_CORR_COUNT : Field := ⟨Reg.HQEC_UC_ECC_CORR, 0, 64⟩
def Reg.HQEC_UC_ECC_REPLICA : RegDesc :=
  { rid := 368, block := 5, base := 0x200050C0108, dims := [], width := 64, rst := 0x0, resetBy := .warm,
    fields := [⟨0, 64, .rc⟩] }
def Fld.HQEC_UC_ECC_REPLICA_COUNT : Field := ⟨Reg.HQEC_UC_ECC_REPLICA, 0, 64⟩
def Reg.HQEC_UC_FAULTS : RegDesc :=
  { rid := 369, block := 5, base := 0x200050C0110, dims := [], width := 64, rst := 0x0, resetBy := .warm,
    fields := [⟨0, 64, .rc⟩] }
def Fld.HQEC_UC_FAULTS_COUNT : Field := ⟨Reg.HQEC_UC_FAULTS, 0, 64⟩
def Reg.HQEC_UC_ASYNC : RegDesc :=
  { rid := 370, block := 5, base := 0x200050C0118, dims := [], width := 64, rst := 0x0, resetBy := .warm,
    fields := [⟨0, 64, .rc⟩] }
def Fld.HQEC_UC_ASYNC_COUNT : Field := ⟨Reg.HQEC_UC_ASYNC, 0, 64⟩
def Reg.HQEC_UC_ROLLFWD : RegDesc :=
  { rid := 371, block := 5, base := 0x200050C0120, dims := [], width := 64, rst := 0x0, resetBy := .warm,
    fields := [⟨0, 64, .rc⟩] }
def Fld.HQEC_UC_ROLLFWD_COUNT : Field := ⟨Reg.HQEC_UC_ROLLFWD, 0, 64⟩
def Reg.HQEC_UC_RESTARTS : RegDesc :=
  { rid := 372, block := 5, base := 0x200050C0128, dims := [], width := 64, rst := 0x0, resetBy := .warm,
    fields := [⟨0, 64, .rc⟩] }
def Fld.HQEC_UC_RESTARTS_COUNT : Field := ⟨Reg.HQEC_UC_RESTARTS, 0, 64⟩

/-- The register arrays of chapter 11. -/
def Reg.ch11 : List RegDesc :=
  [Reg.HQE_MODE, Reg.HQE_PATCH_LOAD, Reg.HQE_PATCH_STATUS, Reg.HQE_PATCH_MATCH, Reg.HQE_UC_CTX_STATUS, Reg.HQE_UC_CTX_CTL] ++
  [Reg.HQE_UC_FAULT, Reg.HQE_UC_DBG, Reg.HQEC_UC_ECC_CORR, Reg.HQEC_UC_ECC_REPLICA, Reg.HQEC_UC_FAULTS, Reg.HQEC_UC_ASYNC] ++
  [Reg.HQEC_UC_ROLLFWD, Reg.HQEC_UC_RESTARTS]

/-! ### Registers of chapter 12 -/

def Reg.PCI_MBX_CTL : RegDesc :=
  { rid := 89, block := 4, base := 0x20004000400, dims := [(0x8, 4)], width := 64, rst := 0x0, resetBy := .fundamental,
    fields := [⟨63, 1, .ro⟩, ⟨62, 1, .w1s⟩, ⟨61, 1, .w1s⟩, ⟨60, 1, .w1c⟩, ⟨32, 16, .rw⟩, ⟨24, 8, .rw⟩, ⟨0, 11, .rw⟩] }
def Fld.PCI_MBX_CTL_BUSY : Field := ⟨Reg.PCI_MBX_CTL, 63, 1⟩
def Fld.PCI_MBX_CTL_GO : Field := ⟨Reg.PCI_MBX_CTL, 62, 1⟩
def Fld.PCI_MBX_CTL_DONE : Field := ⟨Reg.PCI_MBX_CTL, 61, 1⟩
def Fld.PCI_MBX_CTL_REFUSED : Field := ⟨Reg.PCI_MBX_CTL, 60, 1⟩
def Fld.PCI_MBX_CTL_SEQ : Field := ⟨Reg.PCI_MBX_CTL, 32, 16⟩
def Fld.PCI_MBX_CTL_RESULT : Field := ⟨Reg.PCI_MBX_CTL, 24, 8⟩
def Fld.PCI_MBX_CTL_VECTOR : Field := ⟨Reg.PCI_MBX_CTL, 0, 11⟩
def Reg.PCI_HB_RANGE_LO : RegDesc :=
  { rid := 90, block := 4, base := 0x20004040000, dims := [(0x100, 4096), (0x10, 16)], width := 64, rst := 0x0, resetBy := .fundamental,
    fields := [⟨12, 52, .rw⟩, ⟨2, 1, .rw⟩, ⟨1, 1, .rw⟩, ⟨0, 1, .rw⟩] }
def Fld.PCI_HB_RANGE_LO_BASE : Field := ⟨Reg.PCI_HB_RANGE_LO, 12, 52⟩
def Fld.PCI_HB_RANGE_LO_W : Field := ⟨Reg.PCI_HB_RANGE_LO, 2, 1⟩
def Fld.PCI_HB_RANGE_LO_R : Field := ⟨Reg.PCI_HB_RANGE_LO, 1, 1⟩
def Fld.PCI_HB_RANGE_LO_VALID : Field := ⟨Reg.PCI_HB_RANGE_LO, 0, 1⟩
def Reg.PCI_HB_RANGE_HI : RegDesc :=
  { rid := 91, block := 4, base := 0x20004040008, dims := [(0x100, 4096), (0x10, 16)], width := 64, rst := 0x0, resetBy := .fundamental,
    fields := [⟨12, 52, .rw⟩] }
def Fld.PCI_HB_RANGE_HI_LIMIT : Field := ⟨Reg.PCI_HB_RANGE_HI, 12, 52⟩
def Reg.CAPO_HB_LAST : RegDesc :=
  { rid := 92, block := 7, base := 0x20007000040, dims := [], width := 64, rst := 0x0, resetBy := .fundamental,
    fields := [⟨52, 12, .ro⟩, ⟨0, 52, .ro⟩] }
def Fld.CAPO_HB_LAST_INSTANCE : Field := ⟨Reg.CAPO_HB_LAST, 52, 12⟩
def Fld.CAPO_HB_LAST_PAGE : Field := ⟨Reg.CAPO_HB_LAST, 0, 52⟩
def Reg.CAPO_CFG : RegDesc :=
  { rid := 93, block := 7, base := 0x20007000000, dims := [], width := 64, rst := 0x1F4, resetBy := .fundamental,
    fields := [⟨42, 22, .rw⟩, ⟨0, 20, .rw⟩] }
def Fld.CAPO_CFG_WORK_BASE : Field := ⟨Reg.CAPO_CFG, 42, 22⟩
def Fld.CAPO_CFG_FREEZE_TO : Field := ⟨Reg.CAPO_CFG, 0, 20⟩
def Reg.CAPO_INST_CTL : RegDesc :=
  { rid := 94, block := 7, base := 0x20007010000, dims := [(0x8, 4096)], width := 32, rst := 0x0, resetBy := .fundamental,
    fields := [⟨31, 1, .rw⟩, ⟨30, 1, .rw⟩, ⟨0, 4, .wo⟩] }
def Fld.CAPO_INST_CTL_LOG_EN : Field := ⟨Reg.CAPO_INST_CTL, 31, 1⟩
def Fld.CAPO_INST_CTL_STRICT : Field := ⟨Reg.CAPO_INST_CTL, 30, 1⟩
def Fld.CAPO_INST_CTL_OP : Field := ⟨Reg.CAPO_INST_CTL, 0, 4⟩
def Reg.CAPO_INST_STATUS : RegDesc :=
  { rid := 95, block := 7, base := 0x20007018000, dims := [(0x8, 4096)], width := 64, rst := 0x0, resetBy := .fundamental,
    fields := [⟨60, 4, .ro⟩, ⟨59, 1, .ro⟩, ⟨48, 8, .ro⟩, ⟨0, 16, .ro⟩] }
def Fld.CAPO_INST_STATUS_STATE : Field := ⟨Reg.CAPO_INST_STATUS, 60, 4⟩
def Fld.CAPO_INST_STATUS_SAVED : Field := ⟨Reg.CAPO_INST_STATUS, 59, 1⟩
def Fld.CAPO_INST_STATUS_RESULT : Field := ⟨Reg.CAPO_INST_STATUS, 48, 8⟩
def Fld.CAPO_INST_STATUS_GEN : Field := ⟨Reg.CAPO_INST_STATUS, 0, 16⟩
def Reg.CAPO_XFER_ADDR : RegDesc :=
  { rid := 96, block := 7, base := 0x20007000010, dims := [], width := 64, rst := 0x0, resetBy := .fundamental,
    fields := [⟨0, 64, .rw⟩] }
def Fld.CAPO_XFER_ADDR_ADDR : Field := ⟨Reg.CAPO_XFER_ADDR, 0, 64⟩
def Reg.CAPO_XFER_CFG : RegDesc :=
  { rid := 97, block := 7, base := 0x20007000018, dims := [], width := 64, rst := 0x0, resetBy := .fundamental,
    fields := [⟨48, 16, .rw⟩, ⟨0, 48, .rw⟩] }
def Fld.CAPO_XFER_CFG_MTK_CTX : Field := ⟨Reg.CAPO_XFER_CFG, 48, 16⟩
def Fld.CAPO_XFER_CFG_LEN : Field := ⟨Reg.CAPO_XFER_CFG, 0, 48⟩
def Reg.CAPO_XFER_STATUS : RegDesc :=
  { rid := 98, block := 7, base := 0x20007000020, dims := [], width := 64, rst := 0x0, resetBy := .fundamental,
    fields := [⟨63, 1, .ro⟩, ⟨48, 12, .ro⟩, ⟨0, 48, .ro⟩] }
def Fld.CAPO_XFER_STATUS_BUSY : Field := ⟨Reg.CAPO_XFER_STATUS, 63, 1⟩
def Fld.CAPO_XFER_STATUS_INSTANCE : Field := ⟨Reg.CAPO_XFER_STATUS, 48, 12⟩
def Fld.CAPO_XFER_STATUS_BYTES : Field := ⟨Reg.CAPO_XFER_STATUS, 0, 48⟩
def Reg.CAPO_LOG_BASE : RegDesc :=
  { rid := 99, block := 7, base := 0x20007020000, dims := [(0x10, 4096)], width := 64, rst := 0x0, resetBy := .fundamental,
    fields := [⟨12, 52, .rw⟩, ⟨0, 5, .rw⟩] }
def Fld.CAPO_LOG_BASE_BASE : Field := ⟨Reg.CAPO_LOG_BASE, 12, 52⟩
def Fld.CAPO_LOG_BASE_LOG2SIZE : Field := ⟨Reg.CAPO_LOG_BASE, 0, 5⟩
def Reg.CAPO_LOG_STATUS : RegDesc :=
  { rid := 100, block := 7, base := 0x20007020008, dims := [(0x10, 4096)], width := 64, rst := 0x0, resetBy := .fundamental,
    fields := [⟨63, 1, .w1c⟩, ⟨0, 32, .ro⟩] }
def Fld.CAPO_LOG_STATUS_LOG_LOST : Field := ⟨Reg.CAPO_LOG_STATUS, 63, 1⟩
def Fld.CAPO_LOG_STATUS_PRODUCER : Field := ⟨Reg.CAPO_LOG_STATUS, 0, 32⟩
def Reg.CAPOC_HB_REFUSED : RegDesc :=
  { rid := 373, block := 7, base := 0x20007030000, dims := [], width := 64, rst := 0x0, resetBy := .fundamental,
    fields := [⟨0, 64, .rc⟩] }
def Fld.CAPOC_HB_REFUSED_COUNT : Field := ⟨Reg.CAPOC_HB_REFUSED, 0, 64⟩
def Reg.CAPOC_ORPHAN_WRITES : RegDesc :=
  { rid := 374, block := 7, base := 0x20007030008, dims := [], width := 64, rst := 0x0, resetBy := .fundamental,
    fields := [⟨0, 64, .rc⟩] }
def Fld.CAPOC_ORPHAN_WRITES_COUNT : Field := ⟨Reg.CAPOC_ORPHAN_WRITES, 0, 64⟩
def Reg.CAPOC_ORPHAN_FRAMES : RegDesc :=
  { rid := 375, block := 7, base := 0x20007030010, dims := [], width := 64, rst := 0x0, resetBy := .fundamental,
    fields := [⟨0, 64, .rc⟩] }
def Fld.CAPOC_ORPHAN_FRAMES_COUNT : Field := ⟨Reg.CAPOC_ORPHAN_FRAMES, 0, 64⟩
def Reg.CAPOC_ISO_REFUSED : RegDesc :=
  { rid := 376, block := 7, base := 0x20007030018, dims := [], width := 64, rst := 0x0, resetBy := .fundamental,
    fields := [⟨0, 64, .rc⟩] }
def Fld.CAPOC_ISO_REFUSED_COUNT : Field := ⟨Reg.CAPOC_ISO_REFUSED, 0, 64⟩
def Reg.CAPOC_LEDGER_DB : RegDesc :=
  { rid := 377, block := 7, base := 0x20007030020, dims := [], width := 64, rst := 0x0, resetBy := .fundamental,
    fields := [⟨0, 64, .rc⟩] }
def Fld.CAPOC_LEDGER_DB_COUNT : Field := ⟨Reg.CAPOC_LEDGER_DB, 0, 64⟩
def Reg.CAPOC_FREEZE_TIMEOUTS : RegDesc :=
  { rid := 378, block := 7, base := 0x20007030028, dims := [], width := 64, rst := 0x0, resetBy := .fundamental,
    fields := [⟨0, 64, .rc⟩] }
def Fld.CAPOC_FREEZE_TIMEOUTS_COUNT : Field := ⟨Reg.CAPOC_FREEZE_TIMEOUTS, 0, 64⟩
def Reg.CAPOC_FILTER_FULL : RegDesc :=
  { rid := 379, block := 7, base := 0x20007030030, dims := [], width := 64, rst := 0x0, resetBy := .fundamental,
    fields := [⟨0, 64, .rc⟩] }
def Fld.CAPOC_FILTER_FULL_COUNT : Field := ⟨Reg.CAPOC_FILTER_FULL, 0, 64⟩

/-- The register arrays of chapter 12. -/
def Reg.ch12 : List RegDesc :=
  [Reg.PCI_MBX_CTL, Reg.PCI_HB_RANGE_LO, Reg.PCI_HB_RANGE_HI, Reg.CAPO_HB_LAST, Reg.CAPO_CFG, Reg.CAPO_INST_CTL] ++
  [Reg.CAPO_INST_STATUS, Reg.CAPO_XFER_ADDR, Reg.CAPO_XFER_CFG, Reg.CAPO_XFER_STATUS, Reg.CAPO_LOG_BASE, Reg.CAPO_LOG_STATUS] ++
  [Reg.CAPOC_HB_REFUSED, Reg.CAPOC_ORPHAN_WRITES, Reg.CAPOC_ORPHAN_FRAMES, Reg.CAPOC_ISO_REFUSED, Reg.CAPOC_LEDGER_DB, Reg.CAPOC_FREEZE_TIMEOUTS] ++
  [Reg.CAPOC_FILTER_FULL]

/-! ### Registers of chapter 13 -/

def Reg.STO_CFG : RegDesc :=
  { rid := 101, block := 8, base := 0x20008000000, dims := [], width := 64, rst := 0x7D0140A, resetBy := .fundamental,
    fields := [⟨46, 18, .rw⟩, ⟨41, 5, .rw⟩, ⟨16, 16, .rw⟩, ⟨8, 8, .rw⟩, ⟨0, 8, .rw⟩] }
def Fld.STO_CFG_STAGE_BASE : Field := ⟨Reg.STO_CFG, 46, 18⟩
def Fld.STO_CFG_STAGE_LOG2 : Field := ⟨Reg.STO_CFG, 41, 5⟩
def Fld.STO_CFG_RECONNECT_MS : Field := ⟨Reg.STO_CFG, 16, 16⟩
def Fld.STO_CFG_ACK_DELAY : Field := ⟨Reg.STO_CFG, 8, 8⟩
def Fld.STO_CFG_EXC_TIMEOUT : Field := ⟨Reg.STO_CFG, 0, 8⟩
def Reg.STO_CONN_EVENT : RegDesc :=
  { rid := 102, block := 8, base := 0x20008040000, dims := [(0x8, 256)], width := 64, rst := 0x0, resetBy := .fundamental,
    fields := [⟨0, 64, .w1c⟩] }
def Fld.STO_CONN_EVENT_FAILED : Field := ⟨Reg.STO_CONN_EVENT, 0, 64⟩
def Reg.STO_CTRL_W0 : RegDesc :=
  { rid := 205, block := 8, base := 0x20008100000, dims := [(0x40, 4096)], width := 64, rst := 0x0, resetBy := .fundamental,
    fields := [⟨63, 1, .rw⟩, ⟨0, 32, .ro⟩] }
def Fld.STO_CTRL_W0_NVME : Field := ⟨Reg.STO_CTRL_W0, 63, 1⟩
def Fld.STO_CTRL_W0_CC : Field := ⟨Reg.STO_CTRL_W0, 0, 32⟩
def Reg.STO_CTRL_W1 : RegDesc :=
  { rid := 206, block := 8, base := 0x20008100008, dims := [(0x40, 4096)], width := 64, rst := 0x0, resetBy := .fundamental,
    fields := [⟨2, 2, .rw⟩, ⟨1, 1, .rw⟩, ⟨0, 1, .rw⟩] }
def Fld.STO_CTRL_W1_SHST : Field := ⟨Reg.STO_CTRL_W1, 2, 2⟩
def Fld.STO_CTRL_W1_CFS : Field := ⟨Reg.STO_CTRL_W1, 1, 1⟩
def Fld.STO_CTRL_W1_RDY : Field := ⟨Reg.STO_CTRL_W1, 0, 1⟩
def Reg.STO_CTRL_W2 : RegDesc :=
  { rid := 207, block := 8, base := 0x20008100010, dims := [(0x40, 4096)], width := 64, rst := 0x0, resetBy := .fundamental,
    fields := [⟨0, 32, .ro⟩] }
def Fld.STO_CTRL_W2_AQA : Field := ⟨Reg.STO_CTRL_W2, 0, 32⟩
def Reg.STO_CTRL_W3 : RegDesc :=
  { rid := 208, block := 8, base := 0x20008100018, dims := [(0x40, 4096)], width := 64, rst := 0x0, resetBy := .fundamental,
    fields := [⟨0, 64, .ro⟩] }
def Fld.STO_CTRL_W3_ASQ : Field := ⟨Reg.STO_CTRL_W3, 0, 64⟩
def Reg.STO_CTRL_W4 : RegDesc :=
  { rid := 209, block := 8, base := 0x20008100020, dims := [(0x40, 4096)], width := 64, rst := 0x0, resetBy := .fundamental,
    fields := [⟨0, 64, .ro⟩] }
def Fld.STO_CTRL_W4_ACQ : Field := ⟨Reg.STO_CTRL_W4, 0, 64⟩
def Reg.STO_CTRL_W5 : RegDesc :=
  { rid := 210, block := 8, base := 0x20008100028, dims := [(0x40, 4096)], width := 64, rst := 0x0, resetBy := .fundamental,
    fields := [⟨32, 16, .ro⟩, ⟨16, 16, .ro⟩, ⟨0, 16, .ro⟩] }
def Fld.STO_CTRL_W5_ASQ_TAIL : Field := ⟨Reg.STO_CTRL_W5, 32, 16⟩
def Fld.STO_CTRL_W5_ACQ_HEAD : Field := ⟨Reg.STO_CTRL_W5, 16, 16⟩
def Fld.STO_CTRL_W5_ADM_DB : Field := ⟨Reg.STO_CTRL_W5, 0, 16⟩
def Reg.STO_CTRL_W6 : RegDesc :=
  { rid := 211, block := 8, base := 0x20008100030, dims := [(0x40, 4096)], width := 64, rst := 0x0, resetBy := .fundamental,
    fields := [⟨63, 1, .w1s⟩] }
def Fld.STO_CTRL_W6_ADM_IRQ : Field := ⟨Reg.STO_CTRL_W6, 63, 1⟩
def Reg.STO_CTRL_W7 : RegDesc :=
  { rid := 212, block := 8, base := 0x20008100038, dims := [(0x40, 4096)], width := 64, rst := 0x0, resetBy := .fundamental,
    fields := [] }
def Reg.STO_NS_W0 : RegDesc :=
  { rid := 213, block := 8, base := 0x20008400000, dims := [(0x20, 65536)], width := 64, rst := 0x0, resetBy := .fundamental,
    fields := [⟨63, 1, .rw⟩, ⟨62, 1, .rw⟩, ⟨61, 1, .rw⟩, ⟨60, 1, .rw⟩, ⟨57, 3, .rw⟩, ⟨32, 16, .rw⟩, ⟨0, 32, .rw⟩] }
def Fld.STO_NS_W0_VALID : Field := ⟨Reg.STO_NS_W0, 63, 1⟩
def Fld.STO_NS_W0_RO : Field := ⟨Reg.STO_NS_W0, 62, 1⟩
def Fld.STO_NS_W0_XTS_EN : Field := ⟨Reg.STO_NS_W0, 61, 1⟩
def Fld.STO_NS_W0_LBADS : Field := ⟨Reg.STO_NS_W0, 60, 1⟩
def Fld.STO_NS_W0_CONN_LOG2 : Field := ⟨Reg.STO_NS_W0, 57, 3⟩
def Fld.STO_NS_W0_XTS_CTX : Field := ⟨Reg.STO_NS_W0, 32, 16⟩
def Fld.STO_NS_W0_RNSID : Field := ⟨Reg.STO_NS_W0, 0, 32⟩
def Reg.STO_NS_W1 : RegDesc :=
  { rid := 214, block := 8, base := 0x20008400008, dims := [(0x20, 65536)], width := 64, rst := 0x0, resetBy := .fundamental,
    fields := [⟨48, 14, .rw⟩, ⟨0, 48, .rw⟩] }
def Fld.STO_NS_W1_CONN_BASE : Field := ⟨Reg.STO_NS_W1, 48, 14⟩
def Fld.STO_NS_W1_NSZE : Field := ⟨Reg.STO_NS_W1, 0, 48⟩
def Reg.STO_NS_W2 : RegDesc :=
  { rid := 215, block := 8, base := 0x20008400010, dims := [(0x20, 65536)], width := 64, rst := 0x0, resetBy := .fundamental,
    fields := [⟨0, 64, .rw⟩] }
def Fld.STO_NS_W2_BASE_LBA : Field := ⟨Reg.STO_NS_W2, 0, 64⟩
def Reg.STO_NS_W3 : RegDesc :=
  { rid := 216, block := 8, base := 0x20008400018, dims := [(0x20, 65536)], width := 64, rst := 0x0, resetBy := .fundamental,
    fields := [⟨0, 64, .rw⟩] }
def Fld.STO_NS_W3_TWEAK_BASE : Field := ⟨Reg.STO_NS_W3, 0, 64⟩
def Reg.STO_CONN_W0 : RegDesc :=
  { rid := 217, block := 8, base := 0x20008800000, dims := [(0x80, 16384)], width := 64, rst := 0x0, resetBy := .fundamental,
    fields := [⟨60, 4, .rw⟩, ⟨59, 1, .rw⟩, ⟨58, 1, .rw⟩, ⟨57, 1, .rw⟩, ⟨56, 1, .rw⟩, ⟨52, 4, .rw⟩, ⟨48, 4, .rw⟩, ⟨32, 12, .rw⟩, ⟨16, 16, .rw⟩] }
def Fld.STO_CONN_W0_STATE : Field := ⟨Reg.STO_CONN_W0, 60, 4⟩
def Fld.STO_CONN_W0_IPV6 : Field := ⟨Reg.STO_CONN_W0, 59, 1⟩
def Fld.STO_CONN_W0_HDGST : Field := ⟨Reg.STO_CONN_W0, 58, 1⟩
def Fld.STO_CONN_W0_DDGST : Field := ⟨Reg.STO_CONN_W0, 57, 1⟩
def Fld.STO_CONN_W0_TS_EN : Field := ⟨Reg.STO_CONN_W0, 56, 1⟩
def Fld.STO_CONN_W0_SND_WS : Field := ⟨Reg.STO_CONN_W0, 52, 4⟩
def Fld.STO_CONN_W0_RCV_WS : Field := ⟨Reg.STO_CONN_W0, 48, 4⟩
def Fld.STO_CONN_W0_OWNER : Field := ⟨Reg.STO_CONN_W0, 32, 12⟩
def Fld.STO_CONN_W0_MSS : Field := ⟨Reg.STO_CONN_W0, 16, 16⟩
def Reg.STO_CONN_W1 : RegDesc :=
  { rid := 218, block := 8, base := 0x20008800008, dims := [(0x80, 16384)], width := 64, rst := 0x0, resetBy := .fundamental,
    fields := [⟨53, 11, .rw⟩, ⟨35, 18, .rw⟩, ⟨23, 12, .rw⟩, ⟨13, 10, .rw⟩] }
def Fld.STO_CONN_W1_DISP : Field := ⟨Reg.STO_CONN_W1, 53, 11⟩
def Fld.STO_CONN_W1_TM_QUEUE : Field := ⟨Reg.STO_CONN_W1, 35, 18⟩
def Fld.STO_CONN_W1_TMPL : Field := ⟨Reg.STO_CONN_W1, 23, 12⟩
def Fld.STO_CONN_W1_QDEPTHM1 : Field := ⟨Reg.STO_CONN_W1, 13, 10⟩
def Reg.STO_CONN_W2 : RegDesc :=
  { rid := 219, block := 8, base := 0x20008800010, dims := [(0x80, 16384)], width := 64, rst := 0x0, resetBy := .fundamental,
    fields := [⟨48, 16, .rw⟩, ⟨32, 16, .rw⟩] }
def Fld.STO_CONN_W2_LPORT : Field := ⟨Reg.STO_CONN_W2, 48, 16⟩
def Fld.STO_CONN_W2_RPORT : Field := ⟨Reg.STO_CONN_W2, 32, 16⟩
def Reg.STO_CONN_W3 : RegDesc :=
  { rid := 220, block := 8, base := 0x20008800018, dims := [(0x80, 16384)], width := 64, rst := 0x0, resetBy := .fundamental,
    fields := [⟨0, 64, .rw⟩] }
def Fld.STO_CONN_W3_LADDR0 : Field := ⟨Reg.STO_CONN_W3, 0, 64⟩
def Reg.STO_CONN_W4 : RegDesc :=
  { rid := 221, block := 8, base := 0x20008800020, dims := [(0x80, 16384)], width := 64, rst := 0x0, resetBy := .fundamental,
    fields := [⟨0, 64, .rw⟩] }
def Fld.STO_CONN_W4_LADDR1 : Field := ⟨Reg.STO_CONN_W4, 0, 64⟩
def Reg.STO_CONN_W5 : RegDesc :=
  { rid := 222, block := 8, base := 0x20008800028, dims := [(0x80, 16384)], width := 64, rst := 0x0, resetBy := .fundamental,
    fields := [⟨0, 64, .rw⟩] }
def Fld.STO_CONN_W5_RADDR0 : Field := ⟨Reg.STO_CONN_W5, 0, 64⟩
def Reg.STO_CONN_W6 : RegDesc :=
  { rid := 223, block := 8, base := 0x20008800030, dims := [(0x80, 16384)], width := 64, rst := 0x0, resetBy := .fundamental,
    fields := [⟨0, 64, .rw⟩] }
def Fld.STO_CONN_W6_RADDR1 : Field := ⟨Reg.STO_CONN_W6, 0, 64⟩
def Reg.STO_CONN_W7 : RegDesc :=
  { rid := 224, block := 8, base := 0x20008800038, dims := [(0x80, 16384)], width := 64, rst := 0x0, resetBy := .fundamental,
    fields := [⟨32, 32, .rw⟩, ⟨0, 32, .rw⟩] }
def Fld.STO_CONN_W7_MAXH2CDATA : Field := ⟨Reg.STO_CONN_W7, 32, 32⟩
def Fld.STO_CONN_W7_STAGE_CAP : Field := ⟨Reg.STO_CONN_W7, 0, 32⟩
def Reg.STO_CONN_W8 : RegDesc :=
  { rid := 225, block := 8, base := 0x20008800040, dims := [(0x80, 16384)], width := 64, rst := 0x0, resetBy := .fundamental,
    fields := [⟨32, 32, .rw⟩, ⟨0, 32, .rw⟩] }
def Fld.STO_CONN_W8_SND_UNA : Field := ⟨Reg.STO_CONN_W8, 32, 32⟩
def Fld.STO_CONN_W8_SND_NXT : Field := ⟨Reg.STO_CONN_W8, 0, 32⟩
def Reg.STO_CONN_W9 : RegDesc :=
  { rid := 226, block := 8, base := 0x20008800048, dims := [(0x80, 16384)], width := 64, rst := 0x0, resetBy := .fundamental,
    fields := [⟨32, 32, .rw⟩, ⟨0, 32, .rw⟩] }
def Fld.STO_CONN_W9_RCV_NXT : Field := ⟨Reg.STO_CONN_W9, 32, 32⟩
def Fld.STO_CONN_W9_SND_WND : Field := ⟨Reg.STO_CONN_W9, 0, 32⟩
def Reg.STO_CONN_W10 : RegDesc :=
  { rid := 227, block := 8, base := 0x20008800050, dims := [(0x80, 16384)], width := 64, rst := 0x0, resetBy := .fundamental,
    fields := [⟨32, 32, .rw⟩, ⟨0, 32, .rw⟩] }
def Fld.STO_CONN_W10_CWND : Field := ⟨Reg.STO_CONN_W10, 32, 32⟩
def Fld.STO_CONN_W10_SSTHRESH : Field := ⟨Reg.STO_CONN_W10, 0, 32⟩
def Reg.STO_CONN_W11 : RegDesc :=
  { rid := 228, block := 8, base := 0x20008800058, dims := [(0x80, 16384)], width := 64, rst := 0x0, resetBy := .fundamental,
    fields := [⟨48, 16, .rw⟩, ⟨44, 4, .rw⟩, ⟨0, 32, .rw⟩] }
def Fld.STO_CONN_W11_RTO_US : Field := ⟨Reg.STO_CONN_W11, 48, 16⟩
def Fld.STO_CONN_W11_RTO_MAX : Field := ⟨Reg.STO_CONN_W11, 44, 4⟩
def Fld.STO_CONN_W11_TS_RECENT : Field := ⟨Reg.STO_CONN_W11, 0, 32⟩
def Reg.STO_CONN_W12 : RegDesc :=
  { rid := 229, block := 8, base := 0x20008800060, dims := [(0x80, 16384)], width := 64, rst := 0x0, resetBy := .fundamental,
    fields := [⟨32, 32, .rw⟩] }
def Fld.STO_CONN_W12_RCV_WND : Field := ⟨Reg.STO_CONN_W12, 32, 32⟩
def Reg.STO_CONN_W13 : RegDesc :=
  { rid := 230, block := 8, base := 0x20008800068, dims := [(0x80, 16384)], width := 64, rst := 0x0, resetBy := .fundamental,
    fields := [⟨53, 11, .ro⟩, ⟨49, 4, .ro⟩, ⟨44, 5, .ro⟩] }
def Fld.STO_CONN_W13_CMDS : Field := ⟨Reg.STO_CONN_W13, 53, 11⟩
def Fld.STO_CONN_W13_RTO_COUNT : Field := ⟨Reg.STO_CONN_W13, 49, 4⟩
def Fld.STO_CONN_W13_CAUSE : Field := ⟨Reg.STO_CONN_W13, 44, 5⟩
def Reg.STO_CONN_W14 : RegDesc :=
  { rid := 231, block := 8, base := 0x20008800070, dims := [(0x80, 16384)], width := 64, rst := 0x0, resetBy := .fundamental,
    fields := [⟨0, 32, .ro⟩] }
def Fld.STO_CONN_W14_STAGED : Field := ⟨Reg.STO_CONN_W14, 0, 32⟩
def Reg.STO_CONN_W15 : RegDesc :=
  { rid := 232, block := 8, base := 0x20008800078, dims := [(0x80, 16384)], width := 64, rst := 0x0, resetBy := .fundamental,
    fields := [] }
def Reg.STOC_CMDS_DONE : RegDesc :=
  { rid := 380, block := 8, base := 0x20008030000, dims := [], width := 64, rst := 0x0, resetBy := .fundamental,
    fields := [⟨0, 64, .rc⟩] }
def Fld.STOC_CMDS_DONE_COUNT : Field := ⟨Reg.STOC_CMDS_DONE, 0, 64⟩
def Reg.STOC_CMD_ERR : RegDesc :=
  { rid := 381, block := 8, base := 0x20008030008, dims := [], width := 64, rst := 0x0, resetBy := .fundamental,
    fields := [⟨0, 64, .rc⟩] }
def Fld.STOC_CMD_ERR_COUNT : Field := ⟨Reg.STOC_CMD_ERR, 0, 64⟩
def Reg.STOC_HDGST_ERR : RegDesc :=
  { rid := 382, block := 8, base := 0x20008030010, dims := [], width := 64, rst := 0x0, resetBy := .fundamental,
    fields := [⟨0, 64, .rc⟩] }
def Fld.STOC_HDGST_ERR_COUNT : Field := ⟨Reg.STOC_HDGST_ERR, 0, 64⟩
def Reg.STOC_DDGST_ERR : RegDesc :=
  { rid := 383, block := 8, base := 0x20008030018, dims := [], width := 64, rst := 0x0, resetBy := .fundamental,
    fields := [⟨0, 64, .rc⟩] }
def Fld.STOC_DDGST_ERR_COUNT : Field := ⟨Reg.STOC_DDGST_ERR, 0, 64⟩
def Reg.STOC_TCP_CSUM_ERR : RegDesc :=
  { rid := 384, block := 8, base := 0x20008030020, dims := [], width := 64, rst := 0x0, resetBy := .fundamental,
    fields := [⟨0, 64, .rc⟩] }
def Fld.STOC_TCP_CSUM_ERR_COUNT : Field := ⟨Reg.STOC_TCP_CSUM_ERR, 0, 64⟩
def Reg.STOC_OOO : RegDesc :=
  { rid := 385, block := 8, base := 0x20008030028, dims := [], width := 64, rst := 0x0, resetBy := .fundamental,
    fields := [⟨0, 64, .rc⟩] }
def Fld.STOC_OOO_COUNT : Field := ⟨Reg.STOC_OOO, 0, 64⟩
def Reg.STOC_DUPACK3 : RegDesc :=
  { rid := 386, block := 8, base := 0x20008030030, dims := [], width := 64, rst := 0x0, resetBy := .fundamental,
    fields := [⟨0, 64, .rc⟩] }
def Fld.STOC_DUPACK3_COUNT : Field := ⟨Reg.STOC_DUPACK3, 0, 64⟩
def Reg.STOC_RETRANSMITS : RegDesc :=
  { rid := 387, block := 8, base := 0x20008030038, dims := [], width := 64, rst := 0x0, resetBy := .fundamental,
    fields := [⟨0, 64, .rc⟩] }
def Fld.STOC_RETRANSMITS_COUNT : Field := ⟨Reg.STOC_RETRANSMITS, 0, 64⟩
def Reg.STOC_RTO : RegDesc :=
  { rid := 388, block := 8, base := 0x20008030040, dims := [], width := 64, rst := 0x0, resetBy := .fundamental,
    fields := [⟨0, 64, .rc⟩] }
def Fld.STOC_RTO_COUNT : Field := ⟨Reg.STOC_RTO, 0, 64⟩
def Reg.STOC_CONN_FAIL : RegDesc :=
  { rid := 389, block := 8, base := 0x20008030048, dims := [], width := 64, rst := 0x0, resetBy := .fundamental,
    fields := [⟨0, 64, .rc⟩] }
def Fld.STOC_CONN_FAIL_COUNT : Field := ⟨Reg.STOC_CONN_FAIL, 0, 64⟩
def Reg.STOC_HOLD_DROP : RegDesc :=
  { rid := 390, block := 8, base := 0x20008030050, dims := [], width := 64, rst := 0x0, resetBy := .fundamental,
    fields := [⟨0, 64, .rc⟩] }
def Fld.STOC_HOLD_DROP_COUNT : Field := ⟨Reg.STOC_HOLD_DROP, 0, 64⟩
def Reg.STOC_RET_STRAY : RegDesc :=
  { rid := 391, block := 8, base := 0x20008030058, dims := [], width := 64, rst := 0x0, resetBy := .fundamental,
    fields := [⟨0, 64, .rc⟩] }
def Fld.STOC_RET_STRAY_COUNT : Field := ⟨Reg.STOC_RET_STRAY, 0, 64⟩
def Reg.STOC_STAGE_WAIT : RegDesc :=
  { rid := 392, block := 8, base := 0x20008030060, dims := [], width := 64, rst := 0x0, resetBy := .fundamental,
    fields := [⟨0, 64, .rc⟩] }
def Fld.STOC_STAGE_WAIT_COUNT : Field := ⟨Reg.STOC_STAGE_WAIT, 0, 64⟩
def Reg.STOC_DETACHED : RegDesc :=
  { rid := 393, block := 8, base := 0x20008030068, dims := [], width := 64, rst := 0x0, resetBy := .fundamental,
    fields := [⟨0, 64, .rc⟩] }
def Fld.STOC_DETACHED_COUNT : Field := ⟨Reg.STOC_DETACHED, 0, 64⟩
def Reg.STOC_CFG_REFUSED : RegDesc :=
  { rid := 394, block := 8, base := 0x20008030070, dims := [], width := 64, rst := 0x0, resetBy := .fundamental,
    fields := [⟨0, 64, .rc⟩] }
def Fld.STOC_CFG_REFUSED_COUNT : Field := ⟨Reg.STOC_CFG_REFUSED, 0, 64⟩

/-- The register arrays of chapter 13. -/
def Reg.ch13 : List RegDesc :=
  [Reg.STO_CFG, Reg.STO_CONN_EVENT, Reg.STO_CTRL_W0, Reg.STO_CTRL_W1, Reg.STO_CTRL_W2, Reg.STO_CTRL_W3] ++
  [Reg.STO_CTRL_W4, Reg.STO_CTRL_W5, Reg.STO_CTRL_W6, Reg.STO_CTRL_W7, Reg.STO_NS_W0, Reg.STO_NS_W1] ++
  [Reg.STO_NS_W2, Reg.STO_NS_W3, Reg.STO_CONN_W0, Reg.STO_CONN_W1, Reg.STO_CONN_W2, Reg.STO_CONN_W3] ++
  [Reg.STO_CONN_W4, Reg.STO_CONN_W5, Reg.STO_CONN_W6, Reg.STO_CONN_W7, Reg.STO_CONN_W8, Reg.STO_CONN_W9] ++
  [Reg.STO_CONN_W10, Reg.STO_CONN_W11, Reg.STO_CONN_W12, Reg.STO_CONN_W13, Reg.STO_CONN_W14, Reg.STO_CONN_W15] ++
  [Reg.STOC_CMDS_DONE, Reg.STOC_CMD_ERR, Reg.STOC_HDGST_ERR, Reg.STOC_DDGST_ERR, Reg.STOC_TCP_CSUM_ERR, Reg.STOC_OOO] ++
  [Reg.STOC_DUPACK3, Reg.STOC_RETRANSMITS, Reg.STOC_RTO, Reg.STOC_CONN_FAIL, Reg.STOC_HOLD_DROP, Reg.STOC_RET_STRAY] ++
  [Reg.STOC_STAGE_WAIT, Reg.STOC_DETACHED, Reg.STOC_CFG_REFUSED]

/-! ### Registers of chapter 14 -/

def Reg.BOW_TIMER : RegDesc :=
  { rid := 103, block := 6, base := 0x20006001000, dims := [(0x8, 64)], width := 64, rst := 0x0, resetBy := .warm,
    fields := [⟨63, 1, .rw⟩, ⟨62, 1, .rw⟩, ⟨0, 32, .rw⟩] }
def Fld.BOW_TIMER_EN : Field := ⟨Reg.BOW_TIMER, 63, 1⟩
def Fld.BOW_TIMER_ONESHOT : Field := ⟨Reg.BOW_TIMER, 62, 1⟩
def Fld.BOW_TIMER_PERIOD : Field := ⟨Reg.BOW_TIMER, 0, 32⟩
def Reg.BOW_CH_CFG : RegDesc :=
  { rid := 104, block := 6, base := 0x20006100000, dims := [(0x100, 512)], width := 64, rst := 0x20000000, resetBy := .warm,
    fields := [⟨63, 1, .rw⟩, ⟨61, 2, .rw⟩, ⟨58, 3, .rw⟩, ⟨56, 2, .rw⟩, ⟨47, 9, .rw⟩, ⟨39, 8, .rw⟩, ⟨35, 4, .rw⟩, ⟨25, 10, .rw⟩, ⟨0, 16, .rw⟩] }
def Fld.BOW_CH_CFG_MODE : Field := ⟨Reg.BOW_CH_CFG, 63, 1⟩
def Fld.BOW_CH_CFG_PRIO : Field := ⟨Reg.BOW_CH_CFG, 61, 2⟩
def Fld.BOW_CH_CFG_RETRY : Field := ⟨Reg.BOW_CH_CFG, 58, 3⟩
def Fld.BOW_CH_CFG_TRIG_SRC : Field := ⟨Reg.BOW_CH_CFG, 56, 2⟩
def Fld.BOW_CH_CFG_TRIG_SEL : Field := ⟨Reg.BOW_CH_CFG, 47, 9⟩
def Fld.BOW_CH_CFG_BOWGO_CLU : Field := ⟨Reg.BOW_CH_CFG, 39, 8⟩
def Fld.BOW_CH_CFG_CQ : Field := ⟨Reg.BOW_CH_CFG, 35, 4⟩
def Fld.BOW_CH_CFG_BUF_CAP : Field := ⟨Reg.BOW_CH_CFG, 25, 10⟩
def Fld.BOW_CH_CFG_NOTIFY_CH : Field := ⟨Reg.BOW_CH_CFG, 0, 16⟩
def Reg.BOW_CH_CTL : RegDesc :=
  { rid := 105, block := 6, base := 0x20006100008, dims := [(0x100, 512)], width := 32, rst := 0x0, resetBy := .warm,
    fields := [⟨4, 1, .w1s⟩, ⟨3, 1, .w1s⟩, ⟨2, 1, .w1s⟩, ⟨1, 1, .w1s⟩, ⟨0, 1, .w1s⟩] }
def Fld.BOW_CH_CTL_DISARM : Field := ⟨Reg.BOW_CH_CTL, 4, 1⟩
def Fld.BOW_CH_CTL_ARM : Field := ⟨Reg.BOW_CH_CTL, 3, 1⟩
def Fld.BOW_CH_CTL_START : Field := ⟨Reg.BOW_CH_CTL, 2, 1⟩
def Fld.BOW_CH_CTL_DISABLE : Field := ⟨Reg.BOW_CH_CTL, 1, 1⟩
def Fld.BOW_CH_CTL_ENABLE : Field := ⟨Reg.BOW_CH_CTL, 0, 1⟩
def Reg.BOW_CH_STATUS : RegDesc :=
  { rid := 106, block := 6, base := 0x20006100010, dims := [(0x100, 512)], width := 64, rst := 0x0, resetBy := .warm,
    fields := [⟨60, 4, .ro⟩, ⟨56, 4, .ro⟩, ⟨55, 1, .ro⟩, ⟨54, 1, .w1c⟩, ⟨53, 1, .ro⟩, ⟨52, 1, .w1c⟩, ⟨32, 8, .ro⟩, ⟨16, 16, .ro⟩] }
def Fld.BOW_CH_STATUS_STATE : Field := ⟨Reg.BOW_CH_STATUS, 60, 4⟩
def Fld.BOW_CH_STATUS_ERR : Field := ⟨Reg.BOW_CH_STATUS, 56, 4⟩
def Fld.BOW_CH_STATUS_ARM : Field := ⟨Reg.BOW_CH_STATUS, 55, 1⟩
def Fld.BOW_CH_STATUS_SHADOW_BUSY : Field := ⟨Reg.BOW_CH_STATUS, 54, 1⟩
def Fld.BOW_CH_STATUS_ACTIVE_VALID : Field := ⟨Reg.BOW_CH_STATUS, 53, 1⟩
def Fld.BOW_CH_STATUS_ENABLE_REFUSED : Field := ⟨Reg.BOW_CH_STATUS, 52, 1⟩
def Fld.BOW_CH_STATUS_PENDING : Field := ⟨Reg.BOW_CH_STATUS, 32, 8⟩
def Fld.BOW_CH_STATUS_HSEQ : Field := ⟨Reg.BOW_CH_STATUS, 16, 16⟩
def Reg.BOW_CQ_CFG : RegDesc :=
  { rid := 107, block := 6, base := 0x20006002000, dims := [(0x10, 16)], width := 64, rst := 0x0, resetBy := .warm,
    fields := [⟨63, 1, .rw⟩, ⟨54, 4, .rw⟩, ⟨12, 36, .rw⟩] }
def Fld.BOW_CQ_CFG_EN : Field := ⟨Reg.BOW_CQ_CFG, 63, 1⟩
def Fld.BOW_CQ_CFG_LOG2SIZE : Field := ⟨Reg.BOW_CQ_CFG, 54, 4⟩
def Fld.BOW_CQ_CFG_BASE : Field := ⟨Reg.BOW_CQ_CFG, 12, 36⟩
def Reg.BOW_CQ_IDX : RegDesc :=
  { rid := 108, block := 6, base := 0x20006002008, dims := [(0x10, 16)], width := 64, rst := 0x0, resetBy := .warm,
    fields := [⟨63, 1, .w1c⟩, ⟨32, 16, .ro⟩, ⟨0, 16, .rw⟩] }
def Fld.BOW_CQ_IDX_HEAD_REFUSED : Field := ⟨Reg.BOW_CQ_IDX, 63, 1⟩
def Fld.BOW_CQ_IDX_TAIL : Field := ⟨Reg.BOW_CQ_IDX, 32, 16⟩
def Fld.BOW_CQ_IDX_HEAD : Field := ⟨Reg.BOW_CQ_IDX, 0, 16⟩
def Reg.BOW_CH_HEAD : RegDesc :=
  { rid := 233, block := 6, base := 0x20006100018, dims := [(0x100, 512)], width := 64, rst := 0x0, resetBy := .warm,
    fields := [⟨5, 43, .rw⟩] }
def Fld.BOW_CH_HEAD_HEAD : Field := ⟨Reg.BOW_CH_HEAD, 5, 43⟩
def Reg.BOW_CH_CHAIN_TAP : RegDesc :=
  { rid := 234, block := 6, base := 0x20006100020, dims := [(0x100, 512)], width := 64, rst := 0x0, resetBy := .warm,
    fields := [⟨0, 32, .rw⟩] }
def Fld.BOW_CH_CHAIN_TAP_TAP : Field := ⟨Reg.BOW_CH_CHAIN_TAP, 0, 32⟩
def Reg.BOW_CH_CUR : RegDesc :=
  { rid := 235, block := 6, base := 0x20006100028, dims := [(0x100, 512)], width := 64, rst := 0x0, resetBy := .warm,
    fields := [⟨0, 48, .ro⟩] }
def Fld.BOW_CH_CUR_CUR : Field := ⟨Reg.BOW_CH_CUR, 0, 48⟩
def Reg.BOW_CH_ERRADDR : RegDesc :=
  { rid := 236, block := 6, base := 0x20006100030, dims := [(0x100, 512)], width := 64, rst := 0x0, resetBy := .warm,
    fields := [⟨0, 64, .ro⟩] }
def Fld.BOW_CH_ERRADDR_ADDR : Field := ⟨Reg.BOW_CH_ERRADDR, 0, 64⟩
def Reg.BOW_CH_REMAIN : RegDesc :=
  { rid := 237, block := 6, base := 0x20006100038, dims := [(0x100, 512)], width := 64, rst := 0x0, resetBy := .warm,
    fields := [⟨0, 32, .ro⟩] }
def Fld.BOW_CH_REMAIN_REMAIN : Field := ⟨Reg.BOW_CH_REMAIN, 0, 32⟩
def Reg.BOW_CH_ACT_W0 : RegDesc :=
  { rid := 238, block := 6, base := 0x20006100040, dims := [(0x100, 512)], width := 64, rst := 0x0, resetBy := .warm,
    fields := [⟨0, 64, .ro⟩] }
def Fld.BOW_CH_ACT_W0_WORD : Field := ⟨Reg.BOW_CH_ACT_W0, 0, 64⟩
def Reg.BOW_CH_ACT_W1 : RegDesc :=
  { rid := 239, block := 6, base := 0x20006100048, dims := [(0x100, 512)], width := 64, rst := 0x0, resetBy := .warm,
    fields := [⟨0, 64, .ro⟩] }
def Fld.BOW_CH_ACT_W1_WORD : Field := ⟨Reg.BOW_CH_ACT_W1, 0, 64⟩
def Reg.BOW_CH_ACT_W2 : RegDesc :=
  { rid := 240, block := 6, base := 0x20006100050, dims := [(0x100, 512)], width := 64, rst := 0x0, resetBy := .warm,
    fields := [⟨0, 64, .ro⟩] }
def Fld.BOW_CH_ACT_W2_WORD : Field := ⟨Reg.BOW_CH_ACT_W2, 0, 64⟩
def Reg.BOW_CH_ACT_W3 : RegDesc :=
  { rid := 241, block := 6, base := 0x20006100058, dims := [(0x100, 512)], width := 64, rst := 0x0, resetBy := .warm,
    fields := [⟨0, 64, .ro⟩] }
def Fld.BOW_CH_ACT_W3_WORD : Field := ⟨Reg.BOW_CH_ACT_W3, 0, 64⟩
def Reg.BOW_CH_SHD_W0 : RegDesc :=
  { rid := 242, block := 6, base := 0x20006100060, dims := [(0x100, 512)], width := 64, rst := 0x0, resetBy := .warm,
    fields := [⟨0, 64, .rw⟩] }
def Fld.BOW_CH_SHD_W0_WORD : Field := ⟨Reg.BOW_CH_SHD_W0, 0, 64⟩
def Reg.BOW_CH_SHD_W1 : RegDesc :=
  { rid := 243, block := 6, base := 0x20006100068, dims := [(0x100, 512)], width := 64, rst := 0x0, resetBy := .warm,
    fields := [⟨0, 64, .rw⟩] }
def Fld.BOW_CH_SHD_W1_WORD : Field := ⟨Reg.BOW_CH_SHD_W1, 0, 64⟩
def Reg.BOW_CH_SHD_W2 : RegDesc :=
  { rid := 244, block := 6, base := 0x20006100070, dims := [(0x100, 512)], width := 64, rst := 0x0, resetBy := .warm,
    fields := [⟨0, 64, .rw⟩] }
def Fld.BOW_CH_SHD_W2_WORD : Field := ⟨Reg.BOW_CH_SHD_W2, 0, 64⟩
def Reg.BOW_CH_SHD_W3 : RegDesc :=
  { rid := 245, block := 6, base := 0x20006100078, dims := [(0x100, 512)], width := 64, rst := 0x0, resetBy := .warm,
    fields := [⟨0, 64, .rw⟩] }
def Fld.BOW_CH_SHD_W3_WORD : Field := ⟨Reg.BOW_CH_SHD_W3, 0, 64⟩
def Reg.BOWC_BYTES_READ : RegDesc :=
  { rid := 395, block := 6, base := 0x20006030000, dims := [], width := 64, rst := 0x0, resetBy := .warm,
    fields := [⟨0, 64, .rc⟩] }
def Fld.BOWC_BYTES_READ_COUNT : Field := ⟨Reg.BOWC_BYTES_READ, 0, 64⟩
def Reg.BOWC_BYTES_WRITTEN : RegDesc :=
  { rid := 396, block := 6, base := 0x20006030008, dims := [], width := 64, rst := 0x0, resetBy := .warm,
    fields := [⟨0, 64, .rc⟩] }
def Fld.BOWC_BYTES_WRITTEN_COUNT : Field := ⟨Reg.BOWC_BYTES_WRITTEN, 0, 64⟩
def Reg.BOWC_BLOCKS : RegDesc :=
  { rid := 397, block := 6, base := 0x20006030010, dims := [], width := 64, rst := 0x0, resetBy := .warm,
    fields := [⟨0, 64, .rc⟩] }
def Fld.BOWC_BLOCKS_COUNT : Field := ⟨Reg.BOWC_BLOCKS, 0, 64⟩
def Reg.BOWC_RETRIES : RegDesc :=
  { rid := 398, block := 6, base := 0x20006030018, dims := [], width := 64, rst := 0x0, resetBy := .warm,
    fields := [⟨0, 64, .rc⟩] }
def Fld.BOWC_RETRIES_COUNT : Field := ⟨Reg.BOWC_RETRIES, 0, 64⟩
def Reg.BOWC_BUS_ERR : RegDesc :=
  { rid := 399, block := 6, base := 0x20006030020, dims := [], width := 64, rst := 0x0, resetBy := .warm,
    fields := [⟨0, 64, .rc⟩] }
def Fld.BOWC_BUS_ERR_COUNT : Field := ⟨Reg.BOWC_BUS_ERR, 0, 64⟩
def Reg.BOWC_ORPHANED : RegDesc :=
  { rid := 400, block := 6, base := 0x20006030028, dims := [], width := 64, rst := 0x0, resetBy := .warm,
    fields := [⟨0, 64, .rc⟩] }
def Fld.BOWC_ORPHANED_COUNT : Field := ⟨Reg.BOWC_ORPHANED, 0, 64⟩
def Reg.BOWC_TRIG_LOST : RegDesc :=
  { rid := 401, block := 6, base := 0x20006030030, dims := [], width := 64, rst := 0x0, resetBy := .warm,
    fields := [⟨0, 64, .rc⟩] }
def Fld.BOWC_TRIG_LOST_COUNT : Field := ⟨Reg.BOWC_TRIG_LOST, 0, 64⟩
def Reg.BOWC_TRIG_DROPPED : RegDesc :=
  { rid := 402, block := 6, base := 0x20006030038, dims := [], width := 64, rst := 0x0, resetBy := .warm,
    fields := [⟨0, 64, .rc⟩] }
def Fld.BOWC_TRIG_DROPPED_COUNT : Field := ⟨Reg.BOWC_TRIG_DROPPED, 0, 64⟩
def Reg.BOWC_CQ_STALL : RegDesc :=
  { rid := 403, block := 6, base := 0x20006030040, dims := [], width := 64, rst := 0x0, resetBy := .warm,
    fields := [⟨0, 64, .rc⟩] }
def Fld.BOWC_CQ_STALL_COUNT : Field := ⟨Reg.BOWC_CQ_STALL, 0, 64⟩
def Reg.BOWC_CQ_OFF : RegDesc :=
  { rid := 404, block := 6, base := 0x20006030048, dims := [], width := 64, rst := 0x0, resetBy := .warm,
    fields := [⟨0, 64, .rc⟩] }
def Fld.BOWC_CQ_OFF_COUNT : Field := ⟨Reg.BOWC_CQ_OFF, 0, 64⟩
def Reg.BOWC_CFG_REFUSED : RegDesc :=
  { rid := 405, block := 6, base := 0x20006030050, dims := [], width := 64, rst := 0x0, resetBy := .warm,
    fields := [⟨0, 64, .rc⟩] }
def Fld.BOWC_CFG_REFUSED_COUNT : Field := ⟨Reg.BOWC_CFG_REFUSED, 0, 64⟩

/-- The register arrays of chapter 14. -/
def Reg.ch14 : List RegDesc :=
  [Reg.BOW_TIMER, Reg.BOW_CH_CFG, Reg.BOW_CH_CTL, Reg.BOW_CH_STATUS, Reg.BOW_CQ_CFG, Reg.BOW_CQ_IDX] ++
  [Reg.BOW_CH_HEAD, Reg.BOW_CH_CHAIN_TAP, Reg.BOW_CH_CUR, Reg.BOW_CH_ERRADDR, Reg.BOW_CH_REMAIN, Reg.BOW_CH_ACT_W0] ++
  [Reg.BOW_CH_ACT_W1, Reg.BOW_CH_ACT_W2, Reg.BOW_CH_ACT_W3, Reg.BOW_CH_SHD_W0, Reg.BOW_CH_SHD_W1, Reg.BOW_CH_SHD_W2] ++
  [Reg.BOW_CH_SHD_W3, Reg.BOWC_BYTES_READ, Reg.BOWC_BYTES_WRITTEN, Reg.BOWC_BLOCKS, Reg.BOWC_RETRIES, Reg.BOWC_BUS_ERR] ++
  [Reg.BOWC_ORPHANED, Reg.BOWC_TRIG_LOST, Reg.BOWC_TRIG_DROPPED, Reg.BOWC_CQ_STALL, Reg.BOWC_CQ_OFF, Reg.BOWC_CFG_REFUSED]

/-! ### Registers of chapter 15 -/

def Reg.ICU_CFG : RegDesc :=
  { rid := 109, block := 2, base := 0x20002000000, dims := [], width := 32, rst := 0x14, resetBy := .warm,
    fields := [⟨0, 16, .rw⟩] }
def Fld.ICU_CFG_REDIRECT_HOLD : Field := ⟨Reg.ICU_CFG, 0, 16⟩
def Reg.ICU_SRC_CFG : RegDesc :=
  { rid := 110, block := 2, base := 0x20002010000, dims := [(0x8, 2048)], width := 32, rst := 0x3F000000, resetBy := .warm,
    fields := [⟨31, 1, .rw⟩, ⟨30, 1, .rw⟩, ⟨24, 6, .rw⟩, ⟨16, 4, .rw⟩, ⟨8, 4, .rw⟩] }
def Fld.ICU_SRC_CFG_EN : Field := ⟨Reg.ICU_SRC_CFG, 31, 1⟩
def Fld.ICU_SRC_CFG_WAKE_EN : Field := ⟨Reg.ICU_SRC_CFG, 30, 1⟩
def Fld.ICU_SRC_CFG_PRIO : Field := ⟨Reg.ICU_SRC_CFG, 24, 6⟩
def Fld.ICU_SRC_CFG_TARGET : Field := ⟨Reg.ICU_SRC_CFG, 16, 4⟩
def Fld.ICU_SRC_CFG_FALLBACK : Field := ⟨Reg.ICU_SRC_CFG, 8, 4⟩
def Reg.ICU_SRC_STATE : RegDesc :=
  { rid := 111, block := 2, base := 0x20002020000, dims := [(0x8, 2048)], width := 32, rst := 0x0, resetBy := .fundamental,
    fields := [⟨31, 1, .w1c⟩, ⟨30, 1, .ro⟩, ⟨29, 1, .ro⟩, ⟨28, 1, .ro⟩, ⟨27, 1, .ro⟩, ⟨16, 4, .ro⟩, ⟨0, 1, .w1s⟩] }
def Fld.ICU_SRC_STATE_PENDING : Field := ⟨Reg.ICU_SRC_STATE, 31, 1⟩
def Fld.ICU_SRC_STATE_ACTIVE : Field := ⟨Reg.ICU_SRC_STATE, 30, 1⟩
def Fld.ICU_SRC_STATE_DELIVERED : Field := ⟨Reg.ICU_SRC_STATE, 29, 1⟩
def Fld.ICU_SRC_STATE_HOLDING : Field := ⟨Reg.ICU_SRC_STATE, 28, 1⟩
def Fld.ICU_SRC_STATE_LATCHED : Field := ⟨Reg.ICU_SRC_STATE, 27, 1⟩
def Fld.ICU_SRC_STATE_ROUTED : Field := ⟨Reg.ICU_SRC_STATE, 16, 4⟩
def Fld.ICU_SRC_STATE_SET : Field := ⟨Reg.ICU_SRC_STATE, 0, 1⟩
def Reg.ICU_CLAIM : RegDesc :=
  { rid := 112, block := 2, base := 0x20002040000, dims := [(0x100, 16)], width := 32, rst := 0x80000000, resetBy := .never,
    fields := [⟨31, 1, .rc⟩, ⟨24, 6, .rc⟩, ⟨0, 11, .rc⟩] }
def Fld.ICU_CLAIM_NONE : Field := ⟨Reg.ICU_CLAIM, 31, 1⟩
def Fld.ICU_CLAIM_PRIO : Field := ⟨Reg.ICU_CLAIM, 24, 6⟩
def Fld.ICU_CLAIM_SOURCE : Field := ⟨Reg.ICU_CLAIM, 0, 11⟩
def Reg.ICU_EOI : RegDesc :=
  { rid := 113, block := 2, base := 0x20002040008, dims := [(0x100, 16)], width := 32, rst := 0x0, resetBy := .warm,
    fields := [⟨0, 11, .wo⟩] }
def Fld.ICU_EOI_SOURCE : Field := ⟨Reg.ICU_EOI, 0, 11⟩
def Reg.ICU_CORE_STATUS : RegDesc :=
  { rid := 114, block := 2, base := 0x20002040010, dims := [(0x100, 16)], width := 64, rst := 0x400000000000, resetBy := .warm,
    fields := [⟨63, 1, .w1c⟩, ⟨62, 1, .ro⟩, ⟨52, 5, .ro⟩, ⟨40, 7, .ro⟩, ⟨16, 11, .ro⟩, ⟨0, 11, .ro⟩] }
def Fld.ICU_CORE_STATUS_PSF : Field := ⟨Reg.ICU_CORE_STATUS, 63, 1⟩
def Fld.ICU_CORE_STATUS_AWAKE : Field := ⟨Reg.ICU_CORE_STATUS, 62, 1⟩
def Fld.ICU_CORE_STATUS_DEPTH : Field := ⟨Reg.ICU_CORE_STATUS, 52, 5⟩
def Fld.ICU_CORE_STATUS_RUNNING_PRIO : Field := ⟨Reg.ICU_CORE_STATUS, 40, 7⟩
def Fld.ICU_CORE_STATUS_PSF_EOI : Field := ⟨Reg.ICU_CORE_STATUS, 16, 11⟩
def Fld.ICU_CORE_STATUS_TOP_SOURCE : Field := ⟨Reg.ICU_CORE_STATUS, 0, 11⟩
def Reg.ICU_STACK : RegDesc :=
  { rid := 115, block := 2, base := 0x20002040040, dims := [(0x100, 16), (0x8, 16)], width := 32, rst := 0x0, resetBy := .warm,
    fields := [⟨31, 1, .ro⟩, ⟨24, 6, .ro⟩, ⟨0, 11, .ro⟩] }
def Fld.ICU_STACK_VALID : Field := ⟨Reg.ICU_STACK, 31, 1⟩
def Fld.ICU_STACK_PRIO : Field := ⟨Reg.ICU_STACK, 24, 6⟩
def Fld.ICU_STACK_SOURCE : Field := ⟨Reg.ICU_STACK, 0, 11⟩
def Reg.ICUC_CLAIMS : RegDesc :=
  { rid := 406, block := 2, base := 0x20002050000, dims := [], width := 64, rst := 0x0, resetBy := .warm,
    fields := [⟨0, 64, .rc⟩] }
def Fld.ICUC_CLAIMS_COUNT : Field := ⟨Reg.ICUC_CLAIMS, 0, 64⟩
def Reg.ICUC_SPURIOUS : RegDesc :=
  { rid := 407, block := 2, base := 0x20002050008, dims := [], width := 64, rst := 0x0, resetBy := .warm,
    fields := [⟨0, 64, .rc⟩] }
def Fld.ICUC_SPURIOUS_COUNT : Field := ⟨Reg.ICUC_SPURIOUS, 0, 64⟩
def Reg.ICUC_RETRACTS : RegDesc :=
  { rid := 408, block := 2, base := 0x20002050010, dims := [], width := 64, rst := 0x0, resetBy := .warm,
    fields := [⟨0, 64, .rc⟩] }
def Fld.ICUC_RETRACTS_COUNT : Field := ⟨Reg.ICUC_RETRACTS, 0, 64⟩
def Reg.ICUC_REDIRECTS : RegDesc :=
  { rid := 409, block := 2, base := 0x20002050018, dims := [], width := 64, rst := 0x0, resetBy := .warm,
    fields := [⟨0, 64, .rc⟩] }
def Fld.ICUC_REDIRECTS_COUNT : Field := ⟨Reg.ICUC_REDIRECTS, 0, 64⟩
def Reg.ICUC_WAKES : RegDesc :=
  { rid := 410, block := 2, base := 0x20002050020, dims := [], width := 64, rst := 0x0, resetBy := .warm,
    fields := [⟨0, 64, .rc⟩] }
def Fld.ICUC_WAKES_COUNT : Field := ⟨Reg.ICUC_WAKES, 0, 64⟩
def Reg.ICUC_PSF : RegDesc :=
  { rid := 411, block := 2, base := 0x20002050028, dims := [], width := 64, rst := 0x0, resetBy := .warm,
    fields := [⟨0, 64, .rc⟩] }
def Fld.ICUC_PSF_COUNT : Field := ⟨Reg.ICUC_PSF, 0, 64⟩

/-- The register arrays of chapter 15. -/
def Reg.ch15 : List RegDesc :=
  [Reg.ICU_CFG, Reg.ICU_SRC_CFG, Reg.ICU_SRC_STATE, Reg.ICU_CLAIM, Reg.ICU_EOI, Reg.ICU_CORE_STATUS] ++
  [Reg.ICU_STACK, Reg.ICUC_CLAIMS, Reg.ICUC_SPURIOUS, Reg.ICUC_RETRACTS, Reg.ICUC_REDIRECTS, Reg.ICUC_WAKES] ++
  [Reg.ICUC_PSF]

/-! ### Registers of chapter 16 -/

def Reg.PWR_CFG : RegDesc :=
  { rid := 116, block := 1, base := 0x20001000000, dims := [], width := 64, rst := 0x0, resetBy := .fundamental,
    fields := [⟨63, 1, .rw⟩, ⟨28, 20, .rw⟩] }
def Fld.PWR_CFG_GOV_EN : Field := ⟨Reg.PWR_CFG, 63, 1⟩
def Fld.PWR_CFG_SAVE_BASE : Field := ⟨Reg.PWR_CFG, 28, 20⟩
def Reg.PWR_INST_BUD : RegDesc :=
  { rid := 117, block := 1, base := 0x20001010000, dims := [(0x8, 4096)], width := 32, rst := 0xFFF00000, resetBy := .fundamental,
    fields := [⟨28, 4, .rw⟩, ⟨20, 8, .rw⟩, ⟨0, 16, .rw⟩] }
def Fld.PWR_INST_BUD_PORTS : Field := ⟨Reg.PWR_INST_BUD, 28, 4⟩
def Fld.PWR_INST_BUD_CLUS : Field := ⟨Reg.PWR_INST_BUD, 20, 8⟩
def Fld.PWR_INST_BUD_LATBUD : Field := ⟨Reg.PWR_INST_BUD, 0, 16⟩
def Reg.PWR_DOM_CFG : RegDesc :=
  { rid := 118, block := 1, base := 0x20001020000, dims := [(0x8, 34)], width := 64, rst := 0x2F00FFFF0000000A, resetBy := .fundamental,
    fields := [⟨63, 1, .rw⟩, ⟨60, 3, .rw⟩, ⟨56, 4, .rw⟩, ⟨32, 16, .rw⟩, ⟨0, 16, .rw⟩] }
def Fld.PWR_DOM_CFG_AUTO : Field := ⟨Reg.PWR_DOM_CFG, 63, 1⟩
def Fld.PWR_DOM_CFG_MAX_DEPTH : Field := ⟨Reg.PWR_DOM_CFG, 60, 3⟩
def Fld.PWR_DOM_CFG_WAKE_EN : Field := ⟨Reg.PWR_DOM_CFG, 56, 4⟩
def Fld.PWR_DOM_CFG_BUDGET_CAP : Field := ⟨Reg.PWR_DOM_CFG, 32, 16⟩
def Fld.PWR_DOM_CFG_FIXED : Field := ⟨Reg.PWR_DOM_CFG, 0, 16⟩
def Reg.PWR_DOM_CTL : RegDesc :=
  { rid := 119, block := 1, base := 0x20001021000, dims := [(0x8, 34)], width := 32, rst := 0x0, resetBy := .fundamental,
    fields := [⟨31, 1, .w1s⟩, ⟨30, 1, .w1s⟩, ⟨0, 3, .rw⟩] }
def Fld.PWR_DOM_CTL_WAKE : Field := ⟨Reg.PWR_DOM_CTL, 31, 1⟩
def Fld.PWR_DOM_CTL_REQUEST : Field := ⟨Reg.PWR_DOM_CTL, 30, 1⟩
def Fld.PWR_DOM_CTL_REQ_DEPTH : Field := ⟨Reg.PWR_DOM_CTL, 0, 3⟩
def Reg.PWR_DOM_STATUS : RegDesc :=
  { rid := 120, block := 1, base := 0x20001022000, dims := [(0x8, 34)], width := 64, rst := 0xFFFF000000, resetBy := .fundamental,
    fields := [⟨61, 3, .ro⟩, ⟨58, 3, .ro⟩, ⟨55, 3, .ro⟩, ⟨52, 3, .ro⟩, ⟨48, 4, .ro⟩, ⟨40, 8, .ro⟩, ⟨24, 16, .ro⟩] }
def Fld.PWR_DOM_STATUS_DEPTH : Field := ⟨Reg.PWR_DOM_STATUS, 61, 3⟩
def Fld.PWR_DOM_STATUS_ALLOWED : Field := ⟨Reg.PWR_DOM_STATUS, 58, 3⟩
def Fld.PWR_DOM_STATUS_LIMIT : Field := ⟨Reg.PWR_DOM_STATUS, 55, 3⟩
def Fld.PWR_DOM_STATUS_PHASE : Field := ⟨Reg.PWR_DOM_STATUS, 52, 3⟩
def Fld.PWR_DOM_STATUS_LAST_RESULT : Field := ⟨Reg.PWR_DOM_STATUS, 48, 4⟩
def Fld.PWR_DOM_STATUS_LOAD : Field := ⟨Reg.PWR_DOM_STATUS, 40, 8⟩
def Fld.PWR_DOM_STATUS_BUDGET : Field := ⟨Reg.PWR_DOM_STATUS, 24, 16⟩
def Reg.PWR_THERMAL : RegDesc :=
  { rid := 256, block := 1, base := 0x20001000100, dims := [], width := 64, rst := 0x0, resetBy := .fundamental,
    fields := [⟨48, 16, .ro⟩, ⟨46, 2, .ro⟩, ⟨0, 32, .ro⟩] }
def Fld.PWR_THERMAL_TJ : Field := ⟨Reg.PWR_THERMAL, 48, 16⟩
def Fld.PWR_THERMAL_LEVEL : Field := ⟨Reg.PWR_THERMAL, 46, 2⟩
def Fld.PWR_THERMAL_ENTRIES : Field := ⟨Reg.PWR_THERMAL, 0, 32⟩
def Reg.PWR_AVS : RegDesc :=
  { rid := 257, block := 1, base := 0x20001000200, dims := [], width := 64, rst := 0x0, resetBy := .fundamental,
    fields := [⟨54, 10, .ro⟩, ⟨51, 3, .ro⟩] }
def Fld.PWR_AVS_MV : Field := ⟨Reg.PWR_AVS, 54, 10⟩
def Fld.PWR_AVS_ENTRY : Field := ⟨Reg.PWR_AVS, 51, 3⟩
def Reg.PWR_RAIL : RegDesc :=
  { rid := 258, block := 1, base := 0x20001000400, dims := [(0x8, 7)], width := 64, rst := 0x0, resetBy := .fundamental,
    fields := [⟨32, 32, .ro⟩, ⟨16, 16, .ro⟩] }
def Fld.PWR_RAIL_MW : Field := ⟨Reg.PWR_RAIL, 32, 32⟩
def Fld.PWR_RAIL_MV : Field := ⟨Reg.PWR_RAIL, 16, 16⟩
def Reg.PWR_TOTAL : RegDesc :=
  { rid := 259, block := 1, base := 0x20001000440, dims := [], width := 64, rst := 0x0, resetBy := .fundamental,
    fields := [⟨0, 32, .ro⟩] }
def Fld.PWR_TOTAL_MW : Field := ⟨Reg.PWR_TOTAL, 0, 32⟩
def Reg.PWR_RESIDENCY : RegDesc :=
  { rid := 260, block := 1, base := 0x20001030000, dims := [(0x40, 34), (0x8, 5)], width := 64, rst := 0x0, resetBy := .fundamental,
    fields := [⟨0, 64, .ro⟩] }
def Fld.PWR_RESIDENCY_US : Field := ⟨Reg.PWR_RESIDENCY, 0, 64⟩
def Reg.PWRC_ABORTS : RegDesc :=
  { rid := 412, block := 1, base := 0x20001040000, dims := [], width := 64, rst := 0x0, resetBy := .fundamental,
    fields := [⟨0, 64, .rc⟩] }
def Fld.PWRC_ABORTS_COUNT : Field := ⟨Reg.PWRC_ABORTS, 0, 64⟩
def Reg.PWRC_RESTORE_ERR : RegDesc :=
  { rid := 413, block := 1, base := 0x20001040008, dims := [], width := 64, rst := 0x0, resetBy := .fundamental,
    fields := [⟨0, 64, .rc⟩] }
def Fld.PWRC_RESTORE_ERR_COUNT : Field := ⟨Reg.PWRC_RESTORE_ERR, 0, 64⟩
def Reg.PWRC_AVS_NAK : RegDesc :=
  { rid := 414, block := 1, base := 0x20001040010, dims := [], width := 64, rst := 0x0, resetBy := .fundamental,
    fields := [⟨0, 64, .rc⟩] }
def Fld.PWRC_AVS_NAK_COUNT : Field := ⟨Reg.PWRC_AVS_NAK, 0, 64⟩

/-- The register arrays of chapter 16. -/
def Reg.ch16 : List RegDesc :=
  [Reg.PWR_CFG, Reg.PWR_INST_BUD, Reg.PWR_DOM_CFG, Reg.PWR_DOM_CTL, Reg.PWR_DOM_STATUS, Reg.PWR_THERMAL] ++
  [Reg.PWR_AVS, Reg.PWR_RAIL, Reg.PWR_TOTAL, Reg.PWR_RESIDENCY, Reg.PWRC_ABORTS, Reg.PWRC_RESTORE_ERR] ++
  [Reg.PWRC_AVS_NAK]

/-! ### Registers of chapter 17 -/

def Reg.SP_BOOT_STATUS : RegDesc :=
  { rid := 121, block := 0, base := 0x20000000000, dims := [], width := 64, rst := 0x1010000000000, resetBy := .warm,
    fields := [⟨60, 4, .ro⟩, ⟨59, 1, .ro⟩, ⟨48, 8, .ro⟩, ⟨40, 8, .ro⟩, ⟨16, 16, .ro⟩, ⟨0, 16, .ro⟩] }
def Fld.SP_BOOT_STATUS_PHASE : Field := ⟨Reg.SP_BOOT_STATUS, 60, 4⟩
def Fld.SP_BOOT_STATUS_SLOT : Field := ⟨Reg.SP_BOOT_STATUS, 59, 1⟩
def Fld.SP_BOOT_STATUS_RESULT_A : Field := ⟨Reg.SP_BOOT_STATUS, 48, 8⟩
def Fld.SP_BOOT_STATUS_RESULT_B : Field := ⟨Reg.SP_BOOT_STATUS, 40, 8⟩
def Fld.SP_BOOT_STATUS_SVN : Field := ⟨Reg.SP_BOOT_STATUS, 16, 16⟩
def Fld.SP_BOOT_STATUS_ELAPSED : Field := ⟨Reg.SP_BOOT_STATUS, 0, 16⟩
def Reg.SP_CORE_RELEASE : RegDesc :=
  { rid := 122, block := 0, base := 0x20000000008, dims := [], width := 64, rst := 0x0, resetBy := .warm,
    fields := [⟨48, 16, .w1s⟩, ⟨0, 48, .rw⟩] }
def Fld.SP_CORE_RELEASE_RELEASE : Field := ⟨Reg.SP_CORE_RELEASE, 48, 16⟩
def Fld.SP_CORE_RELEASE_ENTRY : Field := ⟨Reg.SP_CORE_RELEASE, 0, 48⟩
def Reg.SP_RESET_CAUSE : RegDesc :=
  { rid := 123, block := 0, base := 0x20000000010, dims := [], width := 64, rst := 0x1, resetBy := .aon,
    fields := [⟨48, 16, .ro⟩, ⟨20, 4, .ro⟩, ⟨6, 1, .w1c⟩, ⟨5, 1, .w1c⟩, ⟨4, 1, .w1c⟩, ⟨3, 1, .w1c⟩, ⟨2, 1, .w1c⟩, ⟨1, 1, .w1c⟩, ⟨0, 1, .w1c⟩] }
def Fld.SP_RESET_CAUSE_WARM_COUNT : Field := ⟨Reg.SP_RESET_CAUSE, 48, 16⟩
def Fld.SP_RESET_CAUSE_LAST : Field := ⟨Reg.SP_RESET_CAUSE, 20, 4⟩
def Fld.SP_RESET_CAUSE_WARM_ESCALATED : Field := ⟨Reg.SP_RESET_CAUSE, 6, 1⟩
def Fld.SP_RESET_CAUSE_WARM_SP : Field := ⟨Reg.SP_RESET_CAUSE, 5, 1⟩
def Fld.SP_RESET_CAUSE_WARM_FW : Field := ⟨Reg.SP_RESET_CAUSE, 4, 1⟩
def Fld.SP_RESET_CAUSE_CLOCK_FAULT : Field := ⟨Reg.SP_RESET_CAUSE, 3, 1⟩
def Fld.SP_RESET_CAUSE_SOUNDPOST : Field := ⟨Reg.SP_RESET_CAUSE, 2, 1⟩
def Fld.SP_RESET_CAUSE_PERST0 : Field := ⟨Reg.SP_RESET_CAUSE, 1, 1⟩
def Fld.SP_RESET_CAUSE_POWER_ON : Field := ⟨Reg.SP_RESET_CAUSE, 0, 1⟩
def Reg.MEM_CH_BOOT : RegDesc :=
  { rid := 124, block := 3, base := 0x20003001000, dims := [(0x8, 8)], width := 64, rst := 0x0, resetBy := .fundamental,
    fields := [⟨60, 4, .ro⟩, ⟨59, 1, .ro⟩, ⟨48, 8, .ro⟩, ⟨32, 16, .ro⟩] }
def Fld.MEM_CH_BOOT_STATE : Field := ⟨Reg.MEM_CH_BOOT, 60, 4⟩
def Fld.MEM_CH_BOOT_RETAINED : Field := ⟨Reg.MEM_CH_BOOT, 59, 1⟩
def Fld.MEM_CH_BOOT_RANKS : Field := ⟨Reg.MEM_CH_BOOT, 48, 8⟩
def Fld.MEM_CH_BOOT_RATE : Field := ⟨Reg.MEM_CH_BOOT, 32, 16⟩
def Reg.SP_WARM_CTL : RegDesc :=
  { rid := 125, block := 0, base := 0x20000000018, dims := [], width := 32, rst := 0xA, resetBy := .fundamental,
    fields := [⟨31, 1, .w1s⟩, ⟨30, 1, .ro⟩, ⟨29, 1, .w1c⟩, ⟨16, 8, .wo⟩, ⟨0, 7, .rw⟩] }
def Fld.SP_WARM_CTL_REQUEST : Field := ⟨Reg.SP_WARM_CTL, 31, 1⟩
def Fld.SP_WARM_CTL_IN_PROGRESS : Field := ⟨Reg.SP_WARM_CTL, 30, 1⟩
def Fld.SP_WARM_CTL_REFUSED : Field := ⟨Reg.SP_WARM_CTL, 29, 1⟩
def Fld.SP_WARM_CTL_KEY : Field := ⟨Reg.SP_WARM_CTL, 16, 8⟩
def Fld.SP_WARM_CTL_DRAIN_MS : Field := ⟨Reg.SP_WARM_CTL, 0, 7⟩
def Reg.SP_TUNE : RegDesc :=
  { rid := 126, block := 0, base := 0x20000004000, dims := [(0x8, 160)], width := 64, rst := 0x0, resetBy := .fundamental,
    fields := [⟨63, 1, .ro⟩, ⟨32, 16, .ro⟩, ⟨16, 16, .rws⟩, ⟨0, 16, .ro⟩] }
def Fld.SP_TUNE_CLAMPED : Field := ⟨Reg.SP_TUNE, 63, 1⟩
def Fld.SP_TUNE_EFFECTIVE : Field := ⟨Reg.SP_TUNE, 32, 16⟩
def Fld.SP_TUNE_USER : Field := ⟨Reg.SP_TUNE, 16, 16⟩
def Fld.SP_TUNE_FACTORY : Field := ⟨Reg.SP_TUNE, 0, 16⟩

/-- The register arrays of chapter 17. -/
def Reg.ch17 : List RegDesc :=
  [Reg.SP_BOOT_STATUS, Reg.SP_CORE_RELEASE, Reg.SP_RESET_CAUSE, Reg.MEM_CH_BOOT, Reg.SP_WARM_CTL, Reg.SP_TUNE]

/-! ### Registers of chapter 18 -/

def Reg.MEM_CFG : RegDesc :=
  { rid := 127, block := 3, base := 0x20003000000, dims := [], width := 64, rst := 0x100018000000, resetBy := .fundamental,
    fields := [⟨63, 1, .w1s⟩, ⟨48, 8, .rwl⟩, ⟨44, 4, .rwl⟩, ⟨24, 8, .rw⟩] }
def Fld.MEM_CFG_LOCK : Field := ⟨Reg.MEM_CFG, 63, 1⟩
def Fld.MEM_CFG_CH_MASK : Field := ⟨Reg.MEM_CFG, 48, 8⟩
def Fld.MEM_CFG_CH_SIZE : Field := ⟨Reg.MEM_CFG, 44, 4⟩
def Fld.MEM_CFG_SCRUB_H : Field := ⟨Reg.MEM_CFG, 24, 8⟩
def Reg.MEM_STATUS : RegDesc :=
  { rid := 128, block := 3, base := 0x20003000008, dims := [], width := 64, rst := 0x0, resetBy := .fundamental,
    fields := [⟨63, 1, .w1c⟩, ⟨62, 1, .w1c⟩, ⟨61, 1, .w1c⟩, ⟨60, 1, .w1c⟩, ⟨59, 1, .ro⟩, ⟨58, 1, .ro⟩, ⟨0, 48, .ro⟩] }
def Fld.MEM_STATUS_LOCKED_WRITE : Field := ⟨Reg.MEM_STATUS, 63, 1⟩
def Fld.MEM_STATUS_CFG_REFUSED : Field := ⟨Reg.MEM_STATUS, 62, 1⟩
def Fld.MEM_STATUS_ALIAS_READ : Field := ⟨Reg.MEM_STATUS, 61, 1⟩
def Fld.MEM_STATUS_ALIAS_BAD : Field := ⟨Reg.MEM_STATUS, 60, 1⟩
def Fld.MEM_STATUS_ALIAS_BUSY : Field := ⟨Reg.MEM_STATUS, 59, 1⟩
def Fld.MEM_STATUS_KEY_ERASED : Field := ⟨Reg.MEM_STATUS, 58, 1⟩
def Fld.MEM_STATUS_ALIAS_LAST : Field := ⟨Reg.MEM_STATUS, 0, 48⟩
def Reg.MEM_CH_CTL : RegDesc :=
  { rid := 129, block := 3, base := 0x20003001100, dims := [(0x8, 8)], width := 32, rst := 0x0, resetBy := .fundamental,
    fields := [⟨1, 1, .w1s⟩, ⟨0, 1, .w1s⟩] }
def Fld.MEM_CH_CTL_RESTORE : Field := ⟨Reg.MEM_CH_CTL, 1, 1⟩
def Fld.MEM_CH_CTL_TRAIN : Field := ⟨Reg.MEM_CH_CTL, 0, 1⟩
def Reg.MEM_CH_TRAIN : RegDesc :=
  { rid := 130, block := 3, base := 0x20003002000, dims := [(0x100, 8), (0x8, 32)], width := 64, rst := 0x0, resetBy := .fundamental,
    fields := [⟨0, 64, .rws⟩] }
def Fld.MEM_CH_TRAIN_DATA : Field := ⟨Reg.MEM_CH_TRAIN, 0, 64⟩
def Reg.MEM_SECRET_LO : RegDesc :=
  { rid := 131, block := 3, base := 0x20003003000, dims := [(0x10, 15)], width := 64, rst := 0x0, resetBy := .fundamental,
    fields := [⟨28, 36, .rwl⟩, ⟨0, 1, .rwl⟩] }
def Fld.MEM_SECRET_LO_BASE : Field := ⟨Reg.MEM_SECRET_LO, 28, 36⟩
def Fld.MEM_SECRET_LO_VALID : Field := ⟨Reg.MEM_SECRET_LO, 0, 1⟩
def Reg.MEM_SECRET_HI : RegDesc :=
  { rid := 132, block := 3, base := 0x20003003008, dims := [(0x10, 15)], width := 64, rst := 0x0, resetBy := .fundamental,
    fields := [⟨28, 36, .rwl⟩] }
def Fld.MEM_SECRET_HI_LIMIT : Field := ⟨Reg.MEM_SECRET_HI, 28, 36⟩
def Reg.MEM_L3_CTL : RegDesc :=
  { rid := 133, block := 3, base := 0x20003004000, dims := [], width := 32, rst := 0x0, resetBy := .warm,
    fields := [⟨0, 1, .rw⟩] }
def Fld.MEM_L3_CTL_MODE : Field := ⟨Reg.MEM_L3_CTL, 0, 1⟩
def Reg.MEM_ARB : RegDesc :=
  { rid := 134, block := 3, base := 0x20003005000, dims := [(0x8, 6)], width := 32, rst := 0x0, resetBy := .fundamental,
    fields := [⟨0, 8, .rw⟩] }
def Fld.MEM_ARB_WEIGHT : Field := ⟨Reg.MEM_ARB, 0, 8⟩
def Reg.MEM_ALIAS_CFG : RegDesc :=
  { rid := 135, block := 3, base := 0x20003006000, dims := [], width := 64, rst := 0x0, resetBy := .fundamental,
    fields := [⟨45, 19, .rw⟩, ⟨0, 1, .rw⟩] }
def Fld.MEM_ALIAS_CFG_BITMAP_BASE : Field := ⟨Reg.MEM_ALIAS_CFG, 45, 19⟩
def Fld.MEM_ALIAS_CFG_BITMAP_EN : Field := ⟨Reg.MEM_ALIAS_CFG, 0, 1⟩
def Reg.MEM_ECC_LOG : RegDesc :=
  { rid := 136, block := 3, base := 0x20003007000, dims := [(0x8, 8)], width := 64, rst := 0x0, resetBy := .fundamental,
    fields := [⟨63, 1, .w1c⟩, ⟨62, 1, .ro⟩, ⟨6, 42, .ro⟩] }
def Fld.MEM_ECC_LOG_VALID : Field := ⟨Reg.MEM_ECC_LOG, 63, 1⟩
def Fld.MEM_ECC_LOG_UNCORR : Field := ⟨Reg.MEM_ECC_LOG, 62, 1⟩
def Fld.MEM_ECC_LOG_LINE : Field := ⟨Reg.MEM_ECC_LOG, 6, 42⟩
def Reg.MEM_HOST_WIN : RegDesc :=
  { rid := 137, block := 3, base := 0x20003010000, dims := [(0x8, 4096)], width := 64, rst := 0x0, resetBy := .fundamental,
    fields := [⟨32, 32, .rw⟩] }
def Fld.MEM_HOST_WIN_BASE : Field := ⟨Reg.MEM_HOST_WIN, 32, 32⟩
def Reg.MEMC_CORR : RegDesc :=
  { rid := 415, block := 3, base := 0x20003030000, dims := [(0x40, 8)], width := 64, rst := 0x0, resetBy := .fundamental,
    fields := [⟨0, 64, .rc⟩] }
def Fld.MEMC_CORR_COUNT : Field := ⟨Reg.MEMC_CORR, 0, 64⟩
def Reg.MEMC_UNCORR : RegDesc :=
  { rid := 416, block := 3, base := 0x20003030008, dims := [(0x40, 8)], width := 64, rst := 0x0, resetBy := .fundamental,
    fields := [⟨0, 64, .rc⟩] }
def Fld.MEMC_UNCORR_COUNT : Field := ⟨Reg.MEMC_UNCORR, 0, 64⟩
def Reg.MEMC_SCRUB_FIX : RegDesc :=
  { rid := 417, block := 3, base := 0x20003030010, dims := [(0x40, 8)], width := 64, rst := 0x0, resetBy := .fundamental,
    fields := [⟨0, 64, .rc⟩] }
def Fld.MEMC_SCRUB_FIX_COUNT : Field := ⟨Reg.MEMC_SCRUB_FIX, 0, 64⟩
def Reg.MEMC_ALIAS_WRITES : RegDesc :=
  { rid := 418, block := 3, base := 0x20003030800, dims := [], width := 64, rst := 0x0, resetBy := .fundamental,
    fields := [⟨0, 64, .rc⟩] }
def Fld.MEMC_ALIAS_WRITES_COUNT : Field := ⟨Reg.MEMC_ALIAS_WRITES, 0, 64⟩
def Reg.MEMC_ALIAS_BAD : RegDesc :=
  { rid := 419, block := 3, base := 0x20003030808, dims := [], width := 64, rst := 0x0, resetBy := .fundamental,
    fields := [⟨0, 64, .rc⟩] }
def Fld.MEMC_ALIAS_BAD_COUNT : Field := ⟨Reg.MEMC_ALIAS_BAD, 0, 64⟩
def Reg.MEMC_ALIAS_READS : RegDesc :=
  { rid := 420, block := 3, base := 0x20003030810, dims := [], width := 64, rst := 0x0, resetBy := .fundamental,
    fields := [⟨0, 64, .rc⟩] }
def Fld.MEMC_ALIAS_READS_COUNT : Field := ⟨Reg.MEMC_ALIAS_READS, 0, 64⟩
def Reg.MEMC_SECRET_DROP : RegDesc :=
  { rid := 421, block := 3, base := 0x20003030818, dims := [], width := 64, rst := 0x0, resetBy := .fundamental,
    fields := [⟨0, 64, .rc⟩] }
def Fld.MEMC_SECRET_DROP_COUNT : Field := ⟨Reg.MEMC_SECRET_DROP, 0, 64⟩
def Reg.MEMC_UNMAPPED : RegDesc :=
  { rid := 422, block := 3, base := 0x20003030820, dims := [], width := 64, rst := 0x0, resetBy := .fundamental,
    fields := [⟨0, 64, .rc⟩] }
def Fld.MEMC_UNMAPPED_COUNT : Field := ⟨Reg.MEMC_UNMAPPED, 0, 64⟩

/-- The register arrays of chapter 18. -/
def Reg.ch18 : List RegDesc :=
  [Reg.MEM_CFG, Reg.MEM_STATUS, Reg.MEM_CH_CTL, Reg.MEM_CH_TRAIN, Reg.MEM_SECRET_LO, Reg.MEM_SECRET_HI] ++
  [Reg.MEM_L3_CTL, Reg.MEM_ARB, Reg.MEM_ALIAS_CFG, Reg.MEM_ECC_LOG, Reg.MEM_HOST_WIN, Reg.MEMC_CORR] ++
  [Reg.MEMC_UNCORR, Reg.MEMC_SCRUB_FIX, Reg.MEMC_ALIAS_WRITES, Reg.MEMC_ALIAS_BAD, Reg.MEMC_ALIAS_READS, Reg.MEMC_SECRET_DROP] ++
  [Reg.MEMC_UNMAPPED]

/-! ### Registers of chapter 19 -/

def Reg.SP_MGMT_CFG : RegDesc :=
  { rid := 138, block := 0, base := 0x20000000500, dims := [], width := 32, rst := 0x0, resetBy := .fundamental,
    fields := [⟨31, 1, .w1s⟩, ⟨30, 1, .rwl⟩, ⟨0, 8, .ro⟩] }
def Fld.SP_MGMT_CFG_LOCK : Field := ⟨Reg.SP_MGMT_CFG, 31, 1⟩
def Fld.SP_MGMT_CFG_CTRL_EN : Field := ⟨Reg.SP_MGMT_CFG, 30, 1⟩
def Fld.SP_MGMT_CFG_EID : Field := ⟨Reg.SP_MGMT_CFG, 0, 8⟩
def Reg.SP_PART : RegDesc :=
  { rid := 139, block := 0, base := 0x20000000020, dims := [], width := 64, rst := 0x880000000000000, resetBy := .never,
    fields := [⟨48, 16, .ro⟩, ⟨40, 8, .ro⟩, ⟨32, 2, .ro⟩] }
def Fld.SP_PART_DEVICE_ID : Field := ⟨Reg.SP_PART, 48, 16⟩
def Fld.SP_PART_REVISION : Field := ⟨Reg.SP_PART, 40, 8⟩
def Fld.SP_PART_GRADE : Field := ⟨Reg.SP_PART, 32, 2⟩
def Reg.SP_LOG_STATUS : RegDesc :=
  { rid := 140, block := 0, base := 0x20000000600, dims := [], width := 64, rst := 0x100000000, resetBy := .aon,
    fields := [⟨63, 1, .w1s⟩, ⟨62, 1, .ro⟩, ⟨32, 16, .ro⟩, ⟨16, 16, .ro⟩, ⟨0, 11, .ro⟩] }
def Fld.SP_LOG_STATUS_CLEAR : Field := ⟨Reg.SP_LOG_STATUS, 63, 1⟩
def Fld.SP_LOG_STATUS_WRAPPED : Field := ⟨Reg.SP_LOG_STATUS, 62, 1⟩
def Fld.SP_LOG_STATUS_SEQ : Field := ⟨Reg.SP_LOG_STATUS, 32, 16⟩
def Fld.SP_LOG_STATUS_SUPPRESSED : Field := ⟨Reg.SP_LOG_STATUS, 16, 16⟩
def Fld.SP_LOG_STATUS_HEAD : Field := ⟨Reg.SP_LOG_STATUS, 0, 11⟩
def Reg.SP_WDOG : RegDesc :=
  { rid := 141, block := 0, base := 0x20000000100, dims := [], width := 64, rst := 0x3E800640000, resetBy := .fundamental,
    fields := [⟨63, 1, .w1s⟩, ⟨62, 1, .rw⟩, ⟨32, 16, .rw⟩, ⟨16, 16, .rw⟩, ⟨0, 8, .wo⟩] }
def Fld.SP_WDOG_EN : Field := ⟨Reg.SP_WDOG, 63, 1⟩
def Fld.SP_WDOG_ACTION : Field := ⟨Reg.SP_WDOG, 62, 1⟩
def Fld.SP_WDOG_TIMEOUT_MS : Field := ⟨Reg.SP_WDOG, 32, 16⟩
def Fld.SP_WDOG_WARN_MS : Field := ⟨Reg.SP_WDOG, 16, 16⟩
def Fld.SP_WDOG_KICK : Field := ⟨Reg.SP_WDOG, 0, 8⟩
def Reg.SP_WDOG_STATUS : RegDesc :=
  { rid := 142, block := 0, base := 0x20000000108, dims := [], width := 64, rst := 0x0, resetBy := .fundamental,
    fields := [⟨32, 32, .ro⟩, ⟨16, 16, .ro⟩, ⟨0, 1, .ro⟩] }
def Fld.SP_WDOG_STATUS_REMAIN : Field := ⟨Reg.SP_WDOG_STATUS, 32, 32⟩
def Fld.SP_WDOG_STATUS_BITES : Field := ⟨Reg.SP_WDOG_STATUS, 16, 16⟩
def Fld.SP_WDOG_STATUS_WARNED : Field := ⟨Reg.SP_WDOG_STATUS, 0, 1⟩
def Reg.SP_TAMPER : RegDesc :=
  { rid := 143, block := 0, base := 0x20000000200, dims := [], width := 64, rst := 0x0, resetBy := .aon,
    fields := [⟨48, 16, .ro⟩, ⟨8, 1, .ro⟩, ⟨0, 6, .ro⟩] }
def Fld.SP_TAMPER_ALARMS : Field := ⟨Reg.SP_TAMPER, 48, 16⟩
def Fld.SP_TAMPER_TRIP_HELD : Field := ⟨Reg.SP_TAMPER, 8, 1⟩
def Fld.SP_TAMPER_HISTORY : Field := ⟨Reg.SP_TAMPER, 0, 6⟩
def Reg.SP_DBG : RegDesc :=
  { rid := 144, block := 0, base := 0x20000000300, dims := [], width := 64, rst := 0x0, resetBy := .fundamental,
    fields := [⟨63, 1, .ro⟩, ⟨62, 1, .ro⟩, ⟨48, 8, .ro⟩, ⟨1, 1, .w1s⟩, ⟨0, 1, .w1s⟩] }
def Fld.SP_DBG_UNLOCKED : Field := ⟨Reg.SP_DBG, 63, 1⟩
def Fld.SP_DBG_BUSY : Field := ⟨Reg.SP_DBG, 62, 1⟩
def Fld.SP_DBG_RESULT : Field := ⟨Reg.SP_DBG, 48, 8⟩
def Fld.SP_DBG_GO : Field := ⟨Reg.SP_DBG, 1, 1⟩
def Fld.SP_DBG_NEW_CHALLENGE : Field := ⟨Reg.SP_DBG, 0, 1⟩
def Reg.SP_APPROVED : RegDesc :=
  { rid := 145, block := 0, base := 0x20000000400, dims := [], width := 32, rst := 0x0, resetBy := .fundamental,
    fields := [⟨31, 1, .ro⟩, ⟨30, 1, .ro⟩, ⟨29, 1, .w1c⟩, ⟨16, 8, .ro⟩, ⟨0, 1, .w1s⟩] }
def Fld.SP_APPROVED_ACTIVE : Field := ⟨Reg.SP_APPROVED, 31, 1⟩
def Fld.SP_APPROVED_INDICATOR : Field := ⟨Reg.SP_APPROVED, 30, 1⟩
def Fld.SP_APPROVED_REFUSED : Field := ⟨Reg.SP_APPROVED, 29, 1⟩
def Fld.SP_APPROVED_REASON : Field := ⟨Reg.SP_APPROVED, 16, 8⟩
def Fld.SP_APPROVED_ENTER : Field := ⟨Reg.SP_APPROVED, 0, 1⟩
def Reg.SP_LOG_APPEND0 : RegDesc :=
  { rid := 248, block := 0, base := 0x20000000610, dims := [], width := 64, rst := 0x0, resetBy := .aon,
    fields := [⟨0, 64, .wo⟩] }
def Fld.SP_LOG_APPEND0_INFO0 : Field := ⟨Reg.SP_LOG_APPEND0, 0, 64⟩
def Reg.SP_LOG_APPEND1 : RegDesc :=
  { rid := 249, block := 0, base := 0x20000000618, dims := [], width := 64, rst := 0x0, resetBy := .aon,
    fields := [⟨0, 64, .wo⟩] }
def Fld.SP_LOG_APPEND1_INFO1 : Field := ⟨Reg.SP_LOG_APPEND1, 0, 64⟩
def Reg.SP_DBG_CHAL : RegDesc :=
  { rid := 250, block := 0, base := 0x20000000308, dims := [(0x8, 2)], width := 64, rst := 0x0, resetBy := .fundamental,
    fields := [⟨0, 64, .ro⟩] }
def Fld.SP_DBG_CHAL_CHAL : Field := ⟨Reg.SP_DBG_CHAL, 0, 64⟩
def Reg.SP_RNG : RegDesc :=
  { rid := 251, block := 0, base := 0x20000000700, dims := [], width := 64, rst := 0x0, resetBy := .never,
    fields := [⟨0, 64, .ro⟩] }
def Fld.SP_RNG_RNG : Field := ⟨Reg.SP_RNG, 0, 64⟩
def Reg.SP_DICE_SEAL : RegDesc :=
  { rid := 252, block := 0, base := 0x20000000410, dims := [], width := 64, rst := 0x0, resetBy := .warm,
    fields := [⟨0, 1, .w1s⟩] }
def Fld.SP_DICE_SEAL_SEAL : Field := ⟨Reg.SP_DICE_SEAL, 0, 1⟩
def Reg.SP_TOKEN : RegDesc :=
  { rid := 253, block := 0, base := 0x20000000800, dims := [(0x8, 20)], width := 64, rst := 0x0, resetBy := .fundamental,
    fields := [⟨0, 64, .rw⟩] }
def Fld.SP_TOKEN_WORD : Field := ⟨Reg.SP_TOKEN, 0, 64⟩
def Reg.SP_LOG_WIN : RegDesc :=
  { rid := 254, block := 0, base := 0x20000010000, dims := [(0x20, 2048), (0x8, 4)], width := 64, rst := 0x0, resetBy := .aon,
    fields := [⟨0, 64, .ro⟩] }
def Fld.SP_LOG_WIN_WORD : Field := ⟨Reg.SP_LOG_WIN, 0, 64⟩
def Reg.SP_DICE_WIN : RegDesc :=
  { rid := 255, block := 0, base := 0x20000020000, dims := [(0x8, 512)], width := 64, rst := 0x0, resetBy := .never,
    fields := [⟨0, 64, .ro⟩] }
def Fld.SP_DICE_WIN_WORD : Field := ⟨Reg.SP_DICE_WIN, 0, 64⟩
def Reg.SP_ERR_COUNT : RegDesc :=
  { rid := 423, block := 0, base := 0x20000030000, dims := [(0x8, 4)], width := 64, rst := 0x0, resetBy := .aon,
    fields := [⟨0, 64, .rc⟩] }
def Fld.SP_ERR_COUNT_COUNT : Field := ⟨Reg.SP_ERR_COUNT, 0, 64⟩

/-- The register arrays of chapter 19. -/
def Reg.ch19 : List RegDesc :=
  [Reg.SP_MGMT_CFG, Reg.SP_PART, Reg.SP_LOG_STATUS, Reg.SP_WDOG, Reg.SP_WDOG_STATUS, Reg.SP_TAMPER] ++
  [Reg.SP_DBG, Reg.SP_APPROVED, Reg.SP_LOG_APPEND0, Reg.SP_LOG_APPEND1, Reg.SP_DBG_CHAL, Reg.SP_RNG] ++
  [Reg.SP_DICE_SEAL, Reg.SP_TOKEN, Reg.SP_LOG_WIN, Reg.SP_DICE_WIN, Reg.SP_ERR_COUNT]

/-- Every register array of the spec. -/
def Reg.all : List RegDesc :=
  Reg.ch02 ++ Reg.ch03 ++ Reg.ch04 ++ Reg.ch05 ++ Reg.ch06 ++ Reg.ch07 ++ Reg.ch08 ++ Reg.ch09 ++ Reg.ch10 ++ Reg.ch11 ++ Reg.ch12 ++ Reg.ch13 ++ Reg.ch14 ++ Reg.ch15 ++ Reg.ch16 ++ Reg.ch17 ++ Reg.ch18 ++ Reg.ch19

/-- Whether a power domain is a CORE domain (Table 16-1). -/
def pwrCoreDomain (i : Nat) : Bool := 14 ≤ i && i ≤ 21

/-- The default arbitration weights of Table 18-6. -/
def memArbWeight (i : Nat) : Nat := [8, 64, 12, 8, 6, 2].getD i 0
/-- The reset value of element `i` of a register array: the value its field table gives, with the values that depend on the index
(PCI_TAG_QUOTA.MIN, PCI_TAG_POOL.RESV_TOTAL, PWR_DOM_CFG.AUTO, MEM_ARB.WEIGHT) and the fused ones, which Config leaves open. -/
def resetValue (r : RegDesc) (i : Nat) : Word :=
  if r.rid = Reg.PCI_TAG_QUOTA.rid then (if i < 4 then r.rst ||| BitVec.ofNat 64 (8 <<< 42) else r.rst)
  else if r.rid = Reg.PCI_TAG_POOL.rid then r.rst ||| BitVec.ofNat 64 (16 <<< 32)
  else if r.rid = Reg.PWR_DOM_CFG.rid then (if pwrCoreDomain i then r.rst &&& ~~~(BitVec.ofNat 64 (1 <<< 63)) else r.rst ||| BitVec.ofNat 64 (1 <<< 63))
  else if r.rid = Reg.MEM_ARB.rid then BitVec.ofNat 64 (memArbWeight i)
  else if r.rid = Reg.SP_TUNE.rid then
    BitVec.ofNat 64 ((Config.tuneFactory i).toNat <<< 32) ||| BitVec.ofNat 64 (Config.tuneFactory i).toNat
  else if r.rid = Reg.HQE_PATCH_STATUS.rid then r.rst ||| BitVec.ofNat 64 (Config.romId.toNat <<< 32)
  else if r.rid = Reg.SP_PART.rid then Config.partWord
  else r.rst

end Sys2Proof.Machine
end

