-- ==== Sys2Proof/Machine/SMap.lean ====
section
/-! DEFINITION. The operations of the sparse maps that hold the state's arrays, and of the byte memories built on them. -/

namespace Sys2Proof.Machine

/-- The value at index `i`, or `d` where none is listed. -/
def mget {α : Type} (d : α) : SMap α → Nat → α
  | [], _ => d
  | (k, v) :: m, i => if i = k then v else mget d m i

/-- The value listed at index `i`. -/
def mfind {α : Type} : SMap α → Nat → Option α
  | [], _ => none
  | (k, v) :: m, i => if i = k then some v else mfind m i

/-- The map with `v` listed at `i`, in its place in the order. -/
def mput {α : Type} : SMap α → Nat → α → SMap α
  | [], i, v => [(i, v)]
  | (k, w) :: m, i, v =>
    if i < k then (i, v) :: (k, w) :: m else if i = k then (k, v) :: m else (k, w) :: mput m i v

/-- The map with nothing listed at `i`. -/
def merase {α : Type} : SMap α → Nat → SMap α
  | [], _ => []
  | (k, w) :: m, i => if i = k then merase m i else (k, w) :: merase m i

/-- The map with value `v` at `i`, listing it only where it differs from the default. -/
def mset {α : Type} [DecidableEq α] (d : α) (m : SMap α) (i : Nat) (v : α) : SMap α :=
  if v = d then merase m i else mput m i v

/-- The form of a map: indices strictly rising. -/
abbrev mSorted {α : Type} (m : SMap α) : Prop := m.Pairwise fun a b => a.1 < b.1

/-- The canonical form of a byte memory: addresses strictly rising, and no entry equal to what an unlisted address reads as. -/
abbrev memWf (base : Nat → Byte) (m : SMap Byte) : Prop := mSorted m ∧ ∀ c ∈ m, c.2 ≠ base c.1

/-- The byte at an address of a thread's scratch. An address that is not listed reads as zero (DESIGN CHOICE, log entry 2). -/
def mrd (m : SMap Byte) (a : Nat) : Byte := mget 0 m a

/-- The byte memory with byte `b` at `a`. -/
def mwr (m : SMap Byte) (a : Nat) (b : Byte) : SMap Byte := mset 0 m a b

/-- `n` bytes from address `a` on. -/
def mrdBytes (m : SMap Byte) (a n : Nat) : List Byte := (List.range n).map fun i => mrd m (a + i)

/-- The memory with the bytes stored from address `a` on. -/
def mwrBytes : SMap Byte → Nat → List Byte → SMap Byte
  | m, _, [] => m
  | m, a, b :: bs => mwrBytes (mwr m a b) (a + 1) bs

end Sys2Proof.Machine
end

