-- ==== Sys2Proof/Machine/State.lean ====
section
/-! DEFINITION. The state of the adapter as plain data, and its state after reset. -/

namespace Sys2Proof.Machine

/-! ### Peosh threads and cores (chapters 02 and 03) -/

/-- The registers that a thread and a core share (Table 02-2): g0 to g31, p0 to p7, the pc, and RETIRED (Table 02-12). -/
structure Arch where
  g : Vector Word 32
  p : Vector Bool 8
  pc : Word
  retired : Word
  deriving DecidableEq, Repr

/-- The states of Table 03-1 (CLU_THR_STATUS.STATE). -/
inductive ThreadState where
  | halted | ready | waitRd | waitWr | waitPeg | waitEng | stopped
  deriving DecidableEq, Repr

/-- The engine operations that may wait at issue (R42). -/
inductive EngOp where
  | lkp | csub | bowgo
  deriving DecidableEq, Repr

/-- The instruction a waiting thread waits in (R63): a channel read (destination, channel key, buffer address, chrd.pb or not,
epoch seen), a chwr, a peg.acq with its grant once the peg has passed to the thread (true: it was broken), or an engine
request with its operand registers. -/
inductive Wait where
  | read (rd : RegIx) (ch : Nat) (addr : Nat) (pb : Bool)
  | write (ch : Nat) (v : Word)
  | peg (rd : RegIx) (key : Nat) (grant : Option Bool)
  | engine (op : EngOp) (ra rb : RegIx)
  deriving DecidableEq, Repr

/-- The staging area: the channel named by the first chwr and the words staged so far (R34). -/
structure OpenMsg where
  ch : Nat
  words : List Word
  deriving DecidableEq, Repr

/-- A packet thread (Table 02-2, Table 03-1). Scratch is its 4 KiB of private memory; `engHeld` counts its engine slots in use;
`pkts` are the handles of the packets it holds, oldest first, one packet slot each (R64, R108). -/
structure Thread where
  a : Arch
  hv : Vector Word 64
  scratch : List Host.Cell
  openMsg : Option OpenMsg
  pegs : List Nat
  epoch : BitVec 8
  image : Bool
  st : ThreadState
  wait : Option Wait
  engHeld : Nat
  pkts : List Nat
  deriving DecidableEq, Repr

/-- The privilege levels of R47, coded 0, 1 and 2. -/
inductive Priv where
  | u | s | m
  deriving DecidableEq, Repr

/-- The trap registers of one level (Table 02-12: x_VBASE, x_TRPC, x_TRPS, x_TRCAUSE, x_TRINFO, x_SCRATCH). -/
structure TrapRegs where
  vbase : Word
  trpc : Word
  trpsPriv : Priv
  trpsIe : Bool
  cause : Word
  info : Word
  scratch : Word
  deriving DecidableEq, Repr

/-- A cached translation (R49): the leaf entry, its level, the virtual page base and the ASID it was walked under. -/
structure TlbEntry where
  asid : BitVec 16
  vbase : Nat
  level : Nat
  pte : Word
  deriving DecidableEq, Repr

/-- A control core (Table 02-2, Tables 02-12 to 02-14). `running` is false until the core is released (R383); `idling` is true
while it waits in idle (R46). -/
structure Core where
  a : Arch
  running : Bool
  idling : Bool
  priv : Priv
  uacc : Bool
  ie : Bool
  mmuEn : Bool
  asid : BitVec 16
  root : BitVec 36
  trapS : TrapRegs
  trapM : TrapRegs
  route : Word
  tlb : List TlbEntry
  deriving DecidableEq, Repr

/-- A message of 1 to 16 words with its source ID (R32). `pin` is the thread a dispatch message is pinned to (R72); `hv` is the
header vector that travels with a dispatch message or an action message (R24, R35); `pkt` is the packet of a dispatch message; `eng` is
the thread whose engine slot a lookup or cipher reply holds until it is written (R64); `note` marks a notice (R102, R135, R178). -/
structure Msg where
  src : Nat
  words : List Word
  pin : Option Nat := none
  hv : Option (Vector Word 64) := none
  pkt : Option Nat := none
  eng : Option Nat := none
  note : Bool := false
  deriving DecidableEq, Repr

/-- A waiting writer of a channel: a thread at its chwr, or the send port of a control core with its command (R76). -/
inductive Writer where
  | thread (t : Nat)
  | port (k : Nat)
  deriving DecidableEq, Repr

/-- A channel, or one section of a unit channel (R455): committed messages in commit order, the number of words reserved by open
messages, the reader FIFO, the writer FIFO and the unit messages that wait for room (R68). -/
structure Chan where
  msgs : List Msg
  reserved : Nat
  readers : List Nat
  writers : List Writer
  units : List Msg
  deriving DecidableEq, Repr

/-- A peg (R78 to R80): its holder, the broken mark, the FIFO of requesters, and whether the present hold has already
produced its watchdog record. -/
structure Peg where
  holder : Option Nat
  broken : Bool
  waiters : List Nat
  wdogDone : Bool
  deriving DecidableEq, Repr

/-- A send-port command that waits in its channel's writer FIFO (R76). -/
structure PortCmd where
  ch : Nat
  count : Nat
  deriving DecidableEq, Repr

def Arch.init : Arch := { g := Vector.replicate 32 0, p := Vector.replicate 8 false, pc := 0, retired := 0 }
def Thread.init : Thread :=
  { a := Arch.init, hv := Vector.replicate 64 0, scratch := [], openMsg := none, pegs := [], epoch := 0, image := false,
    st := .halted, wait := none, engHeld := 0, pkts := [] }
def TrapRegs.init : TrapRegs :=
  { vbase := 0, trpc := 0, trpsPriv := .u, trpsIe := false, cause := 0, info := 0, scratch := 0 }
def Core.init : Core :=
  { a := Arch.init, running := false, idling := false, priv := .m, uacc := false, ie := false, mmuEn := false, asid := 0,
    root := 0, trapS := TrapRegs.init, trapM := TrapRegs.init, route := 0, tlb := [] }
def Chan.init : Chan := { msgs := [], reserved := 0, readers := [], writers := [], units := [] }
def Peg.init : Peg := { holder := none, broken := false, waiters := [], wdogDone := false }

/-- A range of DPA whose contents the spec calls undefined from some event on, until written again: from `lo` up to but not
including `hi`, with the number of the event; `ecc` tells that the data have valid ECC, so none of it is poisoned (R398, R402). -/
structure LostRange where
  lo : Nat
  hi : Nat
  n : Nat
  ecc : Bool
  part : Option (Nat × Nat) := none
  deriving DecidableEq, Repr

/-! ### Frames, the flow cache and the traffic manager (chapters 04 and 06) -/

/-- Where a frame stands on the packet path (R12). `parse` waits for a parser engine at a first state; `classify` has been parsed
(an exception frame when true); `ddr` waits for its DDR5 bucket; `path` is on the thread path; `handed` has been handed off to
firmware; `action` waits for the action engine with the list to run first and the inline primitives; `cipher` waits for the cipher
engine; `admitting` waits for admission; `queued` is in a TM queue; `sending` has started to leave at an egress point; `host` has been
taken by a host controller; `storage` is with the storage engine. -/
inductive Stage where
  | parse (start : Nat)
  | classify (exc : Bool)
  | ddr
  | path
  | handed
  | action (base : Option Nat) (inlineWords : List Word)
  | cipher (op ctx : Nat)
  | admitting
  | queued (q : Nat)
  | sending (e : Nat)
  | host (q : Nat)
  | storage
  deriving DecidableEq, Repr

/-- Which pool a frame's cells are charged to (R153, R154, R158). -/
inductive Charge where
  | ingress | resv | shared | overflow | free
  deriving DecidableEq, Repr

/-- A frame inside the adapter, known by its packet handle. `bytes` are without FCS; `key`, `hash` and `profile` are those of its
latest classification (R456); the layer slots stand in its header vector (Table 04-4); `gen` is the instance generation it entered
under; `job` is the transmit job it came from; `storeFwd` tells that it is stored and forwarded (R113); `late` is the completion status of
a late check that failed once the frame had been taken by a host controller (Table 10-9), 0 for none; `arr` is its place in the order
of arrival. -/
structure Frame where
  bytes : List Byte
  src : Nat
  inst : Nat
  gen : Nat
  ring : Nat
  job : Option Nat
  recirc : Nat
  ts : Nat
  macsec : Bool
  hv : Vector Word 64
  profile : Nat
  key : List Byte
  hash : Word
  queue : Option Nat
  cipher : Option (Nat × Nat)
  storeFwd : Bool
  copy : Bool
  stage : Stage
  cells : Nat
  charge : Charge
  chargeInst : Nat
  /-- The generation of the instance of its queue when it was admitted (R271, R282). -/
  qgen : Nat
  late : Nat
  arr : Nat
  /-- The header vector that travelled with the message that handed the frame off (R108). -/
  handed : Option (Vector Word 64)
  /-- The rate in Gb/s of the port the frame entered on (R113). -/
  inRate : Nat
  /-- The frame was stored and forwarded: every check but that of the packet buffer was known good before it started to leave (R113). -/
  passed : Bool
  /-- The transmit job whose payload the frame is (R244). -/
  tx : Option Nat
  /-- An overflow frame has been read back on chip; its cells stay the overflow's until it leaves (R154, R158). -/
  back : Bool
  deriving DecidableEq, Repr

/-- A pending-miss entry (R104): its key, dispatch channel, the thread that took the first frame, the held followers, and the
frames dispatched under it that have not left the thread path. -/
structure PendEntry where
  key : List Byte
  ch : Nat
  owner : Option Nat
  held : List Msg
  frames : List Nat
  deriving DecidableEq, Repr

/-- A flow-cache slot: its four words (Table 04-5) and whether it has hit since the scanner's last visit (R102). -/
structure FcSlot where
  w0 : Word
  w1 : Word
  w2 : Word
  w3 : Word
  hit : Bool
  deriving DecidableEq, Repr

def FcSlot.empty : FcSlot := { w0 := 0, w1 := 0, w2 := 0, w3 := 0, hit := false }

/-- The sub-byte fractions and the time of the last refill of a shaper or a policer, in model nanoseconds (R150, R160). -/
structure BucketAux where
  last : Nat
  fracC : Nat
  fracE : Nat
  deriving DecidableEq, Repr

def BucketAux.init : BucketAux := { last := 0, fracC := 0, fracE := 0 }

/-! ### Forwarding tables (chapter 05) -/

/-- A write that waits in the overlay (R127): the lock slot, the DPA of the element and its words. -/
structure OvEl where
  slot : Nat
  addr : Nat
  words : List Word
  deriving DecidableEq, Repr

/-- A lookup that has been issued and has not completed (R39): its thread, profile, reply channel, cookie and key block. -/
structure Lookup where
  t : Nat
  profile : Nat
  ch : Nat
  cookie : Nat
  words : List Word
  /-- The contents that elements published since the lookup was issued had before (R129). -/
  before : List OvEl := []
  deriving DecidableEq, Repr

/-- A parked learn request (R133): its bank, its sequence number and its message. -/
structure Parked where
  bank : Nat
  seq : Nat
  msg : Msg
  deriving DecidableEq, Repr

/-- A difference the compare engine has found (R138): the element, both values, and whether it counts as persistent whatever is read. -/
structure TblDiff where
  tcam : Bool
  index : Nat
  live : List Word
  shadow : List Word
  forced : Bool
  deriving DecidableEq, Repr

/-! ### The cipher engine (chapter 07) -/

/-- A running command of the key loading window: who gave it, OP, KEK, CTX and the bytes of CIP_KLW_DATA (R173). -/
structure KlwCmd where
  req : Nat
  op : Nat
  kek : Nat
  ctx : Nat
  data : List Byte
  deriving DecidableEq, Repr

/-- A csub request the engine has accepted (R40, R182): its thread, reply channel, cookie and words, and what was decided when it
reached the engine: its STATUS so far and the invocation number of a seal (R175). -/
structure CsubJob where
  t : Nat
  ch : Nat
  cookie : Nat
  words : List Word
  status : Nat
  n : Nat
  deriving DecidableEq, Repr

/-! ### Cuelrun (chapter 08) -/

/-- A frame that waits for a Cuelrun egress: whether it is transit traffic, the port it came in on, when its header arrived, the WRAPPED
bit it leaves with, and the frame with the DEADLINE and the WRAPPED bit it had when it came (R202, R203). -/
structure CueOut where
  transit : Bool
  ingress : Option Nat
  arr : Nat
  wrap : Bool
  f : CueFrame
  /-- The frame of the TM that this is, by its handle. -/
  h : Option Nat := none
  deriving DecidableEq, Repr

/-- A Cuelrun port: the next SEQ it sends and the SEQ it expects, the frames sent and not yet acknowledged (the replay buffer), the
frames that wait to be sent, whether a NAK has been sent for the expected SEQ, the replays without progress, the SEQ of a NAK_BUSY
whose 500 ns run, whether an INIT exchange has been made and its FEC advertisement, and whether each class last sent transit
traffic (R198, R199, R204). -/
structure CuePort where
  txSeq : Nat
  rxSeq : Nat
  unacked : List CueFrame
  queue : List CueOut
  nakSent : Bool
  retries : Nat
  busy : Option Nat
  init : Bool
  low : Bool
  lastTransit : List Nat
  /-- The frame of the TM that is being sent, by its handle, until another frame or its acknowledgement ends it (R114). -/
  last : Option Nat
  deriving DecidableEq, Repr

def CuePort.init0 : CuePort :=
  { txSeq := 0, rxSeq := 0, unacked := [], queue := [], nakSent := false, retries := 0, busy := none, init := false, low := false,
    lastTransit := [], last := none }

/-- An outstanding READ (R205): its tag, the Bow channel it reads for and its place in that channel's block, and its state: waiting,
answered with data, or dead (timed out, its tag not yet free). -/
inductive ReadState where
  | waiting | data (bs : List Byte) | failed | dead
  deriving DecidableEq, Repr
structure CueRead where
  tag : Nat
  ch : Nat
  off : Nat
  st : ReadState
  deriving DecidableEq, Repr

/-! ### The host bus endpoint (chapter 09) -/

/-- The configuration space of a function, as far as the adapter acts on it (Table 09-2): Bus Master Enable, Memory Space Enable,
D3hot; the Device Control fields, which VFs take from their PF; ATS Enable; LTR Mechanism Enable and its Max registers; VF Enable,
NumVFs and VF Memory Space Enable; MSI-X Enable and Function Mask; and the errors AER holds. -/
structure Func where
  bme : Bool
  mem : Bool
  d3 : Bool
  mps : Nat
  mrrs : Nat
  tagBits : Nat
  relaxed : Bool
  cto : Nat
  ats : Bool
  ltr : Bool
  ltrSnoop : Nat
  ltrNoSnoop : Nat
  vfEn : Bool
  numVfs : Nat
  vfMem : Bool
  msixEn : Bool
  msixMask : Bool
  aer : List AerErr
  deriving DecidableEq, Repr

def Func.init : Func :=
  { bme := false, mem := false, d3 := false, mps := 0, mrrs := 2, tagBits := 8, relaxed := true, cto := 0, ats := false, ltr := false,
    ltrSnoop := 0, ltrNoSnoop := 0, vfEn := false, numVfs := 0, vfMem := false, msixEn := false, msixMask := false, aer := [] }

/-- Who issues a host read: a descriptor fetch of ring (kind, n); buffer `k` of a transmit job; a microcode context, for a scratch
address; a Bow channel; a storage command; the page log of an instance; the restore of an image. -/
inductive ReadOwner where
  | fetch (kind n first : Nat)
  | payload (job k : Nat)
  | uc (ctx dst : Nat)
  | bow (ch off : Nat)
  | storage (cmd k : Nat)
  | pageLog (inst : Nat)
  | image (inst : Nat)
  deriving DecidableEq, Repr

/-- How a host read ended: with its data, failed (timeout, UR or CA), with poisoned data, or refused by the Hatband (Table 09-7). -/
inductive ReadRes where
  | ok (bs : List Byte) | fail | poison | refused
  deriving DecidableEq, Repr

/-- One request of a read: its address and length, whether it has been issued, and its data once it is complete. -/
structure ReadPart where
  addr : Nat
  len : Nat
  sent : Bool
  got : Option (List Byte)
  deriving DecidableEq, Repr

/-- A host read: its number, its issuer, instance and generation, whether its addresses are translated (R223), its parts, each at most
Max_Read_Request_Size, and its result. -/
structure HostRead where
  id : Nat
  who : ReadOwner
  inst : Nat
  gen : Nat
  ats : Bool
  parts : List ReadPart
  res : Option ReadRes
  deriving DecidableEq, Repr

/-- A read-tracking entry (R216): the instance and tag, its number, the read and part it serves (or, for a translation request, the
page it translates), the page whose translation it used, the bytes it expects and those that have arrived, whether it is
quarantined, and the generation of its instance when it was taken. -/
structure ReadEntry where
  inst : Nat
  tag : Nat
  sn : Nat
  read : Nat
  part : Nat
  xlat : Option Nat
  used : Option Nat
  len : Nat
  got : List Byte
  quar : Bool
  gen : Nat := 0
  deriving DecidableEq, Repr

/-- A cached translation of an instance's page (R223). -/
structure AtsEntry where
  inst : Nat
  page : Nat
  host : Nat
  r : Bool
  w : Bool
  deriving DecidableEq, Repr

/-- An invalidation that has not been completed: its tag and the entries that used a matching translation (R223). -/
structure AtsInv where
  inst : Nat
  itag : Nat
  uses : List Nat
  deriving DecidableEq, Repr

/-- The DOE mailbox of a PF (R224): an object that firmware has not answered, and DOE Error. -/
structure DoeBox where
  object : Option (Nat × List Byte)
  error : Bool
  deriving DecidableEq, Repr

def DoeBox.init : DoeBox := { object := none, error := false }

/-! ### Rings (chapter 10) -/

/-- A fetched ring entry: its index and words. -/
structure RingEntry where
  idx : Nat
  words : List Word
  deriving DecidableEq, Repr

/-- What a ring holds beside its element: the owning instance and local number it was enabled with, the next entry to ask for, the
fetch reads that are out, oldest first (first entry and count), and the fetched entries that no job has taken (R241). -/
structure RingX where
  inst : Nat
  locN : Nat
  next : Nat
  fetches : List (Nat × Nat)
  chip : List RingEntry
  deriving DecidableEq, Repr

def RingX.init : RingX := { inst := 0, locN := 0, next := 0, fetches := [], chip := [] }

/-- A transmit job that has been started (R243, R244): its SQ, instance and generation, its entries, and whether its frame has been
handed on and now waits for its departure (TS_REQ). -/
structure TxJob where
  n : Nat
  inst : Nat
  gen : Nat
  ents : List RingEntry
  handed : Bool
  deriving DecidableEq, Repr

/-- A completion that is ready: its ring (kind 0 SQ, 1 RQ) and instance, the generation of its job, STATUS, NBUF and TAG, the RESULT word,
the number of ring entries its job keeps on chip, and, for an NVMe command, the words of its completion entry less SQHD and phase. -/
structure CplRec where
  kind : Nat
  n : Nat
  inst : Nat
  gen : Nat
  status : Nat
  nbuf : Nat
  tag : Nat
  result : Word
  ents : Nat
  nvme : Option (Word × Word)
  /-- The local number of its ring when it became ready (R248). -/
  loc : Nat := 0
  deriving DecidableEq, Repr

/-- Who issues a posted host write, where a refusal is reported: a ring (kind, n), a Bow channel, a
microcode context, the page log of an instance, the image of a save, or nobody. -/
inductive WriteOwner where
  | ring (kind n : Nat) | bow (ch blk off inst gen addr : Nat) (data : List Byte) | uc (ctx : Nat) | pageLog (inst : Nat) | image | none
  deriving DecidableEq, Repr

/-- What a posted write that waits takes back when a freeze timeout orphans its job (R288): the buffers of a receive job of RQ `n`, or the
completions whose slots of a CQ it fills, from index `first` on. -/
inductive Undo where
  | none | job (n : Nat) (ents : List RingEntry) | cpls (cq first : Nat) (cs : List CplRec)
  deriving DecidableEq, Repr

/-- A posted host write that waits behind others of its function (R213): data to an address, or an MSI-X vector; `logged` lists the
pages that the page log has already considered for it. -/
structure HostWrite where
  inst : Nat
  gen : Nat
  addr : Nat
  data : List Byte
  ats : Bool
  relaxed : Bool
  ep : Bool
  msix : Option Nat
  owner : WriteOwner
  logged : List Nat
  undo : Undo := .none
  deriving DecidableEq, Repr

/-! ### Microcode contexts (chapter 11) -/

/-- What a checkpoint holds: the registers, the flags and the call stack (R263). -/
structure UcRegs where
  cr : Vector Word 32
  z : Bool
  n : Bool
  c : Bool
  v : Bool
  stack : List Nat
  deriving DecidableEq, Repr

/-- A context, beside what HQE_UC_CTX_STATUS shows (R254, R259 to R263): its registers and its checkpoint; the instance and generation it
is bound to and the ring of its job; whether its last unit operation reported an error; the event it waits for and whether it waits at a
safe point; the roll-forward entry of its last safe point; the state it had before DEBUG, and whether its next word passes a breakpoint;
whether it runs in STRETCH (R261); and whether a RESTART has it issue the word at SP_PC again (R265). -/
structure UcCtx where
  r : UcRegs
  chk : UcRegs
  bind : Option (Nat × Nat)
  ring : Option (Nat × Nat)
  err : Bool
  waitEv : Nat
  waitSafe : Bool
  target : Nat
  prev : Nat
  skip : Bool
  stretch : Bool
  again : Bool
  deriving DecidableEq, Repr

def UcRegs.init : UcRegs := { cr := Vector.replicate 32 0, z := false, n := false, c := false, v := false, stack := [] }
def UcCtx.init : UcCtx :=
  { r := UcRegs.init, chk := UcRegs.init, bind := none, ring := none, err := false, waitEv := 0, waitSafe := false, target := 0, prev := 0,
    skip := false, stretch := true, again := false }

/-! ### Storage (chapter 13) -/

/-- Where an NVMe command stands: fetched; checked and waiting in its connection's order for a slot and staging; waiting for its PRP
list; waiting for its guest data; ready to be sent; or sent to its target (its CapsuleCmd is in the send stream). -/
inductive StoStage where
  | fetched | waiting | prpList | reading | staged | sent
  deriving DecidableEq, Repr

/-- An NVMe I/O command (R306 to R308, R314, R315): its SQ, instance and generation, its submission entry, the words its namespace element
held at the fetch, its connection; its slot at the target and its staging pages; the pieces of guest memory its data pointer names and the
address and remaining bytes of a PRP list still to be read; the read data received and whether a data digest has failed; whether it has
waited for staging. A detached command belongs to no instance any more; `inst` is then its origin (R319). -/
structure StoCmd where
  n : Nat
  inst : Nat
  gen : Nat
  ent : RingEntry
  ns : List Word
  conn : Nat
  slot : Option Nat
  pages : List Nat
  prps : List (Nat × Nat)
  list : Option (Nat × Nat)
  data : List Byte
  digestBad : Bool
  /-- The data that wait for the rest of their data unit hold an uncorrectable word (R221). -/
  dataBad : Bool
  waited : Bool
  stage : StoStage
  detached : Bool
  deriving DecidableEq, Repr

/-- The staged range that an H2CData PDU carries: its command, the TTAG it answers, the range, and whether it is the last (R315). -/
structure StagePart where
  cmd : Nat
  slot : Nat
  ttag : Nat
  off : Nat
  len : Nat
  last : Bool
  deriving DecidableEq, Repr

/-- A PDU of a send stream: its bytes that are not acknowledged yet, and the staged range it carries (R312). -/
structure SndPdu where
  bytes : List Byte
  part : Option StagePart
  deriving DecidableEq, Repr

/-- What a connection holds beside its element: bytes of the received PDU stream that make no whole PDU yet, and how many of them reach up
to the last one from an uncorrectable word of the packet buffer (R221); the send stream from
SND_UNA on, sent or not; consecutive duplicate ACKs; whether an exception is outstanding and the frames held behind it (R313); full-size
segments and whether any byte awaits an acknowledgement (R311); the bytes acknowledged since CWND last
grew, and the ECN state: the SND_NXT at the last halving, and CWR due (R312). -/
structure ConnX where
  rx : List Byte
  rxBad : Nat
  snd : List SndPdu
  dups : Nat
  exc : Bool
  heldF : List Nat
  fullSegs : Nat
  ackDue : Bool
  acked : Nat
  ecnEnd : Option Nat
  cwr : Bool
  deriving DecidableEq, Repr

def ConnX.init : ConnX :=
  { rx := [], rxBad := 0, snd := [], dups := 0, exc := false, heldF := [], fullSegs := 0, ackDue := false, acked := 0, ecnEnd := none, cwr := false }

/-! ### Bow (chapter 14) -/

/-- A block of a Bow channel that has started, or a descriptor that has arrived before its turn: its words, its descriptor's DPA (0 in
register mode), the HSEQ and the generation it carries, the CHAIN_TAP snapshot of its fetch, the bytes whose writes have been accepted, the
bytes read that wait for their write, the bytes whose reads have been issued, and how often the failing burst has been issued again (R325
to R328, R335, R336, R342). `id` numbers the blocks of a channel; `reask`: a failed read that must be issued again and could not yet; `dead`:
a read that has failed for good, while what was read before it is still being written. -/
structure BowBlk where
  id : Nat
  words : List Word
  desc : Nat
  hseq : Nat
  gen : Nat
  snap : Nat
  done : Nat
  buf : List Byte
  asked : Nat
  tries : Nat
  reask : Option Nat
  dead : Option Nat
  deriving DecidableEq, Repr

/-- A block that has ended and not completed (R339): its words, descriptor, HSEQ and generation, its STATUS, the bytes written and ERR_ADDR,
whether its record has been placed, and whether it waits for room. -/
structure BowEnd where
  id : Nat
  words : List Word
  desc : Nat
  hseq : Nat
  gen : Nat
  status : Nat
  bytes : Nat
  err : Nat
  recorded : Bool
  stalled : Bool
  deriving DecidableEq, Repr

/-- A descriptor fetch that is out: its address, its CHAIN_TAP snapshot, whether it rereads word 0 alone, and its reissues (R336, R337). -/
structure BowFetch where
  addr : Nat
  snap : Nat
  word0 : Bool
  tries : Nat
  deriving DecidableEq, Repr

/-- An accepted host write that the Hatband has refused since, or that follows one in its block: its block, the place of its data in the
block, its instance and generation, its address and data. -/
structure BowLate where
  id : Nat
  off : Nat
  inst : Nat
  gen : Nat
  addr : Nat
  data : List Byte
  deriving DecidableEq, Repr

/-- What a Bow channel holds beside its registers: how many blocks it has started, the running block, the next one of its chain, the fetch
that is out, the blocks that have ended, oldest first, the state it left for WAIT, and the accepted host writes that failed since, with the
reissues of the first. -/
structure BowX where
  serial : Nat
  blk : Option BowBlk
  next : Option BowBlk
  fetch : Option BowFetch
  ended : List BowEnd
  back : Option Nat
  late : List BowLate
  lateTries : Nat
  deriving DecidableEq, Repr

def BowX.init : BowX := { serial := 0, blk := none, next := none, fetch := none, ended := [], back := none, late := [], lateTries := 0 }

/-- What leaves the adapter, or is seen outside it. -/
inductive Event where
  /-- A frame starts to leave MAC `mac` (its bytes without FCS). -/
  | wireTx (mac : Nat) (bytes : List Byte)
  /-- A frame that had started to leave is ended with the inverse of its FCS (R114). -/
  | fcsTerminate (e : Nat)
  /-- A posted host write that leaves under instance `inst`, with Relaxed Ordering or not, poisoned (EP = 1) or not. -/
  | hostWrite (inst addr : Nat) (data : List Byte) (relaxed ep : Bool)
  /-- A host read request under a tag of its function. -/
  | hostRead (inst tag addr len : Nat)
  /-- A translation request for a page (R223). -/
  | xlatRequest (inst tag page : Nat)
  /-- An Invalidation Completion (R223). -/
  | invCompletion (inst itag : Nat)
  /-- MSI-X vector `vec` of instance `inst` is sent: the address and data its table entry holds. -/
  | msix (inst vec addr data : Nat)
  /-- What a read of a BAR answers, poisoned (EP = 1) or not; Unsupported Request when none. -/
  | barAnswer (inst : Nat) (value : Option Word) (ep : Bool := false)
  /-- A configuration request is answered with Request Retry Status (R228). -/
  | cfgRetry (inst : Nat)
  /-- An LTR message of a PF (R226). -/
  | ltrMessage (pf : Nat) (w : Word)
  /-- The answer of a DOE mailbox to a discovery request (R211). -/
  | doeResponse (pf : Nat) (bytes : List Byte)

  /-- The auto-negotiation pages of a link: the rate in Gb/s it advertises, and whether a next page advertises the low-latency code (R189,
  R190). -/
  | anPage (m rate : Nat) (low : Bool)
  /-- An INIT frame leaves port `p`: a device ID and a FEC advertisement (R189, R198). -/
  | cueInit (p id : Nat) (low : Bool)
  /-- A Cuelrun frame leaves port `p`, stomped or not. -/
  | cueTx (p : Nat) (f : CueFrame) (stomped : Bool)
  /-- A register read by a requester answers a value. -/
  | readAnswer (req : Nat) (value : Word)
  /-- Soundpost asks the VDD_CORE regulator for a voltage in mV (R370). -/
  | avsCommand (mv : Nat)
  /-- THERMTRIP_N is asserted or released (R411, R412). -/
  | thermtrip (asserted : Bool)
  /-- SEQ_EN `k` goes high or low (R441). -/
  | seqEn (k : Nat) (high : Bool)
  /-- XSPI_RESET_N is asserted for 10 µs (R448). -/
  | xspiReset
  /-- A response on the management port: its completion code and values (R416). -/
  | mgmtResponse (code : Nat) (data : List Word)
  /-- An SPDM response of Soundpost's own (R417). -/
  | spdmResponse (bytes : List Byte)
  /-- The management port releases its bus and resets its interface (R447). -/
  | mgmtRelease
  deriving DecidableEq, Repr

/-- The instructions of the JTAG port that R422 names, and every other one by its code. -/
inductive JtagInsn where
  | bypass | idcode | samplePreload | dbgToken
  | other (code : Nat)
  deriving DecidableEq, Repr

set_option maxRecDepth 4096 in
/-- The state of the adapter. A map's unlisted entries hold that array's value after reset. -/
structure State where
  /-- The registers and elements of block space, keyed by register array and index; an unlisted one holds its reset value. -/
  regs : SMap Word
  /-- Memory by DPA: DDR5, the SRAM windows, shared and program memory (Tables 18-1 and 18-2), in canonical form. -/
  mem : List Host.Cell
  /-- The ranges of memory whose contents are undefined until written again, newest first. -/
  lost : List LostRange
  /-- The 64-byte lines of DDR5 that are poisoned (R400), by line number. -/
  poison : SMap Bool
  /-- Nanoseconds of the model's clock: one for each step on an empty queue. -/
  ns : Nat
  /-- TIME in 0.25 ns units (Table 02-12), and the fraction that PRT_TOD_ADJ leaves. -/
  time : Nat
  /-- The MODEL's own counter of free values drawn so far: the argument of the opaque constants of Config. -/
  free : Nat
  /-- What has left the adapter, newest first. -/
  out : List Event
  /-- The Soundpost edge latches of the interrupt sources (R350). -/
  latch : SMap Bool
  /-- The ERROR records each unit has written in the second it last wrote one: (second, records) (R418). -/
  errSec : SMap (Nat × Nat)
  /-- Wakes that a unit has requested of a power domain and that DOMAIN_WAKE has not yet performed (R352, R368). -/
  wakeReq : SMap Bool
  /-- Packet threads by global number (R59); an unlisted thread is as after reset. -/
  threads : SMap Thread
  /-- Control cores by number. -/
  cores : SMap Core
  /-- Channels by key: a channel ID, or for a unit channel's section 0x10000 + 16 × (ID − 0x8000) + section (R455). -/
  chans : SMap Chan
  /-- The section of each unit channel 0x8000 to 0x8003 at which its unit looks first for its next message (R455). -/
  unitPtr : SMap Nat
  /-- When the work queued on each parser engine ends, in fifths of a parser cycle since reset (R91). -/
  parBusy : SMap Nat
  /-- The polarity bits that each lane took at its link's last restart (R188). -/
  polarity : SMap Nat
  /-- Pegs by key: a global peg ID, or 0x10000 + 4096 × cluster + index for a local peg. -/
  pegs : SMap Peg
  /-- Send-port commands that wait, by control core (R77). -/
  ports : SMap PortCmd
  /-- The round-robin order of each packet core's 16 threads, by cluster × 12 + core (R60). -/
  rr : SMap (List Nat)
  /-- The frames inside the adapter, by packet handle. -/
  frames : SMap Frame
  /-- The number of handles given out so far; the next handle is this number modulo 2^24. -/
  handles : Nat
  /-- The number of frames that have come to a parser, in all. -/
  arrivals : Nat
  /-- The flow cache, by set × 8 + way (R106). -/
  fc : SMap FcSlot
  /-- The pending-miss table (R104), oldest entry first. -/
  pend : List PendEntry
  /-- The frames the action engine has accepted and not yet run, in the order it accepted them (R109). -/
  actFifo : List Nat
  /-- The frames between the action engine and admission, in the order their lists ran (R13). -/
  tmIn : List Nat
  /-- On-chip action lists 1 to 65,535; list 0 is a single END. -/
  actLists : SMap (List Word)
  /-- The 16-bit IPv4 identification counter of pushes (R111). -/
  pushId : BitVec 16
  /-- The MIRROR counts of the sessions (R112). -/
  mirrorCount : SMap Nat
  /-- The frames of each TM queue, oldest first. -/
  tmFifo : SMap (List Nat)
  /-- Shaper fractions and refill times, by TM element. -/
  tmAux : SMap BucketAux
  /-- Policer fractions and refill times, by policer. -/
  polAux : SMap BucketAux
  /-- Lookups issued and not yet completed, oldest first (R39, R118). -/
  lookups : List Lookup
  /-- The overlay of each lock slot, in the order its elements were written (R127). -/
  overlay : SMap (List OvEl)
  /-- Published elements that have not drained, in the order in which they drain (R129). -/
  draining : List OvEl
  /-- The sequence numbers of the banks' learning serializers (R131). -/
  learnSeq : SMap Nat
  /-- Parked learn requests, in SEQ order (R133). -/
  parked : List Parked
  /-- Learned entries refreshed since the scanner's last visit (R134), by slot key. -/
  emFresh : SMap Bool
  /-- The number of entries of each exact-match table. -/
  emCount : SMap Nat
  /-- Extension buckets whose own DDR5 address was written directly (R117), by bank × 2^24 + bucket. -/
  extTaint : SMap Bool
  /-- Differences that wait for their second reading (R138). -/
  tblDiffs : List TblDiff
  /-- The TCAM pass that runs has found an order violation (R138). -/
  orderSeen : Bool
  /-- The key store: the key material of a context, which has no address. -/
  keys : SMap (List Byte)
  /-- The command that runs in the key loading window. -/
  klwCmd : Option KlwCmd
  /-- The csub requests in the engine, oldest first. -/
  csubs : List CsubJob
  /-- Clause 73 negotiations that found no common rate (AN_FAIL, Table 08-2), by link. -/
  anFail : SMap Nat
  /-- Ports whose PLL, or a lane's TX PLL, has lost lock (R375). -/
  portPll : SMap Bool
  /-- The PTP timestamp FIFO of each MAC, head first: the words PRT_TS_HEAD and PRT_TS_TIME show (R196). -/
  tsFifo : SMap (List (Word × Word))
  /-- The Cuelrun ports. -/
  cue : SMap CuePort
  /-- Requests and responses delivered to this adapter and not yet handled: the port and the frame (R201). -/
  peerIn : List (Nat × CueFrame)
  /-- Outstanding Cuelrun READs and their tags (R205). -/
  cueReads : List CueRead
  /-- The number of Cuelrun READs issued, from which tags are taken. -/
  cueTags : Nat
  /-- When each peer window was last committed, plus 1, in model nanoseconds; 0 before any commit (R207). -/
  winCommit : SMap Nat
  /-- The PCIE_SPLIT balls (R209). -/
  strapBalls : Nat
  /-- The configuration spaces of the functions, by instance. -/
  funcs : SMap Func
  /-- Functions that answer configuration requests with Request Retry Status while a reset runs (Table 09-9). -/
  rrs : SMap Bool
  /-- The MSI-X tables, as 4-byte words: instance × 8,192 + word; word 3 of a vector is its Vector Control. -/
  msixTab : SMap Nat
  /-- The MSI-X pending bits: instance × 2,048 + vector. -/
  msixPba : SMap Bool
  /-- The host reads that have not been handed to their issuers, oldest first. -/
  hreads : List HostRead
  /-- The number of host reads issued. -/
  hreadCount : Nat
  /-- The read-tracking entries held (R216). -/
  entries : List ReadEntry
  /-- The number of entries taken so far. -/
  entryCount : Nat
  /-- The posted host writes that wait, by instance, oldest first. -/
  hwq : SMap (List HostWrite)
  /-- Cached translations, oldest first. -/
  atsCache : List AtsEntry
  /-- Invalidations not yet completed. -/
  atsInv : List AtsInv
  /-- The DOE mailboxes of the PFs. -/
  doe : SMap DoeBox
  /-- The IDE streams in the Secure state. -/
  ideSecure : SMap Bool
  /-- The dark period of a warm restart (R229). -/
  dark : Bool
  /-- Doorbell values kept in the dark period: instance × 768 + 256 × kind + ring, the last value written. -/
  darkDb : SMap Word
  /-- The pages that the page log has logged since the filter was cleared: instance × 2^52 + page (R297). -/
  logFilter : SMap Bool
  /-- The consumer index of each page log, as last read (R296). -/
  logCons : SMap Nat
  /-- What each ring holds beside its element: SQ n at n, RQ n at 65,536 + n, CQ n at 131,072 + n. -/
  ringx : SMap RingX
  /-- Transmit jobs started and not retired. -/
  txJobs : SMap TxJob
  /-- The number of transmit jobs started. -/
  txCount : Nat
  /-- Transmit jobs with TS_REQ whose frame has left (with its egress stamp) or has been dropped. -/
  txGone : List (Nat × Option Word)
  /-- The completions in the holding area of each CQ, oldest first (R248). -/
  held : SMap (List CplRec)
  /-- The completions that wait for room in a holding area, by CQ, oldest first (R248). -/
  stalled : SMap (List CplRec)
  /-- The Fuller's TIME wait of each CQ: 0 not started, 1 running, 2 over (R250). -/
  fullerT : SMap Nat
  /-- The frames the TM has handed to the host controllers and the HQE has not written, in the order it handed them. -/
  hostOut : List Nat
  /-- The microcode contexts, by number. -/
  uc : SMap UcCtx
  /-- The scratch of the lanes: lane × 16,384 + address. -/
  ucScratch : List Host.Cell
  /-- The context of each lane that issued last. -/
  ucLast : SMap Nat
  /-- Patch RAM, by word: the four words of a microword, the same in all 8 replicas but for the copies that have gone bad. -/
  ucPatch : SMap (List Word)
  /-- The words of the control store whose copy in a replica is uncorrectable, by replica × 32,768 + microaddress (R256, R257). -/
  ucBad : SMap Bool
  /-- The regime last written to HQE_MODE, which each context takes at its next safe point (R261). -/
  ucRegime : Nat
  /-- The address and length with which the patch load that runs was started (R267). -/
  patchJob : Nat × Nat
  /-- The doorbell queue of each ring, oldest first, by ring key (R255). -/
  ucDoorbells : SMap (List Word)
  /-- How often the generation of each instance has been incremented: CAPO_INST_STATUS.GEN is this number modulo 65,536, and what an
  older generation marked stays an orphan for good (R271, R284). -/
  genCount : SMap Nat
  /-- Instances whose reset ends in OFF (Table 12-1). -/
  capoOff : SMap Bool
  /-- Instances whose reset a fall of CC.EN has started: RDY clears at its end (R301). -/
  ccReset : SMap Bool
  /-- The NVMe I/O commands the adapter holds, by number in the order they were fetched. -/
  stoCmds : SMap StoCmd
  /-- The number of NVMe I/O commands fetched. -/
  stoCount : Nat
  /-- What each storage connection holds beside its element. -/
  connx : SMap ConnX
  /-- What each Bow channel holds beside its registers. -/
  bow : SMap BowX
  /-- The channel that each value of PRIO looks at first for its next read (R324). -/
  bowPtr : SMap Nat
  /-- The redirect hold of each source: 0 none, 1 running, 2 expired (R352). -/
  icuHold : SMap Nat
  /-- Each core's running-priority stack, top first: (priority, source) (R355). -/
  icuStack : SMap (List (Nat × Nat))
  /-- The depth that each domain is entering (R366, R367). -/
  pwrTarget : SMap Nat
  /-- The entry of a domain was asked for by PWR_DOM_CTL.REQUEST. -/
  pwrByReq : SMap Bool
  /-- The wake of a domain reverses an entry (R369). -/
  pwrRev : SMap Bool
  /-- Nanoseconds spent at each depth until the last change, by domain × 8 + depth (RESIDENCY). -/
  pwrNs : SMap Nat
  /-- When the depth of a domain last changed, in model nanoseconds. -/
  pwrSince : SMap Nat
  /-- The ns for which a domain's clocks had run when it was last reset (R47, CYCLE). -/
  clkBase : SMap Nat
  /-- DDR5 channels that a depth of their MEM domain has put in self-refresh (R399). -/
  pwrSelfRef : SMap Bool
  /-- The voltage of VDD_CORE that Soundpost has set, in mV; the regulator starts at 750 (R370). -/
  vddCore : Nat
  /-- What holds the die in reset (R380, R412, R439, R441): 0 PERST0_N low, 1 TEST_MODE high, 2 a thermal trip, 3 a fuse fault, 4 rails not
  yet sequenced, 10 + rail: that rail out of range, 20 + n: the PLL of that number without lock. -/
  hold : SMap Bool
  /-- When the last fundamental reset was, in model nanoseconds. -/
  resetNs : Nat
  /-- When PERST0_N last deasserted or the warm restart was requested, in model nanoseconds (SP_BOOT_STATUS.ELAPSED). -/
  bootNs : Nat
  /-- Where a warm restart stands: 0 none, 1 quiesce and drain, 2 dark and verifying, 3 rebuilding (Table 17-7). -/
  warm : Nat
  /-- The warm restart was started by Soundpost. -/
  warmSp : Bool
  /-- Instances whose reset waits for step 6 of a warm restart (R391). -/
  warmFlr : SMap Bool
  /-- The DICE engine holds a CDI and an alias key (R425, R426). -/
  diceKeys : Bool
  /-- SP_DICE_SEAL has been written since the last boot or warm restart (R426). -/
  diceSealed : Bool
  /-- What the CDI was derived from: the image digest D, SVN, KEY_SLOT and the debug state (R425). -/
  diceD : List Byte
  diceSvn : Nat
  diceSlot : Nat
  diceDebug : Bool
  /-- The digest of the loaded HQE patch (Table 19-7), empty for none. -/
  measPatch : List Byte
  /-- The PLDM terminus ID (R416). -/
  tid : Nat
  /-- SPDM requests that firmware has not taken, oldest first: secured or not, and the bytes (R417). -/
  spdmBox : List (Bool × List Byte)
  /-- When the watchdog's count last started, in model nanoseconds, and whether a warm restart pauses it (R419). -/
  wdogNs : Nat
  wdogHeld : Bool
  /-- SP_DBG_CHAL holds a challenge that no check has used (R423). -/
  chalValid : Bool
  /-- The instruction in force at the JTAG port (R422, R449). -/
  jtagIr : JtagInsn
  /-- An entropy health test has failed since the last fundamental reset (R431). -/
  rngDead : Bool
  /-- Soundpost's self-tests have failed since the last fundamental reset (R430). -/
  spTestFail : Bool
  /-- DRBG requests since the last reseed (R430). -/
  drbgCount : Nat
  /-- Steps of the supply sequence still to come: 0 when every rail is up (R441). -/
  seqLeft : Nat
  /-- The commands that wait, first in, first out. -/
  pending : List Instr
  deriving DecidableEq, Repr

/-- Why a run stops with a fault. No command of the model raises one at present: the spec gives every command an effect. -/
inductive Fault where
  /-- Reserved for a command to which the spec gives no effect; no meaning raises it. Safe: the run stops. -/
  | noEffectStated
  deriving DecidableEq, Repr

/-- Why a command is refused. -/
inductive Refusal where
  /-- The dispatch raises it for a command that has no meaning yet. Safe: the run stops. -/
  | notModelled (mnemonic : String)
  deriving DecidableEq, Repr

/-- The machine right after fundamental reset: every array unlisted, so every register at its reset value, nothing in memory,
every thread halted and no command waiting. -/
def State.reset : State :=
  { regs := [],
    mem := [],
    lost := [],
    poison := [],
    ns := 0,
    time := 0,
    free := 0,
    out := [],
    latch := [],
    errSec := [],
    wakeReq := [],
    threads := [],
    cores := [],
    chans := [],
    unitPtr := [],
    parBusy := [],
    polarity := [],
    pegs := [],
    ports := [],
    rr := [],
    frames := [],
    handles := 0,
    arrivals := 0,
    fc := [],
    pend := [],
    actFifo := [],
    tmIn := [],
    actLists := [],
    pushId := 0,
    mirrorCount := [],
    tmFifo := [],
    tmAux := [],
    polAux := [],
    lookups := [],
    overlay := [],
    draining := [],
    learnSeq := [],
    parked := [],
    emFresh := [],
    emCount := [],
    extTaint := [],
    tblDiffs := [],
    orderSeen := false,
    keys := [],
    klwCmd := none,
    csubs := [],
    anFail := [],
    portPll := [],
    tsFifo := [],
    cue := [],
    peerIn := [],
    cueReads := [],
    cueTags := 0,
    winCommit := [],
    strapBalls := 0,
    funcs := [],
    rrs := [],
    msixTab := [],
    msixPba := [],
    hreads := [],
    hreadCount := 0,
    entries := [],
    entryCount := 0,
    hwq := [],
    atsCache := [],
    atsInv := [],
    doe := [],
    ideSecure := [],
    dark := false,
    darkDb := [],
    logFilter := [],
    logCons := [],
    ringx := [],
    txJobs := [],
    txCount := 0,
    txGone := [],
    held := [],
    stalled := [],
    fullerT := [],
    hostOut := [],
    uc := [],
    ucScratch := [],
    ucLast := [],
    ucPatch := [],
    ucBad := [],
    ucRegime := 1,
    patchJob := (0, 0),
    ucDoorbells := [],
    genCount := [],
    capoOff := [],
    ccReset := [],
    stoCmds := [],
    stoCount := 0,
    connx := [],
    bow := [],
    bowPtr := [],
    icuHold := [],
    icuStack := [],
    pwrTarget := [],
    pwrByReq := [],
    pwrRev := [],
    pwrNs := [],
    pwrSince := [],
    clkBase := [],
    pwrSelfRef := [],
    vddCore := 750,
    hold := [],
    resetNs := 0,
    bootNs := 0,
    warm := 0,
    warmSp := false,
    warmFlr := [],
    diceKeys := false,
    diceSealed := false,
    diceD := [],
    diceSvn := 0,
    diceSlot := 0,
    diceDebug := false,
    measPatch := [],
    tid := 0,
    spdmBox := [],
    wdogNs := 0,
    wdogHeld := false,
    chalValid := false,
    jtagIr := .idcode,
    rngDead := false,
    spTestFail := false,
    drbgCount := 0,
    seqLeft := 0,
    pending := [] }

end Sys2Proof.Machine
end

