-- ==== Sys2Proof/Machine/Ops.lean ====
section
/-! DEFINITION. The named operations that every meaning uses: registers and their fields, counters, access types, free values,
interrupt edges, what leaves the adapter, and byte memory by DPA. -/

namespace Sys2Proof.Machine

/-- The outcome of a step. -/
abbrev Out := Host.Outcome State Fault Refusal

/-! ### Registers -/

/-- The key of element `i` of a register array. -/
def RegDesc.key (r : RegDesc) (i : Nat) : Nat := r.rid * 2 ^ 40 + i

/-- Flat index of element `j` of the inner dimension `n` in row `i`. -/
def ix2 (n i j : Nat) : Nat := i * n + j

/-- A register's value, or its reset value while nothing has changed it. -/
def State.rd (s : State) (r : RegDesc) (i : Nat) : Word := mget (resetValue r i) s.regs (r.key i)

/-- The state with a register holding `v`. -/
def State.wr (s : State) (r : RegDesc) (i : Nat) (v : Word) : State :=
  { s with regs := mset (resetValue r i) s.regs (r.key i) v }

/-- The bits of a field. -/
def Field.mask (f : Field) : Word := (BitVec.allOnes 64 >>> (64 - f.w)) <<< f.lo

/-- A field's value, as a number. -/
def State.fget (s : State) (f : Field) (i : Nat := 0) : Nat := ((s.rd f.reg i).toNat >>> f.lo) % 2 ^ f.w

/-- A one-bit field, as a Boolean. -/
def State.fbit (s : State) (f : Field) (i : Nat := 0) : Bool := s.fget f i != 0

/-- The word `old` with field `f` set to `v`. -/
def Field.ins (f : Field) (old : Word) (v : Nat) : Word :=
  (old &&& ~~~f.mask) ||| ((BitVec.ofNat 64 v <<< f.lo) &&& f.mask)

/-- The state with a field set to `v` modulo its width. -/
def State.fset (s : State) (f : Field) (i : Nat) (v : Nat) : State := s.wr f.reg i (f.ins (s.rd f.reg i) v)

/-- A field of a word that is not in the register file: a value being written. -/
def Field.of (f : Field) (w : Word) : Nat := (w.toNat >>> f.lo) % 2 ^ f.w

/-- A field plus `n`, saturating at all ones (counters of access RC). -/
def State.fadd (s : State) (f : Field) (i n : Nat) : State := s.fset f i (min (s.fget f i + n) (2 ^ f.w - 1))

/-- A counter plus one, saturating. -/
def State.bump (s : State) (f : Field) (i : Nat := 0) : State := s.fadd f i 1

/-- A field plus one, wrapping. -/
def State.finc (s : State) (f : Field) (i : Nat := 0) : State := s.fset f i (s.fget f i + 1)

/-- A field less `n`, never below zero. -/
def State.fsub (s : State) (f : Field) (i n : Nat) : State := s.fset f i (s.fget f i - n)

/-! ### Access types (R7, R8) -/

/-- The bits of a field by its descriptor. -/
def FieldDesc.mask (f : FieldDesc) : Word := (BitVec.allOnes 64 >>> (64 - f.w)) <<< f.lo

/-- What a write leaves in the bits of one field (Table 00-4); `locked` is the block's lock bit. -/
def writeField (locked : Bool) (new : Word) (old : Word) (f : FieldDesc) : Word :=
  let keep := old &&& ~~~f.mask
  match f.acc with
  | .rw | .wo | .wok | .rws => keep ||| (new &&& f.mask)
  | .rwl => if locked then old else keep ||| (new &&& f.mask)
  | .ro | .rc => old
  | .w1c => old &&& ~~~(new &&& f.mask)
  | .w1s => old ||| (new &&& f.mask)

/-- What a write of `new` leaves in a register: every field by its access type, reserved bits unchanged (R7). -/
def writeFields (locked : Bool) (r : RegDesc) (old new : Word) : Word := r.fields.foldl (writeField locked new) old

/-- What a read returns: WO and WOK fields read zero. -/
def readFields (r : RegDesc) (v : Word) : Word :=
  r.fields.foldl (fun a f => match f.acc with | .wo | .wok => a | _ => a ||| (v &&& f.mask)) 0

/-- What a read leaves behind: RC fields clear. -/
def clearRc (r : RegDesc) (v : Word) : Word :=
  r.fields.foldl (fun a f => match f.acc with | .rc => a &&& ~~~f.mask | _ => a) v

/-- Whether the bits that a write reaches, `m`, hold any of a register's RWL fields. -/
def hasRwl (r : RegDesc) (m : Word) : Bool := r.fields.any fun f => match f.acc with | .rwl => f.mask &&& m != 0 | _ => false

/-! ### Free values, edges and outputs -/

/-- A free word and the state that has drawn it. -/
def State.drawWord (s : State) : Word × State := (Config.freeWord s.free, { s with free := s.free + 1 })
/-- A free choice and the state that has drawn it. -/
def State.drawBool (s : State) : Bool × State := (Config.freeBool s.free, { s with free := s.free + 1 })
/-- A free number and the state that has drawn it. -/
def State.drawNat (s : State) : Nat × State := (Config.freeNat s.free, { s with free := s.free + 1 })

/-- One of several things, which one the spec leaves to the adapter: a free choice; none of an empty list. -/
def State.pick (s : State) (l : List Nat) : Option (Nat × State) :=
  let (n, t) := s.drawNat
  (l[n % l.length]?).map fun x => (x, t)

/-- An edge of an interrupt source is captured in its Soundpost latch (R350). -/
def State.irq (s : State) (src : Nat) : State := { s with latch := mset false s.latch src true }

/-- Something leaves the adapter. -/
def State.emit (s : State) (e : Event) : State := { s with out := e :: s.out }

/-- A unit requests a wake of a power domain (R352, R368). -/
def State.requestWake (s : State) (dom : Nat) : State := { s with wakeReq := mset false s.wakeReq dom true }

/-! ### The crash log (R418, R432) -/

/-- SP32K ticks since VDD_AO came up, by the model's clock. -/
def State.spTicks (s : State) : Nat := s.ns * 32768 / 10 ^ 9

/-- A record goes to the crash log's ring (Table 19-4). -/
def State.crashPut (s : State) (kind unit code : Nat) (info0 info1 : Word) : State :=
  let slot := s.fget Fld.SP_LOG_STATUS_HEAD 0
  let w0 := fieldAt (s.fget Fld.SP_LOG_STATUS_SEQ 0) 48 ||| fieldAt (kind % 256) 40 ||| fieldAt (unit % 256) 32 |||
    fieldAt (code % 2 ^ 32) 0
  let old := s.rd Reg.SP_LOG_WIN (ix2 4 slot 0)
  let s := if bits old 47 40 != 0 then s.fset Fld.SP_LOG_STATUS_WRAPPED 0 1 else s
  let s := s.wr Reg.SP_LOG_WIN (ix2 4 slot 0) w0
  let s := s.wr Reg.SP_LOG_WIN (ix2 4 slot 1) (BitVec.ofNat 64 s.spTicks)
  let s := s.wr Reg.SP_LOG_WIN (ix2 4 slot 2) info0
  let s := s.wr Reg.SP_LOG_WIN (ix2 4 slot 3) info1
  (s.finc Fld.SP_LOG_STATUS_SEQ 0).finc Fld.SP_LOG_STATUS_HEAD 0

/-- A crash-log record. Records of KIND 0x06 beyond 64 in one second of one UNIT are counted in SUPPRESSED instead (R418). -/
def State.crashLog (s : State) (kind unit code : Nat) (info0 info1 : Word) : State :=
  if kind = 6 then
    let now := s.ns / 10 ^ 9
    let (sec, n) := mget (0, 0) s.errSec unit
    let n := if sec = now then n else 0
    if 64 ≤ n then s.fadd Fld.SP_LOG_STATUS_SUPPRESSED 0 1
    else { s with errSec := mset (0, 0) s.errSec unit (now, n + 1) }.crashPut kind unit code info0 info1
  else s.crashPut kind unit code info0 info1

/-- A unit reports an error event of a class (0 corrected, 1 contained, 2 recovered, 3 fatal): counted in SP_ERR_COUNT and, but for
a corrected one, recorded (R432). INFO0 is the unit's cause code, by the codes of the unit's own status field where it has one (log 59). -/
def State.errReport (s : State) (cls unit code : Nat) (info : Word) : State :=
  let s := s.bump Fld.SP_ERR_COUNT_COUNT cls
  if cls = 0 then s else s.crashLog 6 unit cls (BitVec.ofNat 64 code) info

/-! ### Byte memory by DPA -/

/-- The interleaving hash of a DDR5 address (R398). -/
def ddrHash (a : Nat) : Nat := (a >>> 8) % 8 ^^^ (a >>> 18) % 8 ^^^ (a >>> 28) % 8

/-- Whether a lost range covers an address. -/
def LostRange.covers (r : LostRange) (a : Nat) : Bool :=
  decide (r.lo ≤ a) && decide (a < r.hi) && (match r.part with | none => true | some (n, k) => ddrHash a % n == k)

/-- What an unlisted address reads as: zero (DESIGN CHOICE, log entry 2), or, where the spec calls the contents undefined, a free
byte of the latest event that covers it (R398, R402). -/
def memBase (lost : List LostRange) (a : Nat) : Byte :=
  match lost.find? fun r => r.covers a with
  | none => 0
  | some r => Config.lostByte r.n a

/-- The byte at a DPA. -/
def State.memByte (s : State) (a : Nat) : Byte := mget (memBase s.lost a) s.mem a

/-- The state with one byte stored at a DPA. -/
def State.memPut (s : State) (a : Nat) (b : Byte) : State := { s with mem := mset (memBase s.lost a) s.mem a b }

/-- The canonical form of the state's memory. -/
abbrev State.memOk (s : State) : Prop := memWf (memBase s.lost) s.mem

/-- The bytes at a DPA. -/
def State.memBytes (s : State) (a n : Nat) : List Byte := (List.range n).map fun i => s.memByte (a + i)

/-- The little-endian number in `n` bytes at a DPA (R5). -/
def State.memN (s : State) (a n : Nat) : Nat := leNat (s.memBytes a n)

/-- The little-endian word at a DPA. -/
def State.mem64 (s : State) (a : Nat) : Word := BitVec.ofNat 64 (s.memN a 8)

/-- Bytes stored one after another from a DPA on. -/
def State.memPuts : State → Nat → List Byte → State
  | s, _, [] => s
  | s, a, b :: bs => State.memPuts (s.memPut a b) (a + 1) bs

/-- Whether a line reads as poisoned while no event has set or cleared its mark. -/
def poisonBase (lost : List LostRange) (line : Nat) : Bool :=
  match lost.find? fun r => r.covers (64 * line) with
  | none => false
  | some r => !r.ecc && Config.lostPoison r.n line

/-- A line's poison mark is set or cleared. -/
def State.setPoison (s : State) (line : Nat) (b : Bool) : State :=
  { s with poison := mset (poisonBase s.lost line) s.poison line b }

/-- The state with bytes stored at a DPA. A write of a whole 64-byte line clears its poison (R400). -/
def State.storeBytes (s : State) (a : Nat) (bs : List Byte) : State :=
  let first := (a + 63) / 64
  let last := (a + bs.length) / 64
  (List.range (last - first)).foldl (fun s i => s.setPoison (first + i) false) (s.memPuts a bs)

/-- Whether any line that `n` bytes at a DPA touch is poisoned (R400). -/
def State.poisoned (s : State) (a n : Nat) : Bool :=
  (List.range ((a + n + 63) / 64 - a / 64)).any fun i => mget (poisonBase s.lost (a / 64 + i)) s.poison (a / 64 + i)

/-- The contents of what a lost range covers become undefined: nothing of it stays listed. -/
def State.lose (s : State) (r : LostRange) : State :=
  { s with
    lost := r :: s.lost,
    free := s.free + 1,
    mem := s.mem.filter fun c => !r.covers c.1,
    poison := s.poison.filter fun c => !r.covers (64 * c.1) }

/-- The contents of a range become undefined (R398, R402, R404). -/
def State.loseRange (s : State) (lo hi : Nat) (ecc : Bool) : State := s.lose ⟨lo, hi, s.free, ecc, none⟩

/-- The current generation of an instance, as everything of it is marked: the count of its increments, of which GEN shows 16 bits. An
orphan therefore stays one (R271, R284). -/
def State.gen (s : State) (i : Nat) : Nat := mget 0 s.genCount i

/-- The depth of a domain, and when it began. -/
def State.depth (s : State) (d : Nat) : Nat := s.fget Fld.PWR_DOM_STATUS_DEPTH d
def State.depthSince (s : State) (d : Nat) : Nat := max s.resetNs (mget 0 s.pwrSince d)

/-- The ns for which the clocks of a domain have run: those it has spent at depth 0 (Table 16-2). -/
def State.clkRun (s : State) (d : Nat) : Nat := mget 0 s.pwrNs (8 * d) + (if s.depth d = 0 then s.ns - s.depthSince d else 0)

/-- The same since the domain's last reset; a domain is reset; every cluster and every pair of control cores is. -/
def State.clkNs (s : State) (d : Nat) : Nat := s.clkRun d - mget 0 s.clkBase d
def State.clkRestart (s : State) (d : Nat) : State := { s with clkBase := mset 0 s.clkBase d (s.clkRun d) }
def State.clkRestarts (s : State) : State := (List.range 16).foldl (fun s k => s.clkRestart (6 + k)) s

/-- The bad copies of ROM words of the control store, which nothing mends (R257). -/
def State.romBad (s : State) : SMap Bool := s.ucBad.filter fun c => decide (c.1 % 32768 < 0x4000)

end Sys2Proof.Machine
end

