-- ==== Sys2Proof/Machine/Chans.lean ====
section
/-! DEFINITION. Channels: words, reservation, commit and unit messages (R67 to R73, R455), and header-vector bytes (R24). -/

namespace Sys2Proof.Machine

/-! ### Header-vector bytes (R24: byte 8k of the vector is bits [63:56] of view hvk) -/

/-- Header-vector byte `i`; a byte past 511 reads zero (R97). -/
def hvByte (hv : Vector Word 64) (i : Nat) : Byte := ((hv[i / 8]?).getD 0).extractLsb' (56 - 8 * (i % 8)) 8

/-- The header vector with byte `i` set. -/
def hvSet (hv : Vector Word 64) (i : Nat) (b : Byte) : Vector Word 64 :=
  let w := (hv[i / 8]?).getD 0
  let sh := 56 - 8 * (i % 8)
  hv.setIfInBounds (i / 8) ((w &&& ~~~(BitVec.ofNat 64 (0xFF <<< sh))) ||| BitVec.ofNat 64 (b.toNat <<< sh))

/-- The header vector with bytes stored from byte `i` on. -/
def hvSetBytes : Vector Word 64 → Nat → List Byte → Vector Word 64
  | hv, _, [] => hv
  | hv, i, b :: bs => hvSetBytes (hvSet hv i b) (i + 1) bs

/-- The number that `n` header-vector bytes from `i` spell in network order. -/
def hvNat (hv : Vector Word 64) (i n : Nat) : Nat := beNat ((List.range n).map fun j => hvByte hv (i + j))

/-! ### Channel words -/

/-- The channel with a key. -/
def State.chan (s : State) (k : Nat) : Chan := mget Chan.init s.chans k

/-- The state with a channel replaced. -/
def State.setChan (s : State) (k : Nat) (c : Chan) : State := { s with chans := mset Chan.init s.chans k c }

/-- A channel ID that R32 names: a cluster channel or a system channel. -/
def chanValid (id : Nat) : Bool := id < 0x4000 || (0x8000 ≤ id && id ≤ 0x87FF)

/-- A unit channel (Table 03-2). -/
def chanIsUnit (id : Nat) : Bool := 0x8000 ≤ id && id ≤ 0x803F

/-- The key under which writers of section `sec` find a channel: unit channels have one section per cluster and one, number 8, in
block PEG (R455). -/
def chanKey (id sec : Nat) : Nat := if 0x8000 ≤ id && id ≤ 0x8003 then 0x10000 + 16 * (id - 0x8000) + sec else id

/-- The words of committed messages. -/
def Chan.committed (c : Chan) : Nat := (c.msgs.map fun m => m.words.length).sum

/-- The unreserved words of a channel's 32 (R68). -/
def Chan.room (c : Chan) : Nat := 32 - c.committed - c.reserved

/-- Whether a cluster channel is in use: CLU_CHAN_CFG.EN, and always 1 for index 0x000 (R74). -/
def State.chanEn (s : State) (id : Nat) : Bool := id % 2048 == 0 || s.fbit Fld.CLU_CHAN_CFG_EN id

/-- Whether a unit's message is committed as it comes: it fits, and none that waits does (R68). -/
def Chan.takesUnit (c : Chan) (m : Msg) : Bool :=
  (c.units.all fun u => decide (c.room < u.words.length)) && decide (m.words.length ≤ c.room)

/-- A unit commits a message whole as soon as the channel has room for it; until then the message waits in its own entry (R68). -/
def Chan.unitSend (c : Chan) (m : Msg) : Chan :=
  if c.takesUnit m then { c with msgs := c.msgs ++ [m] } else { c with units := c.units ++ [m] }

/-- A fixed-function unit sends a message to a channel by key (R68). -/
def State.unitSend (s : State) (k : Nat) (m : Msg) : State := s.setChan k ((s.chan k).unitSend m)

/-- A unit's message to a cluster channel: discarded and counted in DROPPED where EN = 0 (R73). An ID that names no cluster channel
takes nothing. -/
def State.unitReply (s : State) (id : Nat) (m : Msg) : State :=
  if 0x4000 ≤ id then s
  else if s.chanEn id then s.unitSend id m
  else s.bump Fld.CLU_CHAN_STATUS_DROPPED id

/-- The notices of a source that wait for room, in whatever channel they were sent to: the unit's notice queue. -/
def State.noticesWaiting (s : State) (src : Nat) : Nat :=
  (s.chans.map fun p => (p.2.units.filter fun u => u.note && u.src == src).length).sum

/-- A notice of a unit to a cluster channel. It waits in the unit's queue of `cap` entries only while the channel is full; a notice
that finds the queue full, or that has no channel, is counted by `lost` and discarded (R102, R135, R178). -/
def State.notice (s : State) (id cap : Nat) (m : Msg) (lost : Field) : State :=
  let m := { m with note := true }
  let full := !(s.chan id).takesUnit m && decide (cap ≤ s.noticesWaiting m.src)
  if id = 0 || 0x4000 ≤ id || (s.chanEn id && full) then s.bump lost else s.unitReply id m

/-- The oldest waiting unit message that fits is committed (R68): the message, and the channel then. -/
def Chan.commitUnit (c : Chan) : Option (Msg × Chan) :=
  match c.units.find? fun u => decide (u.words.length ≤ c.room) with
  | none => none
  | some u => some (u, { c with units := c.units.erase u, msgs := c.msgs ++ [u] })

/-! ### Unit channels (R455) -/

/-- The section of a unit channel whose turn it is: the first that holds a committed message, from the unit's pointer on. -/
def State.unitTurn (s : State) (id : Nat) : Option Nat :=
  let p := mget 0 s.unitPtr (id - 0x8000)
  ((List.range 9).map fun i => (p + i) % 9).find? fun sec => !(s.chan (chanKey id sec)).msgs.isEmpty

/-- The first message of a section of a unit channel is taken, if it is the section's turn; the pointer moves past the section. -/
def State.takeUnit (s : State) (id sec : Nat) : Option (Msg × State) :=
  let k := chanKey id sec
  let c := s.chan k
  match s.unitTurn id == some sec, c.msgs with
  | true, m :: rest => some (m, { s.setChan k { c with msgs := rest } with unitPtr := mset 0 s.unitPtr (id - 0x8000) ((sec + 1) % 9) })
  | _, _ => none

/-- The source ID of a fixed-function unit (R32). -/
def unitSrc (code : Nat) : Nat := 0xF000 + code

end Sys2Proof.Machine
end

