-- ==== Sys2Proof/Machine/Frames.lean ====
section
/-! DEFINITION. Frames inside the adapter: their handles, the cells they hold, the pending-miss table, and dispatch to threads
(R103 to R105, R153, R456). -/

namespace Sys2Proof.Machine

/-- The frame with a handle. -/
def State.frame? (s : State) (h : Nat) : Option Frame := mfind s.frames h

/-- The state with a frame replaced. -/
def State.setFrame (s : State) (h : Nat) (f : Frame) : State := { s with frames := mput s.frames h f }

/-- The length of a frame including FCS. -/
def Frame.lenFcs (f : Frame) : Nat := f.bytes.length + 4

/-- The 256-byte cells of a frame of `len` bytes including FCS. -/
def cellsOf (len : Nat) : Nat := (len + 255) / 256

/-! ### Layer slots (Table 04-4): slots 1 to 4 at header-vector bytes 16 to 23, 5 to 7 and PARSE_END (8) at 32 to 39 -/

/-- The header-vector byte of a layer slot. -/
def layerByte (slot : Nat) : Nat := if slot ≤ 4 then 16 + 2 * (slot - 1) else 32 + 2 * (slot - 5)
/-- The offset in a layer slot, unless the layer is absent. -/
def hvLayer (hv : Vector Word 64) (slot : Nat) : Option Nat :=
  let v := hvNat hv (layerByte slot) 2
  if v = 0xFFFF then none else some v
/-- The header vector with a layer slot set. -/
def hvSetLayer (hv : Vector Word 64) (slot : Nat) (o : Option Nat) : Vector Word 64 :=
  hvSetBytes hv (layerByte slot) (natBE 2 (o.getD 0xFFFF))
/-- A header vector that is zero but for its layer slots, all absent. -/
def hvBlank : Vector Word 64 := (List.range 7).foldl (fun hv i => hvSetLayer hv (i + 1) none) (Vector.replicate 64 0)

/-- A frame as it enters: not parsed, holding its cells of the ingress region (R153). -/
def Frame.fresh (bytes : List Byte) (src inst gen : Nat) (start : Nat) : Frame :=
  { bytes := bytes, src := src, inst := inst, gen := gen, ring := 0, job := none, recirc := 0, ts := 0, macsec := false,
    hv := hvBlank, profile := 0, key := [], hash := 0, queue := none, cipher := none, storeFwd := false, copy := false,
    stage := .parse start, cells := cellsOf (bytes.length + 4), charge := .ingress, chargeInst := inst, qgen := 0, late := 0, arr := 0,
    handed := none, inRate := 1600, passed := false, tx := none, back := false }

/-! ### Cells (R153 to R155, R158): every pool is counted from the frames that hold it -/

/-- The cells that frames with a property hold. -/
def State.cellsHeld (s : State) (p : Frame → Bool) : Nat := ((s.frames.filter fun c => p c.2).map fun c => c.2.cells).sum

/-- INGRESS_CELLS; values outside 16,384 to 262,144 act as the nearer limit. -/
def ingressCells (v : Nat) : Nat := min 262144 (max 16384 v)
def State.ingressCap (s : State) : Nat := ingressCells (s.fget Fld.TM_CFG_INGRESS_CELLS 0)
/-- ING_FREE: the free cells of the ingress region. -/
def State.ingFree (s : State) : Nat := s.ingressCap - s.cellsHeld fun f => f.charge == .ingress
/-- RESV_USED, SHARED_USED and OVF_USED of an instance. -/
def State.resvUsed (s : State) (i : Nat) : Nat := s.cellsHeld fun f => f.charge == .resv && f.chargeInst == i
def State.sharedUsed (s : State) (i : Nat) : Nat := s.cellsHeld fun f => f.charge == .shared && f.chargeInst == i
def State.ovfUsed (s : State) (i : Nat) : Nat := s.cellsHeld fun f => f.charge == .overflow && f.chargeInst == i

/-- The indices of a register array that hold something else than the reset value. -/
def State.listed (s : State) (r : RegDesc) : List Nat :=
  s.regs.filterMap fun c => if r.key 0 ≤ c.1 ∧ c.1 < r.key (2 ^ 40) then some (c.1 - r.key 0) else none

/-- RESV_TOTAL: the sum of RESV over all instances. -/
def State.resvTotal (s : State) : Nat := ((s.listed Reg.TM_INST_BUF).map fun i => s.fget Fld.TM_INST_BUF_RESV i).sum
/-- The cells the reservations keep from the shared pool: the larger of RESV and RESV_USED of each instance (R155). -/
def State.resvKept (s : State) : Nat :=
  let insts := ((s.frames.filter fun c => c.2.charge == .resv).map fun c => c.2.chargeInst).eraseDups
  s.resvTotal + (insts.map fun i => s.resvUsed i - s.fget Fld.TM_INST_BUF_RESV i).sum
/-- SHARED_FREE: the free cells of the shared pool. -/
def State.sharedFree (s : State) : Nat :=
  524288 - s.ingressCap - s.resvKept - s.cellsHeld fun f => f.charge == .shared

/-- A frame leaves the thread path: its pending entry retires when it was the last (R104). -/
def State.leavePath (s : State) (h : Nat) : State :=
  { s with pend := (s.pend.map fun e => { e with frames := e.frames.erase h }).filter fun e => !e.frames.isEmpty }

/-- A frame has been orphaned: its own instance, or that of the queue it was admitted to, has another generation now (R271, R282). -/
def State.frameOrphan (s : State) (f : Frame) : Bool := f.gen != s.gen f.inst || f.qgen != s.gen f.chargeInst

/-- A frame is no more in the adapter: its cells are freed and nothing waits for it any longer. -/
def State.freeFrame (s : State) (h : Nat) : State :=
  match s.frame? h with
  | none => s
  | some f =>
    { s.leavePath h with
      frames := merase s.frames h
      tmFifo := match f.stage with | .queued q => mset [] s.tmFifo q ((mget [] s.tmFifo q).erase h) | _ => s.tmFifo
      actFifo := s.actFifo.erase h
      tmIn := s.tmIn.erase h
      hostOut := s.hostOut.erase h }

/-- A frame is dropped. A transmit job that waits for its departure learns of it (R244). -/
def State.dropFrame (s : State) (h : Nat) : State :=
  match s.frame? h with
  | none => s
  | some f =>
    let s := s.freeFrame h
    match f.job with
    | some j => { s with txGone := s.txGone ++ [(j, none)] }
    | none => s

/-- A TS_REQ frame has departed by a host or Cuelrun egress: no MAC stamps it, so its stamp is a free value. -/
def State.hostDeparts (s : State) (f : Frame) : State :=
  match f.job with
  | some j =>
    let (w, s) := s.drawWord
    { s with txGone := s.txGone ++ [(j, some w)] }
  | none => s

/-- The action engine accepts a frame with the list to run: it has left the thread path (R104, R109). -/
def State.toAction (s : State) (h : Nat) (f : Frame) (base : Option Nat) (inlineWords : List Word) : State :=
  let s := (s.setFrame h { f with stage := .action base inlineWords }).leavePath h
  { s with actFifo := s.actFifo ++ [h] }

/-- A Cuelrun port; UNACKED shows how many frames await acknowledgement. -/
def State.cuePort (s : State) (p : Nat) : CuePort := mget CuePort.init0 s.cue p
def State.setCue (s : State) (p : Nat) (c : CuePort) : State :=
  { s with cue := mset CuePort.init0 s.cue p c }.fset Fld.CUE_PORT_STATUS_UNACKED p c.unacked.length

/-- Room for a new frame of `len` bytes (with FCS) in the ingress region (R153). -/
def State.ingRoom (s : State) (len : Nat) : Bool := decide (cellsOf len ≤ s.ingFree)

/-- A new frame takes the next handle. -/
def State.newFrame (s : State) (f : Frame) : Nat × State :=
  let h := s.handles % 2 ^ 24
  (h, { s with handles := s.handles + 1, arrivals := s.arrivals + 1, frames := mput s.frames h { f with arr := s.arrivals } })

/-- The 64-frame limit of a source's input queue (R92). -/
def State.srcQueue (s : State) (src : Nat) : Nat :=
  (s.frames.filter fun p => p.2.src == src && (match p.2.stage with | .parse _ => true | _ => false)).length

/-! ### Dispatch -/

/-- The dispatch channel of R103. -/
def State.dispatchChan (s : State) (profile : Nat) (hash : Word) : Nat :=
  let lg := min (s.fget Fld.PAR_KEY_PROFILE_DISP_LOG2 profile) 6
  0x8040 + (s.fget Fld.PAR_KEY_PROFILE_DISP_BASE profile + bits hash 47 32 % 2 ^ lg) % 1984

/-- The dispatch message of Table 04-6. -/
def dispatchMsg (h : Nat) (f : Frame) (reason : Nat) (follower : Bool) (list : Nat) (pin : Option Nat) : Msg :=
  { src := unitSrc 0x020,
    words := [fieldAt (h % 2 ^ 24) 40 ||| fieldAt (f.profile % 16) 32 ||| fieldAt (reason % 256) 24 ||| fieldAt (b2n follower) 23 |||
        fieldAt (f.inst % 4096) 0, f.hash, fieldAt (list % 2 ^ 20) 44],
    pin := pin, hv := some f.hv, pkt := some h }

/-- Whether a dispatch channel and its 1,024-frame backlog are both full (R105). -/
def dispatchFull (c : Chan) : Bool := decide (c.room < 3) && decide (1024 ≤ c.units.length)

/-- A frame goes to a thread with a reason and the list of its entry (R104, R105). A TTL-expired follower keeps reason 4: R104's reason for
followers names no such frame (DESIGN CHOICE, log entry 75). -/
def State.dispatch (s : State) (h : Nat) (f : Frame) (reason list : Nat) : State :=
  let s := s.setFrame h { f with stage := .path }
  match s.pend.find? fun e => e.key == f.key with
  | none =>
    let ch := s.dispatchChan f.profile f.hash
    if 16384 ≤ s.pend.length then (s.bump Fld.PARC_PENDING_FULL_COUNT f.src).dropFrame h
    else if dispatchFull (s.chan ch) then (s.bump Fld.PARC_DISPATCH_FULL_COUNT f.src).dropFrame h
    else
      let s := { s with pend := s.pend ++ [(⟨f.key, ch, none, [], [h]⟩ : PendEntry)] }
      s.unitSend ch (dispatchMsg h f reason false (if reason == 2 then list else 0) none)
  | some e =>
    let l := if reason == 2 || reason == 7 then list else 0
    let join (held : List Msg) : State :=
      { s with pend := s.pend.map fun e' => if e'.key == f.key then { e' with held := held, frames := e'.frames ++ [h] } else e' }
    match e.owner with
    | none =>
      if 64 ≤ e.held.length then (s.bump Fld.PARC_PENDING_FULL_COUNT f.src).dropFrame h
      else join (e.held ++ [dispatchMsg h f reason true l none])
    | some t =>
      if (mget Thread.init s.threads t).st == .halted then (s.bump Fld.PARC_PIN_DROP_COUNT f.src).dropFrame h
      else if dispatchFull (s.chan e.ch) then (s.bump Fld.PARC_DISPATCH_FULL_COUNT f.src).dropFrame h
      else (join e.held).unitSend e.ch (dispatchMsg h f reason true l (some t))

/-- A held follower is committed to its entry's channel, pinned to the owner, or is dropped where the channel and its backlog are full
(R104, R105). -/
def State.commitHeld (s : State) (ch t : Nat) (m : Msg) : State :=
  if dispatchFull (s.chan ch) then
    let h := m.pkt.getD 0
    (s.bump Fld.PARC_DISPATCH_FULL_COUNT ((s.frame? h).map (·.src) |>.getD 0)).dropFrame h
  else s.unitSend ch { m with pin := some t }

/-- Thread `t` takes the first message of a pending entry: it becomes the owner, and the held followers are committed to the same
channel, pinned to it, in arrival order (R104). -/
def State.ownPending (s : State) (t h : Nat) : State :=
  match s.pend.find? fun e => e.frames.contains h && e.owner.isNone with
  | none => s
  | some e =>
    let s := { s with pend := s.pend.map fun e' => if e'.key == e.key then { e' with owner := some t, held := [] } else e' }
    e.held.foldl (fun s m => s.commitHeld e.ch t m) s

/-- A thread halts: every frame whose message is pinned to it is dropped (PIN_DROP) and every packet it holds is dropped
(ORPHAN_DROP) (R105). -/
def State.haltDrops (s : State) (t : Nat) (pkts : List Nat) : State :=
  let pinned (m : Msg) : Bool := m.pin == some t
  let hs : List Nat := (s.chans.map fun p => (p.2.msgs.filter pinned ++ p.2.units.filter pinned).filterMap fun m => m.pkt).flatten
  let s := { s with chans := s.chans.map fun p =>
    (p.1, { p.2 with msgs := p.2.msgs.filter fun m => !pinned m, units := p.2.units.filter fun m => !pinned m }) }
  let s := hs.foldl (fun s h => (s.bump Fld.PARC_PIN_DROP_COUNT ((s.frame? h).map (·.src) |>.getD 0)).dropFrame h) s
  pkts.foldl (fun s h => (s.bump Fld.ACTC_ORPHAN_DROP_COUNT).dropFrame h) s

end Sys2Proof.Machine
end

