-- ==== Sys2Proof/Machine/Threads.lean ====
section
/-! DEFINITION. Packet threads: shares, channel reads and writes, pegs, faults, KILL, STOP and the supervisor (chapter 03), as
operations that the Peosh instructions and the thread events share. -/

namespace Sys2Proof.Machine

/-! ### Registers of a thread or a core -/

/-- g[r]; g0 reads as zero (R23). -/
def Arch.getG (a : Arch) (r : RegIx) : Word := if r = 0 then 0 else a.g[r]
/-- g[r] := v; writes to g0 are discarded (R23). -/
def Arch.setG (a : Arch) (r : RegIx) (v : Word) : Arch := if r = 0 then a else { a with g := a.g.set r v }
/-- p[r]; p0 reads as true (R23). -/
def Arch.getP (a : Arch) (r : PredIx) : Bool := if r = 0 then true else a.p[r]
/-- p[r] := b; writes to p0 are discarded (R23). -/
def Arch.setP (a : Arch) (r : PredIx) (b : Bool) : Arch := if r = 0 then a else { a with p := a.p.set r b }
/-- The instruction retires and the pc moves to `pc` (Table 02-12: RETIRED). -/
def Arch.retireAt (a : Arch) (pc : Word) : Arch := { a with pc := pc, retired := a.retired + 1 }

/-! ### Threads -/

def State.thr (s : State) (t : Nat) : Thread := mget Thread.init s.threads t
def State.setThr (s : State) (t : Nat) (th : Thread) : State := { s with threads := mset Thread.init s.threads t th }

/-- The cluster of a global thread number (R59). -/
def cluOf (t : Nat) : Nat := t / 192
/-- The global number of a cluster's supervisor (R81). -/
def State.supervisor (s : State) (c : Nat) : Nat := c * 192 + s.fget Fld.CLU_SUPV_SUPV_THREAD c

/-- Whether a thread's epoch is stale (R56). -/
def State.stale (s : State) (t : Nat) : Bool := (s.thr t).epoch.toNat != s.fget Fld.CLU_PROG_EPOCH_EPOCH (cluOf t)

/-- The byte address of an image's entry point (CLU_IMAGE_CTL holds word indices). -/
def State.entryOf (s : State) (c : Nat) (imageB : Bool) : Word :=
  BitVec.ofNat 64 (4 * (if imageB then s.fget Fld.CLU_IMAGE_CTL_ENTRY_B c else s.fget Fld.CLU_IMAGE_CTL_ENTRY_A c))

/-- A thread adopts the current epoch: its pc is set to the entry of the active image (R56). -/
def State.adopt (s : State) (t : Nat) (th : Thread) : Thread :=
  let c := cluOf t
  let img := s.fbit Fld.CLU_PROG_EPOCH_ACTIVE_IMAGE c
  { th with epoch := BitVec.ofNat 8 (s.fget Fld.CLU_PROG_EPOCH_EPOCH c), image := img, a := { th.a with pc := s.entryOf c img } }

/-- The threads of a cluster, by global number. -/
def cluThreads (c : Nat) : List Nat := (List.range 192).map fun l => c * 192 + l

/-- OLD_COUNT: the non-halted threads of the cluster whose epoch is stale (R58). -/
def State.oldCount (s : State) (c : Nat) : Nat :=
  ((cluThreads c).filter fun t => (s.thr t).st != .halted && s.stale t).length

/-- DPA of a cluster's shared data memory and program memory (Table 18-2). -/
def sharedBase (c : Nat) : Nat := 0x010040000000 + 0x1000000 * c
def programBase (c : Nat) : Nat := 0x010040800000 + 0x1000000 * c

/-- The number of bytes of an image's pc space (R25). -/
def threadImageBytes : Nat := 0x40000

/-- The word at a byte address of the image a thread runs. -/
def State.programWord (s : State) (t : Nat) (pc : Nat) : Nat :=
  s.memN (programBase (cluOf t) + (if (s.thr t).image then 0x40000 else 0) + pc % 0x40000) 4

/-- The instruction at a thread's pc, as a fault record holds it: word 1 of a long form in [63:32] (Table 03-3). A word outside the
image is no word: it stands as 0 (DESIGN CHOICE, log entry 74). -/
def State.currentInsn (s : State) (t : Nat) : Word :=
  let pc := (s.thr t).a.pc.toNat
  let w0 := if pc + 4 ≤ threadImageBytes then s.programWord t pc else 0
  let opc := (w0 >>> 22) % 64
  if (opc = 0x3C || opc = 0x3D) && decide (pc + 8 ≤ threadImageBytes) then BitVec.ofNat 64 (w0 + s.programWord t (pc + 4) <<< 32)
  else BitVec.ofNat 64 w0

/-! ### Shares (R64 to R66) -/

/-- MODE = 0: the thread's slots are reserved (R64). -/
def State.isStatic (s : State) (t : Nat) : Bool := !s.fbit Fld.CLU_THR_SHARE_MODE t

/-- The cluster's static reservations (ENG_STATIC and PKT_STATIC). -/
def State.engStatic (s : State) (c : Nat) : Nat :=
  ((cluThreads c).map fun t => if s.isStatic t then s.fget Fld.CLU_THR_SHARE_ENG t else 0).sum
def State.pktStatic (s : State) (c : Nat) : Nat :=
  ((cluThreads c).map fun t => if s.isStatic t then s.fget Fld.CLU_THR_SHARE_PKT t else 0).sum

/-- The pool slots not in use (ENG_FREE and PKT_FREE): what remains after the reservations and the dynamic threads' slots. -/
def State.engFree (s : State) (c : Nat) : Nat :=
  1536 - s.engStatic c - ((cluThreads c).map fun t => if s.isStatic t then 0 else (s.thr t).engHeld).sum
def State.pktFree (s : State) (c : Nat) : Nat :=
  384 - s.pktStatic c - ((cluThreads c).map fun t => if s.isStatic t then 0 else (s.thr t).pkts.length).sum

/-- Whether a thread can take an engine slot, or a packet slot (R64). -/
def State.engSlot (s : State) (t : Nat) : Bool :=
  decide ((s.thr t).engHeld < s.fget Fld.CLU_THR_SHARE_ENG t) && (s.isStatic t || decide (0 < s.engFree (cluOf t)))
def State.pktSlot (s : State) (t : Nat) : Bool :=
  decide ((s.thr t).pkts.length < s.fget Fld.CLU_THR_SHARE_PKT t) && (s.isStatic t || decide (0 < s.pktFree (cluOf t)))

/-- An engine slot of a thread is freed (the reply has been written, or Bow has accepted the trigger). -/
def State.freeEng (s : State) (t : Nat) : State := let th := s.thr t; s.setThr t { th with engHeld := th.engHeld - 1 }
/-- A unit's reply to a request of thread `t`. The engine slot is held until the reply is written into its channel, or discarded at a
channel with EN = 0: a reply that waits for room keeps it (R64, R73). -/
def State.engReply (s : State) (t id : Nat) (m : Msg) : State :=
  if 0x4000 ≤ id || !s.chanEn id || (s.chan id).takesUnit m then (s.unitReply id m).freeEng t
  else s.unitReply id { m with eng := some t }
/-- A thread takes an engine slot. -/
def State.takeEng (s : State) (t : Nat) : State := let th := s.thr t; s.setThr t { th with engHeld := th.engHeld + 1 }

/-! ### Thread memory (Table 02-3) -/

/-- Whether `n` bytes from `a` lie wholly in scratch, or wholly in shared memory (R25). -/
def inScratch (a n : Nat) : Bool := a + n ≤ 0x1000
def inShared (a n : Nat) : Bool := 0x01000000 ≤ a && a + n ≤ 0x01200000

/-- The DPA of a shared-memory address of a thread. -/
def sharedDpa (t a : Nat) : Nat := sharedBase (cluOf t) + (a - 0x01000000)

/-- `n` bytes that a thread reads at `a`. -/
def State.pRead (s : State) (t a n : Nat) : List Byte :=
  if inScratch a n then mrdBytes (s.thr t).scratch a n else s.memBytes (sharedDpa t a) n

/-- The state with bytes stored by a thread at `a`. -/
def State.pWrite (s : State) (t a : Nat) (bs : List Byte) : State :=
  if inScratch a bs.length then let th := s.thr t; s.setThr t { th with scratch := mwrBytes th.scratch a bs }
  else s.storeBytes (sharedDpa t a) bs

/-! ### Channel reads (R32, R71, R72) -/

/-- The message a thread would take from a channel: the oldest that is unpinned or pinned to it; a dispatch message only with a
free packet slot (R66, R72). -/
def State.messageFor (s : State) (t : Nat) (c : Chan) : Option Msg :=
  match c.msgs.find? fun m => m.pin == none || m.pin == some t with
  | none => none
  | some m => if m.pkt.isSome && !s.pktSlot t then none else some m

/-- What chrd leaves in gd: the word count and the source ID (R32). -/
def Msg.gd (m : Msg) : Word := fieldAt m.words.length 0 ||| fieldAt (m.src % 65536) 16

/-- Thread `t` takes message `m` of channel `k`: the words go to `addr`, gd is set, a dispatch message replaces the header vector
and takes a packet slot, and a stale thread in chrd.pb adopts the epoch (R24, R32, R56, R104). The instruction retires. -/
def State.takeMsg (s : State) (t k : Nat) (m : Msg) (rd : RegIx) (addr : Nat) (pb : Bool) : State :=
  let c := s.chan k
  let s := s.setChan k { c with msgs := c.msgs.erase m, readers := c.readers.erase t }
  let s := s.pWrite t addr (m.words.map wordBytesLE).flatten
  let th := s.thr t
  let th := { th with st := .ready, wait := none, a := (th.a.setG rd m.gd).retireAt (th.a.pc + 4) }
  let th := match m.hv with | some hv => { th with hv := hv } | none => th
  let th := match m.pkt with | some h => { th with pkts := th.pkts ++ [h] } | none => th
  let th := if pb && s.stale t then s.adopt t th else th
  let s := s.setThr t th
  match m.pkt with | some h => s.ownPending t h | none => s

/-- Whether another blocked reader of the channel would take the same message first (R71). -/
def State.readerAhead (s : State) (c : Chan) (m : Msg) : Bool := c.readers.any fun r => s.messageFor r c == some m

/-- The read permission of a thread for a channel ID: 0 granted, otherwise the cause CHAN_INVALID or CHAN_PERM (R36, R73, R74). -/
def State.readCause (s : State) (t id : Nat) : Nat :=
  let c := cluOf t
  let l := t % 192
  if !chanValid id then 0x10
  else if id < 0x4000 then
    if id / 2048 ≠ c then 0x11
    else if id % 2048 = 0 then (if l = s.fget Fld.CLU_SUPV_SUPV_THREAD c then 0 else 0x11)
    else if !s.chanEn id then 0x11
    else match s.fget Fld.CLU_CHAN_CFG_RD_SCOPE id with
      | 1 => if l / 16 = s.fget Fld.CLU_CHAN_CFG_RD_CORE id then 0 else 0x11
      | 2 => if l / 16 = s.fget Fld.CLU_CHAN_CFG_RD_CORE id ∧ l % 16 = s.fget Fld.CLU_CHAN_CFG_RD_THREAD id then 0 else 0x11
      | _ => 0
  else if chanIsUnit id then 0x11
  else if bit (s.rd Reg.CLU_SYS_RD (ix2 32 c ((id - 0x8000) / 64))) ((id - 0x8000) % 64) then 0 else 0x11

/-- The write permission of a thread for a channel ID (R36, R67, R73, R74). -/
def State.writeCause (s : State) (t id : Nat) : Nat :=
  if !chanValid id then 0x10
  else if id < 0x4000 then
    if id % 2048 = 0 || !s.chanEn id then 0x11
    else match s.fget Fld.CLU_CHAN_CFG_WR_SCOPE id with
      | 0 => if id / 2048 = cluOf t then 0 else 0x11
      | 3 => 0x11
      | _ => 0
  else if 0x8000 ≤ id && id ≤ 0x8003 then 0 else 0x11

/-! ### Pegs (R37, R38, R78, R79) -/

/-- A peg ID of a cluster as a key; `none` for an ID that names no peg. -/
def pegKey (c id : Nat) : Option Nat :=
  if id < 0x4000 then some id else if 0x8000 ≤ id ∧ id ≤ 0x8FFF then some (0x10000 + 4096 * c + (id - 0x8000)) else none
/-- The ID of a peg by its key. -/
def pegId (key : Nat) : Nat := if key < 0x10000 then key else 0x8000 + (key - 0x10000) % 4096

def State.peg (s : State) (k : Nat) : Peg := mget Peg.init s.pegs k
def State.setPeg (s : State) (k : Nat) (p : Peg) : State := { s with pegs := mset Peg.init s.pegs k p }

/-- A free peg passes to its FIFO head, whose grant is then on its way: the head holds the peg and the broken mark is cleared
(R37, R78, R79, R87). -/
def State.passPeg (s : State) (k : Nat) : State :=
  let p := s.peg k
  match p.holder, p.waiters with
  | none, t :: rest =>
    let s := s.setPeg k { holder := some t, broken := false, waiters := rest, wdogDone := false }
    let th := s.thr t
    let w := match th.wait with | some (.peg rd key _) => some (Wait.peg rd key (some p.broken)) | w => w
    s.setThr t { th with pegs := th.pegs ++ [k], wait := w }
  | _, _ => s

/-- A peg is released, broken or not, and passes on. -/
def State.releasePeg (s : State) (k : Nat) (broken : Bool) : State :=
  let p := s.peg k
  (s.setPeg k { p with holder := none, broken := broken || p.broken, wdogDone := false }).passPeg k

/-! ### Leaving waits, faults and KILL -/

/-- A thread leaves any reader, writer or peg FIFO. -/
def State.leaveFifos (s : State) (t : Nat) : State :=
  match (s.thr t).wait with
  | some (.read _ k _ _) => let c := s.chan k; s.setChan k { c with readers := c.readers.erase t }
  | some (.write k _) => let c := s.chan k; s.setChan k { c with writers := c.writers.erase (.thread t) }
  | some (.peg _ k none) => let p := s.peg k; s.setPeg k { p with waiters := p.waiters.erase t }
  | _ => s

/-- The open message of a thread is discarded and its reservation freed (R44 step 2). -/
def State.discardOpen (s : State) (t : Nat) : State :=
  match (s.thr t).openMsg with
  | none => s
  | some m =>
    let c := s.chan m.ch
    let s := s.setChan m.ch { c with reserved := c.reserved - m.words.length }
    let th := s.thr t
    s.setThr t { th with openMsg := none }

/-- Every peg a thread holds is released and marked broken (R44 step 3). -/
def State.breakPegs (s : State) (t : Nat) : State :=
  let ks := (s.thr t).pegs
  let th := s.thr t
  let s := s.setThr t { th with pegs := [] }
  ks.foldl (fun s k => s.releasePeg k true) s

/-- A fault record of Table 03-3. -/
def faultRecord (c kind cause t : Nat) (pc insn value : Word) (staged broken : Nat) : Msg :=
  { src := unitSrc (0x0C0 + c),
    words := [fieldAt (kind % 256) 40 ||| fieldAt (cause % 256) 32 ||| fieldAt (t % 2048) 0, pc, insn, value,
      fieldAt (staged % 256) 8 ||| fieldAt (broken % 256) 0] }

/-- The fault unit of a cluster sends a record to the supervisor channel; a halted supervisor raises the escalation (R81, R83). A further
record of a thread whose one watchdog record or one halting record of R82 is still pending (a second hold that expires, a fault after a
restart) is queued behind it, without limit: DESIGN CHOICE, log entry 74, since R82 loses no record and says nothing of this one. -/
def State.sendRecord (s : State) (c : Nat) (m : Msg) : State :=
  let s := s.unitSend (c * 0x800) m
  if (s.thr (s.supervisor c)).st = .halted then (s.fset Fld.CLU_SUPV_STATUS_SUPV_DOWN c 1).irq (512 + c) else s

/-- A thread stops for good with a record: its state HALTED, its open message discarded, its pegs released broken, and its packets
dropped (R44, R89, R105). -/
def State.haltWith (s : State) (t kind cause : Nat) (insn value : Word) : State :=
  let th := s.thr t
  let staged := match th.openMsg with | some m => m.words.length | none => 0
  let s := s.leaveFifos t
  let s := s.setThr t { (s.thr t) with st := .halted, wait := none, pkts := [] }
  let s := s.discardOpen t
  let s := s.breakPegs t
  let s := s.haltDrops t th.pkts
  s.sendRecord (cluOf t) (faultRecord (cluOf t) kind cause t th.a.pc insn value staged th.pegs.length)

/-- The fault that an uncorrectable word of a thread's memories raises is reported as a contained error of its cluster's block (R432,
Table 19-9). -/
def State.noteThreadEcc (s : State) (t : Nat) (a : Word) : State := s.errReport 1 (17 + cluOf t) 0 a

/-- A Peosh-P fault (R44): the instruction has no effect. -/
def State.peoshFault (s : State) (t cause : Nat) (insn value : Word) : State := s.haltWith t 1 cause insn value

/-- KILL (R89): KIND 0x04 for a stopped thread, 0x02 otherwise; nothing happens to a halted thread. -/
def State.killThread (s : State) (t : Nat) : State :=
  match (s.thr t).st with
  | .halted => s
  | .stopped => s.haltWith t 4 0 (s.currentInsn t) 0
  | _ => s.haltWith t 2 0 (s.currentInsn t) 0

end Sys2Proof.Machine
end

