-- ==== Sys2Proof/Machine/Dpa.lean ====
section
/-! DEFINITION. The device address map (R393 to R395), DDR5 capacity (R398), secret lines (R402, R403), and normal-memory reads and
writes as every user of the map sees them. -/

namespace Sys2Proof.Machine

/-- What a DPA names (Tables 18-1 and 18-2). -/
inductive Region where
  | ddr | boot | mailbox (pf : Nat) | shared (c : Nat) | program (c : Nat) | table | tm | ext (bank : Nat)
  | regs | aliases | host (i : Nat) | peer (w : Nat) | unmapped
  deriving DecidableEq, Repr

/-- The number of 1 bits of a small number. -/
def popCount (n bitsN : Nat) : Nat := ((List.range bitsN).filter fun i => n.testBit i).length

/-- The interleaved DDR5 capacity in bytes: N × CH_SIZE × 16 GiB (R398). -/
def State.ddrCapacity (s : State) : Nat :=
  let sz := s.fget Fld.MEM_CFG_CH_SIZE 0
  popCount (s.fget Fld.MEM_CFG_CH_MASK 0) 8 * (if 1 ≤ sz ∧ sz ≤ 4 then sz else 1) * 2 ^ 34

/-- The bytes of an exact-match bank's extension: 256 × 2^EXT_LOG2, or none (R117). -/
def State.extBytes (s : State) (bank : Nat) : Nat :=
  let l := s.fget Fld.TBL_EM_BANK_EXT_LOG2 bank
  if 10 ≤ l ∧ l ≤ 24 then 256 * 2 ^ l else 0

/-- The region a DPA lies in. -/
def State.region (s : State) (a : Nat) : Region :=
  if a < 2 ^ 39 then (if a < s.ddrCapacity then .ddr else .unmapped)
  else if 0x010000000000 ≤ a ∧ a < 0x020000000000 then
    if a < 0x010001000000 then (if s.fget Fld.MEM_L3_CTL_MODE 0 = 0 then .boot else .unmapped)
    else if 0x010001000000 ≤ a ∧ a < 0x010001080000 then
      let o := (a - 0x010001000000) % 0x20000
      if 0x2000 ≤ o ∧ o < 0x11000 then .mailbox ((a - 0x010001000000) / 0x20000) else .unmapped
    else if 0x010040000000 ≤ a ∧ a < 0x010048000000 then
      let c := (a - 0x010040000000) / 0x1000000
      let o := (a - 0x010040000000) % 0x1000000
      if o < 0x200000 then .shared c
      else if 0x800000 ≤ o ∧ o < 0x880000 then .program c
      else .unmapped
    else if 0x010080000000 ≤ a ∧ a < 0x010084800000 then .table
    else if 0x010090000000 ≤ a ∧ a < 0x01009A000000 then .tm
    else if 0x010100000000 ≤ a ∧ a < 0x010500000000 then
      let b := (a - 0x010100000000) / 0x100000000
      if (a - 0x010100000000) % 0x100000000 < s.extBytes b then .ext b else .unmapped
    else .unmapped
  else if 0x020000000000 ≤ a ∧ a < 0x020019000000 then .regs
  else if 0x030000000000 ≤ a ∧ a < 0x040000000000 then .aliases
  else if 0x100000000000 ≤ a ∧ a < 0x200000000000 then .host ((a - 0x100000000000) / 2 ^ 32)
  else if 0x200000000000 ≤ a ∧ a < 0x300000000000 then .peer ((a - 0x200000000000) / 2 ^ 38)
  else .unmapped

/-- Normal memory: DDR5 and the SRAM windows; the table and TM windows are device (Table 18-1). -/
def Region.normal : Region → Bool
  | .ddr | .boot | .mailbox _ | .shared _ | .program _ => true
  | _ => false

/-- Whether `n` bytes at `a` lie in one region of normal memory. -/
def State.normalAt (s : State) (a n : Nat) : Bool :=
  (s.region a).normal && decide (s.region a = s.region (a + n - 1))

/-- Whether the line of a DPA is secret: in a valid MEM_SECRET region, or in the power save area (R362, R402). -/
def State.secretAt (s : State) (a : Nat) : Bool :=
  decide (a < 2 ^ 39) && ((List.range 15).any (fun i =>
    s.fbit Fld.MEM_SECRET_LO_VALID i && decide (s.fget Fld.MEM_SECRET_LO_BASE i * 4096 ≤ a) &&
      decide (a < (s.fget Fld.MEM_SECRET_HI_LIMIT i + 1) * 4096)) ||
    (let b := s.fget Fld.PWR_CFG_SAVE_BASE 0 * 2 ^ 28
     decide (b ≤ a) && decide (a < b + 34 * 2 ^ 22)))

/-- The channel that holds a DDR5 address (R398). -/
def State.ddrChannel (s : State) (a : Nat) : Nat :=
  let named := (List.range 8).filter fun c => (s.fget Fld.MEM_CFG_CH_MASK 0).testBit c
  named.getD (ddrHash a % max 1 named.length) 0

/-- A DDR5 error is logged, unless an uncorrectable one stands there and this one is correctable (MEM_ECC_LOG.VALID). -/
def State.eccLog (s : State) (c : Nat) (unc : Bool) (a : Nat) : State :=
  if !unc && s.fbit Fld.MEM_ECC_LOG_VALID c && s.fbit Fld.MEM_ECC_LOG_UNCORR c then s
  else s.wr Reg.MEM_ECC_LOG c (fieldAt 1 63 ||| fieldAt (b2n unc) 62 ||| fieldAt (a / 64) 6)

/-- A corrected line is counted, logged and reported as a corrected error (R400, R432). -/
def State.noteCorr (s : State) (a : Nat) : State :=
  let c := s.ddrChannel a
  ((s.bump Fld.MEMC_CORR_COUNT c).eccLog c false a).errReport 0 3 0 (BitVec.ofNat 64 a)

/-- An uncorrectable line is delivered: counted in UNCORR, logged, and reported as a contained error (R400, R432). -/
def State.noteUncorr (s : State) (a : Nat) : State :=
  if 2 ^ 39 ≤ a then s
  else
    let c := s.ddrChannel a
    let s := s.bump Fld.MEMC_UNCORR_COUNT c
    let s := s.eccLog c true a
    s.errReport 1 3 0 (BitVec.ofNat 64 a)

/-- A read of `n` bytes from `a` delivers uncorrectable lines: each of them is counted and logged. A read that its own word's ECC fails, with no
line marked, notes the line it begins in. -/
def State.noteUncorrs (s : State) (a n : Nat) : State :=
  let bad := ((List.range ((a + n + 63) / 64 - a / 64)).map (a / 64 + ·)).filter fun l => s.poisoned (64 * l) 64
  match bad with
  | [] => s.noteUncorr a
  | _ => bad.foldl (fun s l => s.noteUncorr (64 * l)) s

/-- Whether a read of `n` bytes meets a poisoned line: one that R400 marks, or a secret line while KEY_ERASED (R403). -/
def State.readsPoison (s : State) (a n : Nat) : Bool :=
  s.poisoned a n || (s.fbit Fld.MEM_STATUS_KEY_ERASED 0 && (s.secretAt a || s.secretAt (a + n - 1)))

/-- Bytes read from normal memory; `none` where a line is poisoned. -/
def State.memLoad (s : State) (a n : Nat) : Option (List Byte) := if s.readsPoison a n then none else some (s.memBytes a n)

/-- A read of DDR5 by a unit: the bytes, or none where the address lies outside the interleaved capacity (R394) or a line is
poisoned, which is then counted and logged (R400). -/
def State.ddrRead (s : State) (a n : Nat) : Option (List Byte) × State :=
  if s.ddrCapacity < a + n then (none, s)
  else match s.memLoad a n with
    | none => (none, s.noteUncorrs a n)
    | some bs => (some bs, s)

/-- The extension buckets of exact-match banks that a direct write of DDR5 touches: lookups there are undefined from then on (R117). -/
def State.taintExt (s : State) (a n : Nat) : State :=
  (List.range 4).foldl (fun s b =>
    let base := s.fget Fld.TBL_EM_BANK_EXT_BASE b * 2 ^ 32
    let size := s.extBytes b
    if a < base + size ∧ base < a + n then
      let first := (max a base - base) / 256
      let last := (min (a + n) (base + size) - 1 - base) / 256
      (List.range (last + 1 - first)).foldl (fun s k => { s with extTaint := mset false s.extTaint (b * 2 ^ 24 + first + k) true }) s
    else s) s

/-- Bytes stored to normal memory; a write to a secret line while KEY_ERASED is dropped and counted (R403); a write to program
memory follows R58. -/
def State.memStore (s : State) (a : Nat) (bs : List Byte) : State :=
  if s.fbit Fld.MEM_STATUS_KEY_ERASED 0 && s.secretAt a then s.bump Fld.MEMC_SECRET_DROP_COUNT
  else match s.region a with
    | .program c =>
      let off := a - programBase c
      if (off < 0x40000 && (cluThreads c).any fun t => (s.thr t).st != .halted && !(s.thr t).image) ||
          (0x40000 < off + bs.length && (cluThreads c).any fun t => (s.thr t).st != .halted && (s.thr t).image) then
        s.fset Fld.CLU_IMAGE_STATUS_IMAGE_WRITE_REFUSED c 1
      else s.storeBytes a bs
    | _ => (s.storeBytes a bs).taintExt a bs.length

/-- A little-endian word read from normal memory. -/
def State.memLoad64 (s : State) (a : Nat) : Option Word := (s.memLoad a 8).map fun bs => BitVec.ofNat 64 (leNat bs)

end Sys2Proof.Machine
end

