-- ==== Sys2Proof/Machine/Net.lean ====
section
/-! DEFINITION. Frame bytes and the header arithmetic of the standards the spec names: the Internet checksum (RFC 1071, RFC 1624),
IPv4 and IPv6 headers, VLAN tags, and the CRCs. -/

namespace Sys2Proof.Machine

/-- Byte `i` of a frame; a byte past the end reads as zero. -/
def byteAt (d : List Byte) (i : Nat) : Nat := (d.getD i 0).toNat
/-- The 16-bit number in network order at `i`. -/
def w16 (d : List Byte) (i : Nat) : Nat := 256 * byteAt d i + byteAt d (i + 1)
/-- The 32-bit number in network order at `i`. -/
def w32 (d : List Byte) (i : Nat) : Nat := 65536 * w16 d i + w16 d (i + 2)
/-- The frame with bytes written at `i`; none falls beyond its end. -/
def putBytes (d : List Byte) (i : Nat) (bs : List Byte) : List Byte :=
  (d.take i ++ bs ++ d.drop (i + bs.length)).take d.length
/-- The frame with a 16-bit number written in network order at `i`. -/
def put16 (d : List Byte) (i v : Nat) : List Byte := putBytes d i (natBE 2 v)

/-! ### Checksums -/

/-- A sum folded to 16 bits with end-around carry. -/
def fold16 (n : Nat) : Nat :=
  let a := n % 65536 + n / 65536
  let b := a % 65536 + a / 65536
  b % 65536 + b / 65536
/-- The one's complement sum of 16-bit words in network order, an odd last byte padded with zero. -/
def onesSum : List Byte → Nat
  | [] => 0
  | [a] => 256 * a.toNat
  | a :: b :: rest => 256 * a.toNat + b.toNat + onesSum rest
/-- The Internet checksum of bytes whose checksum field is zero, on top of a start sum. -/
def inetCsum (start : Nat) (bs : List Byte) : Nat := 65535 - fold16 (start + onesSum bs)
/-- The incremental update of RFC 1624 for one 16-bit word. -/
def csumUpdate (old m m' : Nat) : Nat := 65535 - fold16 ((65535 - old) + (65535 - m) + m')
/-- A checksum field at `i` updated for a word that changed from `m` to `m'`. -/
def csumFix (d : List Byte) (i m m' : Nat) : List Byte := put16 d i (csumUpdate (w16 d i) m m')

/-- The IP version of the header at an offset that lies wholly within the frame: 4 or 6. -/
def ipVersion (d : List Byte) (l3 : Nat) : Option Nat :=
  let v := byteAt d l3 / 16
  if v = 4 ∧ l3 + 20 ≤ d.length then some 4 else if v = 6 ∧ l3 + 40 ≤ d.length then some 6 else none
/-- The protocol (IPv4) or next header (IPv6) of the header at an offset. -/
def ipProto (d : List Byte) (l3 : Nat) : Option Nat :=
  match ipVersion d l3 with
  | some 4 => some (byteAt d (l3 + 9))
  | some _ => some (byteAt d (l3 + 6))
  | none => none

/-- The protocol behind the extension headers of an IPv6 header, from the header of kind `next` at offset `o` on: Hop-by-Hop, Routing and
Destination Options give their length in 8 bytes less one, Authentication in 4 bytes less two, and a Fragment header has 8 bytes. -/
def v6Proto (d : List Byte) : Nat → Nat → Nat → Nat
  | 0, next, _ => next
  | fuel + 1, next, o =>
    if d.length < o + 8 then next
    else if next = 0 ∨ next = 43 ∨ next = 60 then v6Proto d fuel (byteAt d o) (o + 8 * (byteAt d (o + 1) + 1))
    else if next = 51 then v6Proto d fuel (byteAt d o) (o + 4 * (byteAt d (o + 1) + 2))
    else if next = 44 then v6Proto d fuel (byteAt d o) (o + 8)
    else next
/-- The protocol of the L4 header behind an IP header at an offset, past any IPv6 extension headers. -/
def l4Proto (d : List Byte) (l3 : Nat) : Option Nat :=
  match ipVersion d l3 with
  | some 6 => some (v6Proto d 64 (byteAt d (l3 + 6)) (l3 + 40))
  | _ => ipProto d l3

/-- The IPv4 header checksum computed afresh over IHL × 4 bytes; another header is left unchanged. -/
def ipv4Csum (d : List Byte) (l3 : Nat) : List Byte :=
  if ipVersion d l3 ≠ some 4 then d
  else
    let hlen := 4 * (byteAt d l3 % 16)
    let z := put16 d (l3 + 10) 0
    put16 z (l3 + 10) (inetCsum 0 ((z.drop l3).take hlen))

/-- The offset of the checksum field in a TCP, UDP or ICMPv6 header. -/
def l4CsumAt (proto : Nat) : Option Nat := if proto = 6 then some 16 else if proto = 17 then some 6 else if proto = 58 then some 2 else none

/-- The TCP, UDP or ICMPv6 checksum over the pseudo-header and the segment; a UDP checksum that comes to zero is sent as all ones. -/
def l4Csum (d : List Byte) (l3 l4 proto at_ : Nat) : List Byte :=
  let v6 := ipVersion d l3 = some 6
  let last := min d.length (if v6 then l3 + 40 + w16 d (l3 + 4) else l3 + w16 d (l3 + 2))
  let z := put16 d (l4 + at_) 0
  let seg := (z.take last).drop l4
  let addrs := if v6 then (d.drop (l3 + 8)).take 32 else (d.drop (l3 + 12)).take 8
  let pseudo := onesSum addrs + proto + seg.length % 65536 + seg.length / 65536
  let c := inetCsum pseudo seg
  put16 z (l4 + at_) (if proto = 17 ∧ c = 0 then 0xFFFF else c)

/-- Whether the frame carries a VLAN tag at bytes 12 and 13 (TPID 0x8100 or 0x88A8). -/
def hasVlan (d : List Byte) : Bool := decide (16 ≤ d.length) && (w16 d 12 == 0x8100 || w16 d 12 == 0x88A8)

/-! ### ECN (RFC 3168) -/

/-- The ECN field of the IP header at an offset: 0 Not-ECT, 3 CE. -/
def ecnOf (d : List Byte) (l3 : Nat) : Nat :=
  match ipVersion d l3 with
  | some 4 => byteAt d (l3 + 1) % 4
  | some _ => byteAt d (l3 + 1) / 16 % 4
  | none => 0
/-- The ECN field set to CE; the IPv4 header checksum is updated incrementally (R157). -/
def setCe (d : List Byte) (l3 : Nat) : List Byte :=
  match ipVersion d l3 with
  | some 4 =>
    let m := w16 d l3
    let m' := m / 4 * 4 + 3
    csumFix (put16 d l3 m') (l3 + 10) m m'
  | some _ => put16 d l3 (w16 d l3 / 64 * 64 + 48 + w16 d l3 % 16)
  | none => d

/-! ### CRCs -/

/-- One bit of a CRC computed most significant bit first. -/
def crcBit (width : Nat) (poly acc : Nat) (b : Bool) : Nat :=
  let top := acc.testBit (width - 1) != b
  let sh := acc * 2 % 2 ^ width
  if top then sh ^^^ poly else sh
/-- A CRC without reflection over bytes, each most significant bit first. -/
def crcMsb (width poly init : Nat) (bs : List Byte) : Nat :=
  bs.foldl (fun a b => (List.range 8).foldl (fun a i => crcBit width poly a (b.getLsbD (7 - i))) a) init
/-- The CRC-64 of R97. -/
def crc64 (seed : Nat) (bs : List Byte) : Word := BitVec.ofNat 64 (crcMsb 64 0x42F0E1EBA9EA3693 seed bs)

/-- One bit of a reflected CRC. -/
def crcBitR (poly acc : Nat) (b : Bool) : Nat :=
  let low := acc.testBit 0 != b
  if low then (acc / 2) ^^^ poly else acc / 2
/-- A reflected CRC over bytes, each least significant bit first. -/
def crcLsb (poly init : Nat) (bs : List Byte) : Nat :=
  bs.foldl (fun a b => (List.range 8).foldl (fun a i => crcBitR poly a (b.getLsbD i)) a) init
/-- CRC-32C (Castagnoli). -/
def crc32c (bs : List Byte) : Nat := 0xFFFFFFFF ^^^ crcLsb 0x82F63B78 0xFFFFFFFF bs

end Sys2Proof.Machine
end

