-- ==== Sys2Proof/Machine/Parse.lean ====
section
/-! DEFINITION. The parser: the parse memory, the walk of the parse graph, and the header vector it leaves (R93 to R96). -/

namespace Sys2Proof.Machine

/-- The bytes of the parse window: the first 384 of the frame; a byte outside the window or the frame reads as zero. -/
def windowByte (d : List Byte) (i : Nat) : Byte := if i < 384 then d.getD i 0 else 0
def windowBytes (d : List Byte) (i n : Nat) : List Byte := (List.range n).map fun j => windowByte d (i + j)

/-- Where a walk stands: the current offset, the header vector, the checksum bits of PSTAT, and the states visited. -/
structure WalkSt where
  off : Nat
  hv : Vector Word 64
  chk : Nat
  visited : Nat := 0

/-- How a walk ends: accept under a profile, drop, or an exception with a code of R94. -/
inductive WalkEnd where
  | accept (profile : Nat)
  | drop
  | exc (code : Nat)
  deriving DecidableEq, Repr

/-- The extraction commands of a state, in index order (R93 step 1); false when one is out of range, which ends the walk. -/
def State.extract (s : State) (bank : Nat) (d : List Byte) (w : WalkSt) : List Nat → WalkSt × Bool
  | [] => (w, true)
  | i :: rest =>
    let k := ix2 2048 bank (i % 2048)
    let dst := s.fget Fld.PAR_EXT_W0_DST k
    let len := s.fget Fld.PAR_EXT_W0_LENM1 k + 1
    if !s.fbit Fld.PAR_EXT_W0_VALID k then s.extract bank d w rest
    else if dst < 64 || 512 < dst + len then (w, false)
    else s.extract bank d { w with hv := hvSetBytes w.hv dst (windowBytes d (w.off + s.fget Fld.PAR_EXT_W0_SRC k) len) } rest

/-- The header length of a state at an offset (Table 04-1). -/
def State.headerLen (s : State) (n : Nat) (d : List Byte) (off : Nat) : Nat :=
  let fixed := s.fget Fld.PAR_STATE_W1_HLEN_FIXED n
  match s.fget Fld.PAR_STATE_W1_HLEN_MODE n with
  | 1 =>
    let word := beNat (windowBytes d (off + s.fget Fld.PAR_STATE_W1_HLEN_OFF n) 2)
    fixed + 2 ^ s.fget Fld.PAR_STATE_W1_HLEN_UNIT n *
      ((word >>> s.fget Fld.PAR_STATE_W1_HLEN_SHIFT n) % 2 ^ (s.fget Fld.PAR_STATE_W1_HLEN_WIDTHM1 n + 1))
  | 2 => 0
  | _ => fixed

/-- What a state chooses: the kind and the operand of the first transition that matches, or of the default (R93 steps 3 and 4). -/
def State.choose (s : State) (bank n : Nat) (sel : Nat) : Nat × Nat :=
  let count := min 16 (s.fget Fld.PAR_STATE_W0_TRANS_COUNT n)
  let ts := (List.range count).map fun i => ix2 4096 bank ((s.fget Fld.PAR_STATE_W0_TRANS_BASE n + i) % 4096)
  match ts.find? fun t =>
      s.fbit Fld.PAR_TRANS_W1_VALID t && ((sel ^^^ s.fget Fld.PAR_TRANS_W0_VALUE t) &&& s.fget Fld.PAR_TRANS_W0_MASK t) == 0 with
  | some t => (s.fget Fld.PAR_TRANS_W1_KIND t, s.fget Fld.PAR_TRANS_W1_NEXT t)
  | none => (s.fget Fld.PAR_STATE_W0_DEF_KIND n, s.fget Fld.PAR_STATE_W0_DEF_NEXT n)

/-- The walk from state `st` on, with `fuel` states still allowed (R93, R94). -/
def State.parseFrom (s : State) (bank : Nat) (d : List Byte) : Nat → Nat → WalkSt → WalkSt × WalkEnd
  | 0, _, w => (w, .exc 2)
  | fuel + 1, st, w =>
    let n := ix2 256 bank st
    let w := { w with visited := w.visited + 1 }
    if !s.fbit Fld.PAR_STATE_W0_VALID n then (w, .exc 4)
    else
      let exts := (List.range (min 4 (s.fget Fld.PAR_STATE_W0_EXT_COUNT n))).map fun i => s.fget Fld.PAR_STATE_W0_EXT_BASE n + i
      match s.extract bank d w exts with
      | (w, false) => (w, .exc 5)
      | (w, true) =>
        let len := s.headerLen n d w.off
        let layer := s.fget Fld.PAR_STATE_W0_LAYER n
        let w := if layer = 0 then w else { w with hv := hvSetLayer w.hv layer (some w.off) }
        let bad := s.fbit Fld.PAR_STATE_W0_CHK4 n && fold16 (onesSum (windowBytes d w.off len)) != 0xFFFF
        let w := if bad then { w with chk := w.chk ||| (if layer = 5 then 2 else 4) } else w
        let sel := beNat (windowBytes d (w.off + s.fget Fld.PAR_STATE_W0_SEL_OFF n) 4)
        let (kind, next) := s.choose bank n sel
        let w' := { w with off := w.off + len }
        match kind with
        | 3 => (w, .exc 5)
        | 2 => (w', .drop)
        | _ =>
          if d.length < w.off + len then (w, .exc 3)
          else if kind = 1 then (w', .accept (next % 16))
          else if 384 < w'.off then (w', .exc 1)
          else s.parseFrom bank d fuel next w'

/-- The metadata of Table 04-4 written over bytes 0 to 63; the layer slots stand as the walk left them (R96). -/
def metadata (f : Frame) (w : WalkSt) (code : Option Nat) (profile : Nat) : Vector Word 64 :=
  let pstat := (match code with | some c => 0x80 + 16 * c | none => 0) + (if f.macsec then 8 else 0) + w.chk +
    (if f.recirc = 0 then 0 else 1)
  let hv := hvSetBytes w.hv 0 (natBE 2 f.bytes.length ++ natBE 1 f.src ++ natBE 1 pstat ++
    natBE 2 (if f.src = 36 ∨ f.src = 37 then f.ring else 0) ++ natBE 1 f.recirc ++ natBE 1 profile ++ natBE 8 f.ts)
  let hv := hvSetBytes hv 24 (natBE 2 (f.inst % 4096) ++ windowBytes f.bytes 0 6)
  let hv := hvSetLayer hv 8 (some w.off)
  hvSetBytes hv 40 (List.replicate 24 0)

/-- The engine of a source's ENG_MAP with the least work queued; of equal ones the lowest (DESIGN CHOICE, log entry 71). -/
def State.parEngine (s : State) (src : Nat) : Nat :=
  let es := (List.range 8).filter fun e => (s.fget Fld.PAR_SRC_CFG_ENG_MAP src).testBit e
  let least := (es.map fun e => mget 0 s.parBusy e).min?
  (es.find? fun e => some (mget 0 s.parBusy e) == least).getD 0

/-- The work of a walk is queued on its engine: max(2, ⌈states / 5⌉) parser cycles of 0.625 ns, held in fifths of a cycle (R91). -/
def State.parQueue (s : State) (src visited : Nat) : State :=
  let e := s.parEngine src
  { s with parBusy := mset 0 s.parBusy e (max (8 * s.ns) (mget 0 s.parBusy e) + 5 * max 2 ((visited + 4) / 5)) }

/-- PARSE_WALK (R91, R93 to R96): the frame is parsed wholly by the bank that is active as it enters its first state. -/
def execParseWalk (h : Nat) (s : State) : Out :=
  match s.frame? h with
  | some f =>
    match f.stage with
    | .parse start =>
      let bank := s.fget Fld.PAR_GRAPH_CTL_ACTIVE 0
      let (w, r) := s.parseFrom bank f.bytes 32 start { off := 0, hv := hvBlank, chk := 0 }
      let s := s.parQueue f.src w.visited
      .next (match r with
        | .drop => (s.bump Fld.PARC_PARSE_DROP_COUNT f.src).dropFrame h
        | .accept p => s.setFrame h { f with hv := metadata f w none p, profile := p, stage := .classify false }
        | .exc c =>
          (s.bump Fld.PARC_PARSE_EXC_COUNT f.src).setFrame h
            { f with hv := metadata f w (some c) 15, profile := 15, stage := .classify true })
    | _ => .next s
  | none => .next s

/-- PARSE_GRAPH_COMMIT (R95). -/
def execParseGraphCommit (walking : Bool) (s : State) : Out :=
  if s.fbit Fld.PAR_GRAPH_CTL_PENDING 0 then .next (s.fset Fld.PAR_GRAPH_CTL_COMMIT_REFUSED 0 1)
  else .next ((s.fset Fld.PAR_GRAPH_CTL_ACTIVE 0 (s.fget Fld.PAR_GRAPH_CTL_ACTIVE 0 + 1)).fset Fld.PAR_GRAPH_CTL_PENDING 0 (b2n walking))

/-- The register and index a word of the parse memory is, with its bank: states, transitions and extraction commands. -/
def parseMemAt (o : Nat) : Option (RegDesc × Nat × Nat) :=
  if o % 8 ≠ 0 then none
  else if 0x100000 ≤ o ∧ o < 0x120000 ∧ (o - 0x100000) % 0x10000 < 4096 then
    let b := (o - 0x100000) / 0x10000
    let r := (o - 0x100000) % 0x10000
    some (if r % 16 = 0 then Reg.PAR_STATE_W0 else Reg.PAR_STATE_W1, ix2 256 b (r / 16), b)
  else if 0x200000 ≤ o ∧ o < 0x220000 then
    let b := (o - 0x200000) / 0x10000
    let r := (o - 0x200000) % 0x10000
    some (if r % 16 = 0 then Reg.PAR_TRANS_W0 else Reg.PAR_TRANS_W1, ix2 4096 b (r / 16), b)
  else if 0x300000 ≤ o ∧ o < 0x308000 then
    let b := (o - 0x300000) / 0x4000
    some (Reg.PAR_EXT_W0, ix2 2048 b ((o - 0x300000) % 0x4000 / 8), b)
  else none

/-- A write to the parse memory of the active bank is dropped and sets GRAPH_WRITE_REFUSED (R95). -/
def State.parseMemWrite (s : State) (r : RegDesc) (i bank : Nat) (v : Word) : State :=
  if bank = s.fget Fld.PAR_GRAPH_CTL_ACTIVE 0 then s.fset Fld.PAR_GRAPH_CTL_GRAPH_WRITE_REFUSED 0 1
  else s.wr r i (writeFields false r (s.rd r i) v)

/-- PARSE_MEMORY_WRITE (R95). -/
def execParseMemoryWrite (offset : Nat) (value : Word) (s : State) : Out :=
  match parseMemAt offset with
  | some (r, i, b) => .next (s.parseMemWrite r i b value)
  | none => .next s

end Sys2Proof.Machine
end

