-- ==== Sys2Proof/Machine/FlowCache.lean ====
section
/-! DEFINITION. The classifier: keys and the flow hash, the flow cache and the DDR5 flow table, ageing, and installs
(R97 to R102, R107). -/

namespace Sys2Proof.Machine

/-! ### Keys (R97) -/

/-- The enabled segments of a profile, in order: first byte and length. -/
def State.keySegs (s : State) (p : Nat) : List (Nat × Nat) :=
  ((List.range 8).filter fun k => s.fbit Fld.PAR_KEY_SEG_EN (ix2 8 p k)).map fun k =>
    (s.fget Fld.PAR_KEY_SEG_OFF (ix2 8 p k), s.fget Fld.PAR_KEY_SEG_LENM1 (ix2 8 p k) + 1)

/-- The key of a frame under a profile: profile and instance, then the bytes of the segments. -/
def State.keyOf (s : State) (hv : Vector Word 64) (p inst : Nat) : List Byte :=
  natBE 2 (p % 16 * 4096 + inst % 4096) ++
    ((s.keySegs p).map fun g => (List.range g.2).map fun j => hvByte hv (g.1 + j)).flatten

/-- The flow hash of a key under a profile. -/
def State.flowHash (s : State) (p : Nat) (key : List Byte) : Word := crc64 (s.fget Fld.PAR_KEY_PROFILE_SEED p) key

/-- The profile and the instance in a key. -/
def keyProfile (key : List Byte) : Nat := byteAt key 0 / 16
def keyInst (key : List Byte) : Nat := byteAt key 0 % 16 * 256 + byteAt key 1

/-! ### Slots (Table 04-5) -/

def State.slot (s : State) (i : Nat) : FcSlot := mget FcSlot.empty s.fc i
def State.setSlot (s : State) (i : Nat) (c : FcSlot) : State := { s with fc := mset FcSlot.empty s.fc i c }

/-- Fields of slot word 0. -/
def fcValid (w : Word) : Bool := bit w 63 && !bit w 61
def fcLong (w : Word) : Bool := bit w 62
def fcBacked (w : Word) : Bool := bit w 60
def fcToThread (w : Word) : Bool := bit w 59
def fcIdleTo (w : Word) : Nat := bits w 55 52
def fcAge (w : Word) : Nat := bits w 51 48
def fcList (w : Word) : Nat := bits w 43 24
def fcKeyLen (w : Word) : Nat := bits w 23 16
def fcTag (w : Word) : Nat := bits w 15 0
/-- Word 0 with another AGE. -/
def fcWithAge (w : Word) (a : Nat) : Word := (w &&& ~~~(fieldAt 15 48)) ||| fieldAt a 48

/-- The slots an entry fills: 1 for a key of up to 24 bytes, 2 for a longer one. -/
def slotsFor (keyLen : Nat) : Nat := if keyLen ≤ 24 then 1 else 2

/-- The second half of a long entry: the slot after a long one. Its CONT mark stands in the entry's place, since words 0 to 3 then
hold key bytes (Table 04-5). -/
def State.isCont (s : State) (i : Nat) : Bool := i % 2 == 1 && bit (s.slot (i - 1)).w0 63 && fcLong (s.slot (i - 1)).w0

/-- The key bytes of the entry at a slot. -/
def State.slotKey (s : State) (i : Nat) : List Byte :=
  let a := s.slot i
  let b := s.slot (i + 1)
  let bytes := (([a.w1, a.w2, a.w3] ++ (if fcLong a.w0 then [b.w0, b.w1, b.w2, b.w3] else [])).map wordBytesBE).flatten
  bytes.take (fcKeyLen a.w0)

/-- The set of a hash. -/
def fcSet (hash : Word) : Nat := bits hash 16 0

/-- The slot of the first valid entry of the set, in way order, whose TAG, KEY_LEN and key bytes match (R98). -/
def State.fcFind (s : State) (hash : Word) (key : List Byte) : Option Nat :=
  ((List.range 8).map fun w => fcSet hash * 8 + w).find? fun i =>
    let w0 := (s.slot i).w0
    !s.isCont i && fcValid w0 && fcTag w0 == bits hash 63 48 && fcKeyLen w0 == key.length && s.slotKey i == key

/-- The entry at a slot is removed, with its second half. -/
def State.fcRemove (s : State) (i : Nat) : State :=
  let long := fcLong (s.slot i).w0
  let s := s.setSlot i FcSlot.empty
  if long then s.setSlot (i + 1) FcSlot.empty else s

/-- PAR_FC_QUOTA.USED: the slots an instance holds, a long entry counting 2 (R101). -/
def State.fcUsed (s : State) (inst : Nat) : Nat :=
  (s.fc.map fun c => if !s.isCont c.1 && fcValid c.2.w0 && keyInst (s.slotKey c.1) == inst then (if fcLong c.2.w0 then 2 else 1) else 0).sum

/-- An entry is written at a slot: word 0 with LONG computed, the key bytes padded with zero. -/
def State.fcWrite (s : State) (i : Nat) (w0 : Word) (key : List Byte) (hit : Bool) : State :=
  let padded := key ++ List.replicate (56 - key.length) 0
  let word (k : Nat) : Word := BitVec.ofNat 64 (beNat ((padded.drop (8 * k)).take 8))
  let long := slotsFor key.length = 2
  let s := s.setSlot i { w0 := w0 ||| (if long then fieldAt 1 62 else 0), w1 := word 0, w2 := word 1, w3 := word 2, hit := hit }
  if long then s.setSlot (i + 1) { w0 := word 3, w1 := word 4, w2 := word 5, w3 := word 6, hit := false } else s

/-- Whether a slot holds nothing. -/
def State.slotFree (s : State) (i : Nat) : Bool := !s.isCont i && !bit (s.slot i).w0 63

/-- Whether slot `i` can take an entry of `need` slots: free, or the even slot of a free pair. -/
def State.roomAt (s : State) (need i : Nat) : Bool :=
  if need = 1 then s.slotFree i else i % 2 == 0 && s.slotFree i && s.slotFree (i + 1)

/-- The slot with the highest AGE, ties going to the lowest way. -/
def State.oldest (s : State) : List Nat → Option Nat
  | [] => none
  | i :: is =>
    match s.oldest is with
    | none => some i
    | some j => if fcAge (s.slot i).w0 < fcAge (s.slot j).w0 then some j else some i

/-- The place R100 gives an entry of an instance in a set: the slot, with the state after any eviction; none where no candidate
exists. For a long entry only an entry whose removal leaves a free even and odd pair is a candidate, in learning and in installs alike
(DESIGN CHOICE, log entry 75). -/
def State.fcPlace (s : State) (hash : Word) (inst need : Nat) : Option (Nat × State) :=
  let ways := (List.range 8).map fun w => fcSet hash * 8 + w
  match ways.find? (s.roomAt need) with
  | some i => some (i, s)
  | none =>
    let entries := ways.filter fun i => !s.isCont i && fcValid (s.slot i).w0 && fcBacked (s.slot i).w0 &&
      (need == 1 || (s.fcRemove i).roomAt 2 (i / 2 * 2))
    let own := entries.filter fun i => keyInst (s.slotKey i) == inst
    let rich := entries.filter fun i =>
      let j := keyInst (s.slotKey i)
      decide (s.fget Fld.PAR_FC_QUOTA_RESV j < s.fcUsed j)
    let pick := match s.oldest own with | some i => some i | none => s.oldest rich
    pick.map fun i => ((if need = 1 then i else i / 2 * 2), s.fcRemove i)

/-- CAP of an instance. -/
def State.fcCap (s : State) (inst : Nat) : Nat := min 1048576 (s.fget Fld.PAR_FC_QUOTA_CAP inst)

/-! ### The DDR5 flow table (R99) -/

/-- Whether MODE 1 has a flow table: LOG2_BUCKETS is 10 to 23. -/
def State.ftOn (s : State) : Bool :=
  let l := s.fget Fld.PAR_FC_CFG_LOG2_BUCKETS 0
  decide (10 ≤ l) && decide (l ≤ 23)

/-- The DPA of a hash's bucket. -/
def State.ftBucket (s : State) (hash : Word) : Nat :=
  s.fget Fld.PAR_FC_CFG_FT_BASE 0 * 2 ^ 36 + 512 * (bits hash 63 24 % 2 ^ s.fget Fld.PAR_FC_CFG_LOG2_BUCKETS 0)

/-- Entry `j` of a bucket's bytes: word 0 and the key bytes. -/
def ftEntry (bucket : List Byte) (j : Nat) : Word × List Byte :=
  let e := (bucket.drop (64 * j)).take 64
  let w0 : Word := BitVec.ofNat 64 (leNat (e.take 8))
  let key := ((List.range 7).map fun k => ((e.drop (8 + 8 * k)).take 8).reverse).flatten
  (w0, key.take (fcKeyLen w0))

/-- The entry of a bucket that holds a key. -/
def ftFind (bucket : List Byte) (hash : Word) (key : List Byte) : Option Nat :=
  (List.range 8).find? fun j =>
    let (w0, k) := ftEntry bucket j
    bit w0 63 && fcTag w0 == bits hash 63 48 && k == key

/-- The bytes of a DDR5 flow-table entry. -/
def ftBytes (w0 : Word) (key : List Byte) : List Byte :=
  let padded := key ++ List.replicate (56 - key.length) 0
  wordBytesLE w0 ++ ((List.range 7).map fun k => ((padded.drop (8 * k)).take 8).reverse).flatten

/-! ### Classification -/

/-- Whether another frame of the same source arrived earlier and has not been classified (R91: the reorder stage). -/
def State.earlierFrame (s : State) (f : Frame) : Bool :=
  s.frames.any fun c => c.2.src == f.src && decide (c.2.arr < f.arr) && (match c.2.stage with | .parse _ | .classify _ => true | _ => false)

/-- Whether an earlier frame of the same source still waits for its DDR5 bucket under a key: a later frame of that key goes behind it
(R13; that the classifier holds it back is DESIGN CHOICE, log entry 75). -/
def State.earlierDdr (s : State) (f : Frame) (key : List Byte) : Bool :=
  s.frames.any fun c => c.2.src == f.src && c.2.key == key && decide (c.2.arr < f.arr) && c.2.stage == .ddr

/-- Whether the thread path holds a frame of a key (R104). -/
def State.keyPending (s : State) (key : List Byte) : Bool := s.pend.any fun e => e.key == key

/-- The frame with its key and flow hash, the hash written to header-vector bytes 40 to 47. -/
def Frame.withKey (f : Frame) (key : List Byte) (hash : Word) : Frame :=
  { f with key := key, hash := hash, hv := f.hv.setIfInBounds 5 hash }

/-- A hit sets AGE to 0 (R102). -/
def State.fcHit (s : State) (i : Nat) : State :=
  let c := s.slot i
  s.setSlot i { c with w0 := fcWithAge c.w0 0, hit := true }

/-- CLASSIFY (R94, R97 to R99, R103, R104). `ddrFree` tells that a DDR5 flow-table read is available. -/
def execClassify (h : Nat) (ddrFree : Bool) (s : State) : Out :=
  let s0 := s
  match s.frame? h with
  | some f =>
    match f.stage with
    | .classify exc =>
      if s.earlierFrame f then .next s
      else
        let key := s.keyOf f.hv f.profile f.inst
        if exc then
          let key := key.take 56
          .next (s.dispatch h (f.withKey key (s.flowHash 15 key)) 3 0)
        else if !s.fbit Fld.PAR_KEY_PROFILE_VALID f.profile || 56 < key.length then
          .next ((s.bump Fld.PARC_PROFILE_ERR_COUNT f.src).dropFrame h)
        else
          let hash := s.flowHash f.profile key
          let f := f.withKey key hash
          let mode := s.fget Fld.PAR_KEY_PROFILE_MODE f.profile
          if mode = 2 then .next (s.dispatch h f 6 0)
          else if mode = 3 then .next (s.setFrame h { f with stage := .storage })
          else if s.earlierDdr f key then .next s0
          else
            let follower := s.keyPending key
            match s.fcFind hash key with
            | some i =>
              let w0 := (s.slot i).w0
              let s := s.fcHit i
              if fcToThread w0 then .next (s.dispatch h f 2 (fcList w0))
              else if follower then .next (s.dispatch h f 7 (fcList w0))
              else .next (s.toAction h f (some (fcList w0)) [])
            | none =>
              if follower || mode = 0 || !s.ftOn then .next (s.dispatch h f 1 0)
              else if ddrFree then .next (s.setFrame h { f with stage := .ddr })
              else .next (s.dispatch h f 5 0)
    | _ => .next s
  | none => .next s

/-- DDR_FLOW_RESULT (R99, R100, R104): a hit applies its list and is promoted; a poisoned bucket drops the frame (Table 18-5). The results of
one source and key are taken in arrival order (R13), and a frame whose key is on the thread path by now is a follower. A bucket
outside the interleaved capacity holds no entry, so the frame is a MISS (DESIGN CHOICE, log entry 75). -/
def execDdrFlowResult (h : Nat) (s : State) : Out :=
  match s.frame? h with
  | some f =>
    match f.stage with
    | .ddr =>
      let a := s.ftBucket f.hash
      if s.earlierDdr f f.key then .next s
      else if s.ddrCapacity < a + 512 then .next (s.dispatch h f 1 0)
      else match s.ddrRead a 512 with
        | (none, t) => .next (t.dropFrame h)
        | (some b, t) =>
          match ftFind b f.hash f.key with
          | none => .next (t.dispatch h f 1 0)
          | some j =>
            let w0 := (ftEntry b j).1
            let inst := keyInst f.key
            let need := slotsFor f.key.length
            let t := match t.fcFind f.hash f.key with
              | some i => t.fcHit i
              | none =>
                if t.fcCap inst < t.fcUsed inst + need then t
                else match t.fcPlace f.hash inst need with
                  | none => t
                  | some (i, u) => u.fcWrite i (fcWithAge (w0 &&& ~~~(fieldAt 3 61)) 0 ||| fieldAt 1 60) f.key true
            if fcToThread w0 then .next (t.dispatch h f 2 (fcList w0))
            else if t.keyPending f.key then .next (t.dispatch h f 7 (fcList w0))
            else .next (t.toAction h f (some (fcList w0)) [])
    | _ => .next s
  | none => .next s

/-! ### Ageing (R102) -/

/-- The scanner visits one entry. -/
def State.ageEntry (s : State) (i : Nat) : State :=
  let c := s.slot i
  if s.isCont i || !fcValid c.w0 then s
  else
    let c := if c.hit then { c with hit := false } else { c with w0 := fcWithAge c.w0 (min 15 (fcAge c.w0 + 1)) }
    let s := s.setSlot i c
    if fcIdleTo c.w0 ≠ 0 ∧ fcIdleTo c.w0 ≤ fcAge c.w0 then
      let key := s.slotKey i
      let s := s.fcRemove i
      if fcBacked c.w0 then s
      else s.notice (s.fget Fld.PAR_FC_CFG_NOTIFY_CH 0) 256
        { src := unitSrc 0x020, words := [c.w0, s.flowHash (keyProfile key) key] } Fld.PARC_NOTICE_LOST_COUNT
    else s

/-- FLOW_AGE_VISIT (R102). A stopped scanner visits nothing. -/
def execFlowAgeVisit (set : Nat) (s : State) : Out :=
  if s.fget Fld.PAR_FC_CFG_AGE_PERIOD 0 = 0 || 131072 ≤ set then .next s
  else .next ((List.range 8).foldl (fun s w => s.ageEntry (set * 8 + w)) s)

/-- AGE_PERIOD_WRITE (R102): a write of PAR_FC_CFG. The restart of the scanner is the time of its next visits. -/
def execAgePeriodWrite (value : Word) (s : State) : Out :=
  .next (s.wr Reg.PAR_FC_CFG 0 (writeFields false Reg.PAR_FC_CFG (s.rd Reg.PAR_FC_CFG 0) value))

/-! ### Installs (R107) -/

/-- The word of a message, zero past its end. -/
def Msg.word (m : Msg) (i : Nat) : Word := m.words.getD i 0

/-- The key of an install message; none where KEY_LEN or the message length is not valid (BAD_REQ). -/
def installKey (m : Msg) : Option (List Byte) :=
  let n := fcKeyLen (m.word 1)
  if n < 2 || 56 < n || m.words.length ≠ 2 + (n + 7) / 8 then none
  else some ((((m.words.drop 2).map wordBytesBE).flatten).take n)

/-- The classifier's reply to an install. -/
def State.installReply (s : State) (m : Msg) (result slot : Nat) : State :=
  let ch := bits (m.word 0) 63 48
  if ch = 0 then s
  else s.unitReply ch { src := unitSrc 0x020, words := [fieldAt (bits (m.word 0) 47 40) 56 ||| fieldAt result 48 ||| fieldAt slot 0] }

/-- A reply that has no slot to name carries a free value there (log entry 3). -/
def State.installFail (s : State) (m : Msg) (result : Nat) : State :=
  let (n, s) := s.drawNat
  s.installReply m result (n % 2 ^ 20)

/-- The bucket of a hash where the flow table is in use and its lines can be read. An install or a remove whose bucket is poisoned or lies
outside the interleaved capacity leaves DDR5 as it is, and is answered as if there were no bucket (DESIGN CHOICE, log entry 75). -/
def State.ftRead (s : State) (hash : Word) : Option (List Byte) × State :=
  if s.ftOn then s.ddrRead (s.ftBucket hash) 512 else (none, s)

/-- OP 1 and OP 2: insert, or insert or replace. -/
def State.fcInstall (s : State) (m : Msg) (replace : Bool) : State :=
  match installKey m with
  | none => s.installFail m 5
  | some key =>
    let e := m.word 1
    let hash := s.flowHash (keyProfile key) key
    let inst := keyInst key
    let need := slotsFor key.length
    let here := s.fcFind hash key
    let (bucket, s) := s.ftRead hash
    let there := bucket.bind fun b => ftFind b hash key
    if !replace && (here.isSome || there.isSome) then
      match here with
      | some i => s.installReply m 1 i
      | none => s.installFail m 1
    else if here.isNone && s.fcCap inst < s.fcUsed inst + need then s.installFail m 3
    else
      let w0 := fieldAt 1 63 ||| (e &&& (fieldAt 3 59 ||| fieldAt 15 52 ||| fieldAt 0xFFFFF 24)) ||| fieldAt key.length 16 |||
        fieldAt (bits hash 63 48) 0
      let place := match here with | some i => some (i, s) | none => s.fcPlace hash inst need
      let ddr : Option (Option Nat) :=
        if !fcBacked e then some none
        else match bucket with
          | none => some none
          | some b =>
            match there with
            | some j => some (some j)
            | none => ((List.range 8).find? fun j => !bit (ftEntry b j).1 63).map some
      match place, ddr with
      | some (i, t), some d =>
        let t := t.fcWrite i w0 key false
        let t := match d with | some j => t.storeBytes (t.ftBucket hash + 64 * j) (ftBytes w0 key) | none => t
        t.installReply m 0 i
      | _, _ => s.installFail m 2

/-- OP 3: the on-chip entry is removed and, where one exists, the DDR5 entry. -/
def State.fcUninstall (s : State) (m : Msg) : State :=
  match installKey m with
  | none => s.installFail m 5
  | some key =>
    let hash := s.flowHash (keyProfile key) key
    let here := s.fcFind hash key
    let (bucket, s) := s.ftRead hash
    let there := bucket.bind fun b => ftFind b hash key
    let s := match there with | some j => s.storeBytes (s.ftBucket hash + 64 * j) (List.replicate 64 0) | none => s
    match here, there with
    | some i, _ => (s.fcRemove i).installReply m 0 i
    | none, some _ => s.installFail m 0
    | none, none => s.installFail m 4

/-- FLOW_INSERT (R107): OP 1, and the OP values that are BAD_REQ. Another OP at the front of the section is another command's. -/
def execFlowInsert (sec : Fin 9) (s : State) : Out :=
  match s.takeUnit 0x8000 sec with
  | some (m, t) =>
    let op := bits (m.word 0) 39 36
    if op = 1 then .next (t.fcInstall m false) else if op = 2 || op = 3 then .next s else .next (t.installFail m 5)
  | none => .next s

/-- FLOW_INSERT_REPLACE (R107): OP 2. -/
def execFlowInsertReplace (sec : Fin 9) (s : State) : Out :=
  match s.takeUnit 0x8000 sec with
  | some (m, t) => if bits (m.word 0) 39 36 = 2 then .next (t.fcInstall m true) else .next s
  | none => .next s

/-- FLOW_REMOVE (R107): OP 3. -/
def execFlowRemove (sec : Fin 9) (s : State) : Out :=
  match s.takeUnit 0x8000 sec with
  | some (m, t) => if bits (m.word 0) 39 36 = 3 then .next (t.fcUninstall m) else .next s
  | none => .next s

end Sys2Proof.Machine
end

