-- ==== Sys2Proof/Machine/Police.lean ====
section
/-! DEFINITION. Policers (R160 to R162) and the refill of token buckets, which shapers share (R150). -/

namespace Sys2Proof.Machine

/-- A rate in kb/s as Table 06-3 limits it; 0 stays 0. -/
def rateOf (r : Nat) : Nat := if r = 0 then 0 else min 1600000000 (max 8 r)

/-- The bytes, and the fraction of a byte in units of 1/8,000,000, that a rate in kb/s gives in `dt` nanoseconds on top of a
fraction: RATE / 8,000 bytes per µs. -/
def accrue (rate dt frac : Nat) : Nat × Nat :=
  let x := rate * dt + frac
  (x / 8000000, x % 8000000)

/-- A policer's buckets filled up to now (R160): in MODE 0 the tokens that overflow CBS fill the excess bucket. -/
def State.polRefill (s : State) (p : Nat) : State :=
  let aux := mget BucketAux.init s.polAux p
  let dt := s.ns - aux.last
  let cbs := min 16777216 (s.fget Fld.TM_POL_W0_CBS p)
  let ebs := min 16777216 (s.fget Fld.TM_POL_W1_EBS_PBS p)
  let tc := s.fget Fld.TM_POL_W2_TC p
  let te := s.fget Fld.TM_POL_W2_TE_TP p
  let (nc, fc) := accrue (rateOf (s.fget Fld.TM_POL_W0_CIR p)) dt aux.fracC
  let (np, fp) := accrue (rateOf (s.fget Fld.TM_POL_W1_PIR p)) dt aux.fracE
  let two := s.fbit Fld.TM_POL_W0_MODE p
  let te' := if two then min ebs (te + np) else min ebs (te + (nc - (cbs - tc)))
  let s := (s.fset Fld.TM_POL_W2_TC p (min cbs (tc + nc))).fset Fld.TM_POL_W2_TE_TP p te'
  { s with polAux := mset BucketAux.init s.polAux p { last := s.ns, fracC := fc, fracE := if two then fp else 0 } }

/-- The pre-colour of a frame (R160, R161): 0 green, 1 yellow, 2 red; 3 is red. -/
def State.preColour (s : State) (p : Nat) (f : Frame) : Nat :=
  let map := s.fget Fld.TM_POL_W0_MAP p
  let c := match s.fget Fld.TM_POL_W0_SRC p with
    | 1 =>
      match hvLayer f.hv 1 with
      | none => 0
      | some l3 =>
        match ipVersion f.bytes l3 with
        | none => 0
        | some v =>
          let dscp := if v = 4 then byteAt f.bytes (l3 + 1) / 4 else w16 f.bytes l3 / 64 % 64
          bits (s.rd Reg.TM_DSCP_MAP (ix2 2 map (dscp / 32))) 63 0 / 4 ^ (dscp % 32) % 4
    | 2 => if hasVlan f.bytes then s.fget Fld.TM_PCP_MAP_COLOUR map / 4 ^ (byteAt f.bytes 14 / 32) % 4 else 0
    | _ => (hvByte f.hv 56).toNat % 4
  min c 2

/-- What a marker does with a frame of `len` bytes: its colour and the two buckets after (RFC 2697 for one rate, RFC 2698 for two). -/
def mark (two : Bool) (pre len tc te : Nat) : Nat × Nat × Nat :=
  if pre = 2 then (2, tc, te)
  else if two then
    if te < len then (2, tc, te)
    else if pre = 1 || tc < len then (1, tc, te - len)
    else (0, tc - len, te - len)
  else if pre = 0 && len ≤ tc then (0, tc - len, te)
  else if len ≤ te then (1, tc, te - len)
  else (2, tc, te)

/-- One METER operation on a policer: the colour and the state after (R160). A policer with VALID = 0 colours green and changes
nothing. -/
def State.meter (s : State) (p : Nat) (aware : Bool) (f : Frame) : Nat × State :=
  if !s.fbit Fld.TM_POL_W0_VALID p then (0, s)
  else
    let s := s.polRefill p
    let pre := if aware then s.preColour p f else 0
    let (c, tc, te) := mark (s.fbit Fld.TM_POL_W0_MODE p) pre f.lenFcs (s.fget Fld.TM_POL_W2_TC p) (s.fget Fld.TM_POL_W2_TE_TP p)
    let s := (s.fset Fld.TM_POL_W2_TC p tc).fset Fld.TM_POL_W2_TE_TP p te
    (c, if c = 2 then s.finc Fld.TM_POL_W3_RED_PKTS p else if c = 1 then s.finc Fld.TM_POL_W3_YELLOW_PKTS p else s)

/-- A policer's buckets clamped to their sizes, without a refill (R162). -/
def State.polClamp (s : State) (p : Nat) : State :=
  let cbs := min 16777216 (s.fget Fld.TM_POL_W0_CBS p)
  let ebs := min 16777216 (s.fget Fld.TM_POL_W1_EBS_PBS p)
  (s.fset Fld.TM_POL_W2_TC p (min cbs (s.fget Fld.TM_POL_W2_TC p))).fset Fld.TM_POL_W2_TE_TP p
    (min ebs (s.fget Fld.TM_POL_W2_TE_TP p))

/-- A write of one word of a policer (R162): the bucket word only while VALID = 0; the buckets are clamped to new sizes. -/
def State.polWrite (s : State) (p word : Nat) (v : Word) : State :=
  match word with
  | 0 =>
    let s := s.polRefill p
    (s.wr Reg.TM_POL_W0 p (writeFields false Reg.TM_POL_W0 (s.rd Reg.TM_POL_W0 p) v)).polClamp p
  | 1 =>
    let s := s.polRefill p
    (s.wr Reg.TM_POL_W1 p (writeFields false Reg.TM_POL_W1 (s.rd Reg.TM_POL_W1 p) v)).polClamp p
  | 2 => if s.fbit Fld.TM_POL_W0_VALID p then s.bump Fld.TMC_STATE_REFUSED_COUNT else (s.polRefill p).wr Reg.TM_POL_W2 p v
  | _ => s.wr Reg.TM_POL_W3 p v

/-- POLICER_WRITE (R162). -/
def execPolicerWrite (p : Fin 1048576) (word : Fin 4) (value : Word) (s : State) : Out := .next (s.polWrite p word value)

end Sys2Proof.Machine
end

