-- ==== Sys2Proof/Machine/Act.lean ====
section
/-! DEFINITION. The action engine: disposal messages, handoffs, action lists and their primitives, templates and mirror copies
(R108 to R112). -/

namespace Sys2Proof.Machine

/-! ### Templates (Table 04-10, R111) -/

/-- The header bytes of a template, and its HDR_LEN; none where HDR_LEN makes it unusable. -/
def State.template (s : State) (t : Nat) : Option (Word × List Byte) :=
  let w0 := s.rd Reg.ACT_TMPL (ix2 16 t 0)
  let hl := bits w0 63 56
  if hl < 14 || 112 < hl then none
  else some (w0, (((List.range 14).map fun k => wordBytesBE (s.rd Reg.ACT_TMPL (ix2 16 t (k + 1)))).flatten).take hl)

/-- The frame bytes of a push of a template, with the fields R111 fills. -/
def encapBytes (w0 : Word) (hdr body : List Byte) (vni : Option Nat) (hash : Word) (id : Nat) : List Byte :=
  let hl := hdr.length
  let l3 := bits w0 55 48
  let l4 := bits w0 47 40
  let tun := bits w0 39 32
  let v6 := bit w0 31
  let d := hdr ++ body
  let n := d.length
  let d := match vni with | some v => if tun + 7 ≤ hl then putBytes d (tun + 4) (natBE 3 v) else d | none => d
  if hl < l3 + (if v6 then 40 else 20) then d
  else
    let d := if v6 then put16 d (l3 + 4) (n - l3 - 40) else put16 (put16 d (l3 + 2) (n - l3)) (l3 + 4) id
    let udp := byteAt d (l3 + (if v6 then 6 else 9)) = 17 ∧ l4 + 8 ≤ hl
    let d := if udp then put16 (put16 d l4 (0xC000 + bits hash 13 0)) (l4 + 4) (n - l4) else d
    let d := ipv4Csum d l3
    if udp then (if bit w0 30 then l4Csum d l3 l4 17 6 else put16 d (l4 + 6) 0) else d

/-- The header vector after a push of `hl` bytes: the template's offsets become L3, L4 and TUNNEL, and the old frame start, L3 and L4
become the inner layers (R110). -/
def pushLayers (hv : Vector Word 64) (w0 : Word) (hl : Nat) : Vector Word 64 :=
  let mv (k : Nat) : Option Nat := (hvLayer hv k).map (· + hl)
  [(1, some (bits w0 55 48)), (2, some (bits w0 47 40)), (3, some (bits w0 39 32)), (4, some hl), (5, mv 1), (6, mv 2), (7, mv 7),
    (8, mv 8)].foldl (fun v (p : Nat × Option Nat) => hvSetLayer v p.1 p.2) hv

/-- A push of a template on a frame: none where the template is unusable. An IPv4 push takes the next identification (R111). -/
def State.encap (s : State) (t : Nat) (vni : Option Nat) (f : Frame) : Option (Frame × State) :=
  match s.template t with
  | none => none
  | some (w0, hdr) =>
    let s := if bit w0 31 then s else { s with pushId := s.pushId + 1 }
    some ({ f with bytes := encapBytes w0 hdr f.bytes vni f.hash s.pushId.toNat, hv := pushLayers f.hv w0 hdr.length }, s)

/-! ### Mirror copies (R112) -/

/-- A copy of a frame for a session, as the frame stands; a copy whose template is unusable is counted in MIRROR_DROP. -/
def State.mirrorCopy (s : State) (session : Nat) (f : Frame) : Option Frame × State :=
  let trunc := s.fget Fld.ACT_MIRROR_TRUNC session
  let bytes := if trunc = 0x1FFF then f.bytes else f.bytes.take trunc
  let c : Frame := { f with
    bytes := bytes, job := none, queue := some (s.fget Fld.ACT_MIRROR_QUEUE session), cipher := none, storeFwd := true, copy := true,
    stage := .admitting, charge := .free }
  if s.fbit Fld.ACT_MIRROR_TMPL_EN session then
    match s.encap (s.fget Fld.ACT_MIRROR_TMPL session) none c with
    | none => (none, s.bump Fld.ACTC_MIRROR_DROP_COUNT)
    | some (c, s) => (some c, s)
  else (some c, s)

/-! ### Primitives (Table 04-9) -/

/-- How a list ends before its last word. -/
inductive ListEnd where
  | listErr | dropped | ttlDrop | ttlExpired | recircLimit
  | recirc (start : Nat)
  deriving DecidableEq, Repr

/-- The action engine's work on one frame: the state, the frame, the pushes run, the copies made and the sessions whose copy is made
at the end of the list. -/
structure ActSt where
  s : State
  f : Frame
  pushes : Nat
  copies : List Frame
  post : List Nat

/-- The offset of a layer of the frame; a slot that is absent, or that lies at or past the frame's end, gives none. -/
def Frame.layer (f : Frame) (slot : Nat) : Option Nat := (hvLayer f.hv slot).filter fun o => decide (o < f.bytes.length)

/-- SET: LAYER 0 is the frame start, 8 the header-vector bytes 56 to 63. -/
def primSet (w : Word) (f : Frame) : Option Frame :=
  let layer := bits w 59 56
  let off := bits w 55 47
  let bs := natBE (2 ^ bits w 46 45) (bits w 31 0)
  if bits w 46 45 = 3 || 8 < layer then none
  else if layer = 8 then
    if 8 < off + bs.length then none else some { f with hv := hvSetBytes f.hv (56 + off) bs }
  else match (if layer = 0 then some 0 else f.layer layer) with
    | none => none
    | some o =>
      if f.bytes.length < o + off + bs.length then none else some { f with bytes := putBytes f.bytes (o + off) bs }

/-- POP (R110). -/
def State.primPop (s : State) (w : Word) (f : Frame) : Option Frame :=
  match bits w 59 58 with
  | 2 =>
    if !hasVlan f.bytes then some f
    else
      let mv (hv : Vector Word 64) (k : Nat) : Vector Word 64 :=
        match hvLayer hv k with
        | some o => if o ≤ 12 then hv else hvSetLayer hv k (if 16 ≤ o then some (o - 4) else none)
        | none => hv
      some { f with bytes := f.bytes.take 12 ++ f.bytes.drop 16, hv := (List.range 8).foldl (fun v k => mv v (k + 1)) f.hv }
  | 3 => none
  | kind =>
    let l2 : Option (List Byte) := if kind = 0 then some [] else (s.template (bits w 57 46)).map (·.2)
    match f.layer (if kind = 0 then 4 else 5), l2 with
    | some cut, some l2 =>
      let mv (k : Nat) : Option Nat :=
        match hvLayer f.hv k with | some o => if o + l2.length < cut then none else some (o + l2.length - cut) | none => none
      let hv := [(1, mv 5), (2, mv 6), (3, none), (4, none), (5, none), (6, none), (7, mv 7), (8, mv 8)].foldl
        (fun v (p : Nat × Option Nat) => hvSetLayer v p.1 p.2) f.hv
      some { f with bytes := l2 ++ f.bytes.drop cut, hv := hv }
    | _, _ => none

/-- TTL: the frame with the TTL or hop limit decremented, or how the list ends. -/
def primTtl (w : Word) (f : Frame) : Except ListEnd Frame :=
  match f.layer (if bit w 59 then 5 else 1) with
  | none => .error .listErr
  | some l3 =>
    match ipVersion f.bytes l3 with
    | none => .error .listErr
    | some v =>
      let at_ := if v = 4 then l3 + 8 else l3 + 7
      let t := byteAt f.bytes at_
      if t ≤ 1 then .error (if bit w 58 then .ttlDrop else .ttlExpired)
      else
        let old := w16 f.bytes (l3 + 8)
        let d := putBytes f.bytes at_ [BitVec.ofNat 8 (t - 1)]
        .ok { f with bytes := if v = 4 then csumFix d (l3 + 10) old (w16 d (l3 + 8)) else d }

/-- NAT: the address and port rewritten and the checksums updated incrementally; a UDP checksum of 0 stays 0. -/
def primNat (w : Word) (f : Frame) : Option Frame :=
  let inner := bit w 58
  match f.layer (if inner then 5 else 1) with
  | none => none
  | some l3 =>
    if ipVersion f.bytes l3 ≠ some 4 then none
    else
      let d := f.bytes
      let proto := byteAt d (l3 + 9)
      let l4 := f.layer (if inner then 6 else 2)
      let csAt : Option Nat := match l4 with
        | some o =>
          let k := if proto = 6 then 16 else 6
          if (proto = 6 || proto = 17) && o + k + 2 ≤ d.length then some (o + k) else none
        | none => none
      let live := match csAt with | some i => !(proto == 17 && w16 d i == 0) | none => false
      let fix (d : List Byte) (m m' : Nat) : List Byte :=
        match csAt with | some i => if live then csumFix d i m m' else d | none => d
      let a := l3 + (if bit w 59 then 16 else 12)
      let step (d : List Byte) (i v : Nat) : List Byte :=
        let m := w16 d i
        fix (csumFix (put16 d i v) (l3 + 10) m v) m v
      let addr := bits w 47 16
      let d := step (step d a (addr / 65536)) (a + 2) (addr % 65536)
      let port := bits w 15 0
      let d := match csAt, l4 with
        | some _, some o =>
          if port = 0 then d
          else
            let i := o + (if bit w 59 then 2 else 0)
            let m := w16 d i
            fix (put16 d i port) m port
        | _, _ => d
      some { f with bytes := d }

/-- CSUM at layer 1, 2, 5 or 6. -/
def primCsum (w : Word) (f : Frame) : Option Frame :=
  let layer := bits w 59 57
  if layer ≠ 1 ∧ layer ≠ 2 ∧ layer ≠ 5 ∧ layer ≠ 6 then none
  else
    let inner := layer = 5 ∨ layer = 6
    match f.layer (if inner then 5 else 1) with
    | none => none
    | some l3 =>
      match l4Proto f.bytes l3 with
      | none => none
      | some proto =>
        if layer = 1 ∨ layer = 5 then some { f with bytes := ipv4Csum f.bytes l3 }
        else match f.layer layer, l4CsumAt proto with
          | some l4, some k =>
            if f.bytes.length < l4 + k + 2 then none else some { f with bytes := l4Csum f.bytes l3 l4 proto k, storeFwd := true }
          | _, _ => none

/-- COUNT: adds 1 and the frame's length to a counter in DDR5, or counts COUNT_ERR. -/
def State.primCount (s : State) (cnt : Nat) (f : Frame) : State :=
  let a := s.fget Fld.ACT_CFG_CNT_BASE 0 * 2 ^ 30 + 16 * cnt
  match s.ddrRead a 16 with
  | (none, s) => s.bump Fld.ACTC_COUNT_ERR_COUNT
  | (some bs, s) =>
    s.memStore a (natLE 8 (leNat (bs.take 8) + 1) ++ natLE 8 (leNat (bs.drop 8) + f.lenFcs))

/-- MIRROR: a session with EN = 1 counts the primitive and copies one frame of every 2^SAMPLE_LOG2. -/
def ActSt.mirror (a : ActSt) (session : Nat) : ActSt :=
  let s := a.s
  if !s.fbit Fld.ACT_MIRROR_EN session then a
  else
    let k := mget 0 s.mirrorCount session
    let s := { s with mirrorCount := mset 0 s.mirrorCount session (k + 1) }
    if k % 2 ^ s.fget Fld.ACT_MIRROR_SAMPLE_LOG2 session ≠ 0 then { a with s := s }
    else if s.fbit Fld.ACT_MIRROR_POINT session then { a with s := s, post := a.post ++ [session] }
    else
      let (c, s) := s.mirrorCopy session a.f
      { a with s := s, copies := a.copies ++ c.toList }

/-- A primitive that only changes the frame, or that R109 refuses. -/
def ActSt.put (a : ActSt) (r : Option Frame) : ActSt × Option ListEnd :=
  match r with | some f => ({ a with f := f }, none) | none => (a, some .listErr)

/-- A push. -/
def ActSt.push (a : ActSt) (tmpl : Nat) (vni : Option Nat) : ActSt × Option ListEnd :=
  if 2 ≤ a.pushes then (a, some .listErr)
  else match a.s.encap tmpl vni a.f with
    | none => (a, some .listErr)
    | some (f, s) => ({ a with s := s, f := f, pushes := a.pushes + 1 }, none)

/-- One primitive (Table 04-9); END words never come here. -/
def ActSt.prim (a : ActSt) (w : Word) : ActSt × Option ListEnd :=
  match bits w 63 60 with
  | 0x1 => a.put (primSet w a.f)
  | 0x2 => a.push (bits w 59 48) (some (bits w 39 16))
  | 0x3 => a.push (bits w 59 48) (some (bits w 39 16))
  | 0x4 => a.push (bits w 59 48) none
  | 0x5 => a.put (a.s.primPop w a.f)
  | 0x6 => match primTtl w a.f with | .ok f => ({ a with f := f }, none) | .error e => (a, some e)
  | 0x7 => a.put (primNat w a.f)
  | 0x8 => ({ a with s := a.s.primCount (bits w 23 0) a.f }, none)
  | 0x9 =>
    let (c, s) := a.s.meter (bits w 19 0) (bit w 58) a.f
    ({ a with s := s, f := { a.f with hv := hvSet a.f.hv 56 (BitVec.ofNat 8 c) } },
      if c = 2 && bit w 59 then some .dropped else none)
  | 0xA => (a.mirror (bits w 59 54), none)
  | 0xB =>
    if a.f.cipher.isSome || 2 ≤ bits w 59 58 then (a, some .listErr)
    else ({ a with f := { a.f with cipher := some (bits w 59 58, bits w 15 0) } }, none)
  | 0xC => ({ a with f := { a.f with queue := some (bits w 17 0) } }, none)
  | 0xD => a.put (primCsum w a.f)
  | 0xE => ({ a with s := a.s.bump Fld.ACTC_DROP_REASON_COUNT (bits w 7 0) }, some .dropped)
  | _ => if 3 ≤ a.f.recirc then (a, some .recircLimit) else (a, some (.recirc (bits w 59 52)))

/-- The primitives in order; a 17th ends the list in LIST_ERR (R109). -/
def ActSt.run : ActSt → Nat → List Word → ActSt × Option ListEnd
  | a, _, [] => (a, none)
  | a, 0, _ :: _ => (a, some .listErr)
  | a, n + 1, w :: ws =>
    match a.prim w with
    | (a, none) => ActSt.run a n ws
    | (a, some e) => (a, some e)

/-- The words of a list before its first END. -/
def beforeEnd (ws : List Word) : List Word := ws.takeWhile fun w => bits w 63 60 != 0

/-- The words of list `n`: none where a DDR5 list cannot be read. -/
def State.listWords (s : State) (n : Nat) : Option (List Word) × State :=
  if n = 0 then (some [], s)
  else if n < 65536 then (some ((mget [] s.actLists n).take 16), s)
  else
    let (bs, s) := s.ddrRead (s.fget Fld.ACT_CFG_LIST_BASE 0 * 2 ^ 30 + 128 * (n - 65536)) 128
    (bs.map fun bs => (List.range 16).map fun k => BitVec.ofNat 64 (leNat ((bs.drop (8 * k)).take 8)), s)

/-- A copy goes on to admission on its own (R112), with the colour of its original (R154). -/
def State.sendCopy (s : State) (f : Frame) (c : Frame) : State :=
  (s.newFrame { c with hv := hvSet c.hv 56 (hvByte f.hv 56), cells := cellsOf (c.bytes.length + 4) }).2

/-- What becomes of a frame whose list has ended (R109, R456). -/
def State.listDone (s : State) (h : Nat) (f : Frame) : Option ListEnd → State
  | none =>
    match f.queue with
    | none => (s.bump Fld.ACTC_NO_QUEUE_COUNT).dropFrame h
    | some _ =>
      let s := s.setFrame h { f with stage := match f.cipher with | some (op, ctx) => .cipher op ctx | none => .admitting }
      { s with tmIn := s.tmIn ++ [h] }
  | some .listErr => (s.bump Fld.ACTC_LIST_ERR_COUNT).dropFrame h
  | some .dropped => s.dropFrame h
  | some .ttlDrop => (s.bump Fld.ACTC_TTL_DROP_COUNT).dropFrame h
  | some .recircLimit => (s.bump Fld.ACTC_RECIRC_LIMIT_COUNT).dropFrame h
  | some .ttlExpired => s.dispatch h { f with queue := none, cipher := none } 4 0
  | some (.recirc start) =>
    if 64 ≤ s.srcQueue 38 then (s.bump Fld.PARC_OVERRUN_COUNT 38).dropFrame h
    else
      { s.setFrame h { f with
          recirc := f.recirc + 1, src := 38, queue := none, cipher := none, stage := .parse start, arr := s.arrivals } with
        arrivals := s.arrivals + 1 }

/-- ACTION_LIST_APPLY (R109 to R112): the frames' lists run in the order the action engine accepted them. -/
def execActionListApply (h : Nat) (s : State) : Out :=
  match s.frame? h, s.actFifo with
  | some f, h' :: rest =>
    match f.stage with
    | .action base inlineWords =>
      if h' ≠ h then .next s
      else
        let s := { s with actFifo := rest }
        let (ws, s) := match base with | none => (some [], s) | some n => s.listWords n
        let (a, e) : ActSt × Option ListEnd :=
          match ws with
          | none => ({ s := s, f := f, pushes := 0, copies := [], post := [] }, some .listErr)
          | some ws => ActSt.run { s := s, f := f, pushes := 0, copies := [], post := [] } 16 (beforeEnd ws ++ beforeEnd inlineWords)
        let (late, s) := a.post.foldl (fun (acc : List Frame × State) k =>
          let (c, s) := acc.2.mirrorCopy k a.f
          (acc.1 ++ c.toList, s)) ([], a.s)
        let s := s.listDone h a.f e
        .next ((a.copies ++ late).foldl (fun s c => s.sendCopy a.f c) s)
    | _ => .next s
  | _, _ => .next s

/-- MIRROR_WRITE (R112): the write of a session's register returns its count to 0. -/
def execMirrorWrite (session : Fin 64) (value : Word) (s : State) : Out :=
  let s := s.wr Reg.ACT_MIRROR session (writeFields false Reg.ACT_MIRROR (s.rd Reg.ACT_MIRROR session) value)
  .next { s with mirrorCount := mset 0 s.mirrorCount session 0 }

/-! ### Disposal messages (R108) -/

/-- The packet a message names, among those its writer holds: a thread's packets, or for a control core the packets handed off. -/
def State.namedPacket (s : State) (m : Msg) : Option Nat :=
  let byHandle := bit (m.word 0) 41
  let named := (m.word 1).toNat % 2 ^ 24
  if 0xE000 ≤ m.src then
    if byHandle && 2 ≤ m.words.length && (match s.frame? named with | some f => f.stage == .handed | none => false) then some named
    else none
  else
    let pkts := (s.thr m.src).pkts
    if byHandle then (if 2 ≤ m.words.length && pkts.contains named then some named else none) else pkts.head?

/-- The packet leaves its thread's packet slot. -/
def State.releasePkt (s : State) (m : Msg) (h : Nat) : State :=
  if 0xE000 ≤ m.src then s else s.setThr m.src { (s.thr m.src) with pkts := (s.thr m.src).pkts.erase h }

/-- The adapter reads back bytes 56 and 57, and no others, of the vector that travels with an action message, or that travelled with the
handoff of the packet it names (R96, R108). -/
def Frame.readBack (f : Frame) (m : Msg) : Frame :=
  match m.hv <|> f.handed with
  | some hv => { f with hv := hvSet (hvSet f.hv 56 (hvByte hv 56)) 57 (hvByte hv 57) }
  | none => f

/-- A message that hands its packet off: HANDOFF = 1 from a thread. -/
def isHandoff (m : Msg) : Bool := bit (m.word 0) 40 && decide (m.src < 0xE000)

/-- ACTION_MESSAGE (R108): the action engine takes a disposal message of a section of channel 0x8001. A message that hands off is the
command HANDOFF's. -/
def execActionMessage (sec : Fin 9) (s : State) : Out :=
  match s.takeUnit 0x8001 sec with
  | none => .next s
  | some (m, t) =>
    if isHandoff m then .next s
    else match t.namedPacket m with
      | none => .next (t.bump Fld.ACTC_NO_PACKET_COUNT)
      | some h =>
        match t.frame? h with
        | none => .next (t.bump Fld.ACTC_NO_PACKET_COUNT)
        | some f =>
          let base := if bit (m.word 0) 43 then some (bits (m.word 0) 63 44) else none
          let words := m.words.drop (if bit (m.word 0) 41 then 2 else 1)
          .next ((t.releasePkt m h).toAction h (f.readBack m) base words)

/-- The packets handed off to firmware. -/
def State.handedOff (s : State) : Nat := (s.frames.filter fun c => c.2.stage == .handed).length

/-- HANDOFF (R108): the packet passes to firmware with the header vector as it stands at the message; at most 4,096 at once. -/
def execHandoff (sec : Fin 9) (s : State) : Out :=
  match s.takeUnit 0x8001 sec with
  | none => .next s
  | some (m, t) =>
    if !isHandoff m then .next s
    else match t.namedPacket m with
      | none => .next (t.bump Fld.ACTC_NO_PACKET_COUNT)
      | some h =>
        match t.frame? h with
        | none => .next (t.bump Fld.ACTC_NO_PACKET_COUNT)
        | some f =>
          let t := t.releasePkt m h
          if 4096 ≤ t.handedOff then .next ((t.bump Fld.ACTC_ORPHAN_DROP_COUNT).dropFrame h)
          else .next (t.setFrame h { f with stage := .handed, handed := m.hv })

end Sys2Proof.Machine
end

