-- ==== Sys2Proof/Machine/BowReg.lean ====
section
/-! DEFINITION. The registers of Bow: channel states, triggers and timers, ARM and the shadow, configuration, and the indices of the
completion queues (R329 to R334, R340, R344 to R346, Tables 14-5 and 14-6). -/

namespace Sys2Proof.Machine

def State.bowX (s : State) (c : Nat) : BowX := mget BowX.init s.bow c
def State.setBowX (s : State) (c : Nat) (x : BowX) : State := { s with bow := mset BowX.init s.bow c x }

/-- STATE: 0 DISABLED, 1 IDLE, 2 RUNNING, 3 WAIT, 4 IDLE_AT_END, 5 HALTED, 6 DISABLING. -/
def State.bowSt (s : State) (c : Nat) : Nat := s.fget Fld.BOW_CH_STATUS_STATE c
def State.setBowSt (s : State) (c st : Nat) : State := s.fset Fld.BOW_CH_STATUS_STATE c st
def State.bowChain (s : State) (c : Nat) : Bool := s.fbit Fld.BOW_CH_CFG_MODE c
def State.bowArmed (s : State) (c : Nat) : Bool := s.fbit Fld.BOW_CH_STATUS_ARM c

/-- Words of the active block and of the shadow. -/
def bowActive : Nat → RegDesc
  | 0 => Reg.BOW_CH_ACT_W0 | 1 => Reg.BOW_CH_ACT_W1 | 2 => Reg.BOW_CH_ACT_W2 | _ => Reg.BOW_CH_ACT_W3
def bowShadow : Nat → RegDesc
  | 0 => Reg.BOW_CH_SHD_W0 | 1 => Reg.BOW_CH_SHD_W1 | 2 => Reg.BOW_CH_SHD_W2 | _ => Reg.BOW_CH_SHD_W3

/-- The words of the active block, and the active block replaced. -/
def State.bowActiveWords (s : State) (c : Nat) : List Word := (List.range 4).map fun k => s.rd (bowActive k) c
def State.setBowActive (s : State) (c : Nat) (ws : List Word) : State :=
  (List.range 4).foldl (fun s k => s.wr (bowActive k) c (ws.getD k 0)) s

/-- A trigger reaches a channel (R330): lost where PENDING is 255, unless it is a `bowgo`, which is then not accepted. -/
def State.bowTrig (s : State) (c : Nat) (bowgo : Bool) : Option State :=
  let st := s.bowSt c
  let p := s.fget Fld.BOW_CH_STATUS_PENDING c
  if st = 0 ∨ st = 5 ∨ st = 6 then some (s.bump Fld.BOWC_TRIG_DROPPED_COUNT)
  else if p = 255 then (if bowgo then none else some (s.bump Fld.BOWC_TRIG_LOST_COUNT))
  else some (s.fset Fld.BOW_CH_STATUS_PENDING c (p + 1))

/-- A trigger that is not a `bowgo`. -/
def State.bowStart (s : State) (c : Nat) : State := (s.bowTrig c false).getD s

/-- The channels that select a source under TRIG_SRC: timers compare the low 6 bits of TRIG_SEL. -/
def State.bowSelected (s : State) (src sel : Nat) : List Nat :=
  (s.listed Reg.BOW_CH_CFG).filter fun c => s.fget Fld.BOW_CH_CFG_TRIG_SRC c == src &&
    (if src = 1 then s.fget Fld.BOW_CH_CFG_TRIG_SEL c % 64 == sel else s.fget Fld.BOW_CH_CFG_TRIG_SEL c == sel)

/-! ### DISABLE (R344) -/

/-- The bytes a block or an ended block may have written become undefined, where they lie in memory of the map. -/
def State.bowLose (s : State) (ws : List Word) (n : Nat) : State :=
  let dst := (ws.getD 2 0).toNat
  if n = 0 ∨ bit (ws.getD 3 0) 30 ∨ 0x020000000000 ≤ dst then s else s.loseRange dst (dst + n) true

/-- The host and peer reads of a channel that are out serve no block any longer: their data will be discarded. They stand under the channel's
number plus 512 until they have returned; what has not been issued never is. -/
def State.bowStale (s : State) (c : Nat) : State :=
  let old (r : HostRead) : HostRead :=
    match r.who with
    | .bow k off => if k = c then { r with who := .bow (c + 512) off, parts := r.parts.filter fun p => p.sent } else r
    | _ => r
  { s with
    hreads := s.hreads.map old,
    cueReads := s.cueReads.map fun r => if r.ch = c then { r with ch := c + 512 } else r }

/-- DISABLE: nothing more is issued, PENDING and ARM are 0, and no completion effect follows. REMAIN and CUR are free from now on, and
which of the accepted writes landed is too. -/
def State.bowStop (s : State) (c : Nat) : State :=
  let st := s.bowSt c
  if st = 0 ∨ st = 6 then s
  else
    let x := s.bowX c
    let s := match x.blk with | some b => s.bowLose b.words b.done | none => s
    let s := x.ended.foldl (fun s e => s.bowLose e.words e.bytes) s
    let (rem, s) := s.drawWord
    let (cur, s) := s.drawWord
    let s := ((s.fset Fld.BOW_CH_REMAIN_REMAIN c rem.toNat).fset Fld.BOW_CH_CUR_CUR c cur.toNat).setBowSt c 6
    let s := ((s.fset Fld.BOW_CH_STATUS_ERR c 0).fset Fld.BOW_CH_STATUS_PENDING c 0).fset Fld.BOW_CH_STATUS_ARM c 0
    let mine (w : HostWrite) : HostWrite := match w.owner with | .bow k _ _ _ _ _ _ => if k = c then { w with owner := .none } else w | _ => w
    { (s.setBowX c BowX.init).bowStale c with hwq := s.hwq.map fun e => (e.1, e.2.map mine) }

/-- Accepted host writes that the Hatband refuses later fail the blocks they belong to (R342). -/
def State.bowRefused (s : State) (os : List WriteOwner) : State :=
  os.foldl (fun s o => match o with
    | .bow c b off i g a d => s.setBowX c { s.bowX c with late := (s.bowX c).late ++ [⟨b, off, i, g, a, d⟩] }
    | _ => s) s

/-! ### Writes of the channel element -/

/-- ARM and DISARM have no effect in chain mode (R334). -/
def State.bowSetArm (s : State) (c : Nat) (b : Bool) : State := if s.bowChain c then s else s.fset Fld.BOW_CH_STATUS_ARM c (b2n b)

/-- A write of BOW_CH_CTL: DISABLE alone, else ENABLE, DISARM, ARM and START in that order. -/
def State.bowCtl (s : State) (c : Nat) (v : Word) : State :=
  if bit v 1 then s.bowStop c
  else
    let s := if !bit v 0 then s
      else match s.bowSt c with
        | 0 => ((s.setBowSt c 1).fset Fld.BOW_CH_STATUS_PENDING c 0).fset Fld.BOW_CH_STATUS_ACTIVE_VALID c 0
        | 6 => s.fset Fld.BOW_CH_STATUS_ENABLE_REFUSED c 1
        | _ => s
    let s := if bit v 4 then s.bowSetArm c false else s
    let s := if bit v 3 then s.bowSetArm c true else s
    if bit v 2 then s.bowStart c else s

/-- BOW_ENABLE (R345). -/
def execBowEnable (c : Fin 512) (s : State) : Out := .next (s.bowCtl c (fieldAt 1 0))
/-- BOW_DISABLE (R344). -/
def execBowDisable (c : Fin 512) (s : State) : Out := .next (s.bowCtl c (fieldAt 1 1))
/-- BOW_START (R329, R330). -/
def execBowStart (c : Fin 512) (s : State) : Out := .next (s.bowCtl c (fieldAt 1 2))
/-- BOW_ARM (R334). -/
def execBowArm (c : Fin 512) (s : State) : Out := .next (s.bowCtl c (fieldAt 1 3))
/-- BOW_DISARM (R334). -/
def execBowDisarm (c : Fin 512) (s : State) : Out := .next (s.bowCtl c (fieldAt 1 4))

/-- A shadow word is written, unless ARM = 1 in register mode (R334). -/
def State.bowShadowPut (s : State) (c word : Nat) (v : Word) : State :=
  if s.bowArmed c then s.fset Fld.BOW_CH_STATUS_SHADOW_BUSY c 1 else s.wr (bowShadow word) c v
/-- BOW_SHADOW_WRITE (R334). -/
def execBowShadowWrite (c : Fin 512) (word : Fin 4) (value : Word) (s : State) : Out := .next (s.bowShadowPut c word value)

/-- BOW_CH_CFG is written while DISABLED only (R346). -/
def State.bowCfgPut (s : State) (c : Nat) (v : Word) : State :=
  if s.bowSt c = 0 then s.wr Reg.BOW_CH_CFG c (writeFields false Reg.BOW_CH_CFG 0 v) else s.bump Fld.BOWC_CFG_REFUSED_COUNT
/-- BOW_CFG_WRITE (R346). -/
def execBowCfgWrite (c : Fin 512) (value : Word) (s : State) : Out := .next (s.bowCfgPut c value)

/-! ### Timers (R331) -/

/-- BOW_TIMER_WRITE (R331): the count starts anew; the model's clock does not run it (log entry 4). -/
def execBowTimerWrite (t : Fin 64) (value : Word) (s : State) : Out :=
  .next (s.wr Reg.BOW_TIMER t (writeFields false Reg.BOW_TIMER 0 value))

/-- BOW_TIMER_FIRE (R331): every channel that selects the timer takes a trigger; a ONESHOT timer clears EN. -/
def execBowTimerFire (t : Fin 64) (s : State) : Out :=
  if s.fbit Fld.BOW_TIMER_EN t then
    let s := (s.bowSelected 1 t).foldl (fun s c => s.bowStart c) s
    .next (if s.fbit Fld.BOW_TIMER_ONESHOT t then s.fset Fld.BOW_TIMER_EN t 0 else s)
  else .next s

/-! ### Completion queues (R340) -/

/-- A write of BOW_CQ_CFG: while EN = 1, LOG2SIZE and BASE keep their values; setting EN needs a size of 6 to 15, and empties the queue. -/
def State.bowCqCfg (s : State) (q : Nat) (v : Word) : State :=
  let old := s.rd Reg.BOW_CQ_CFG q
  let new := writeFields false Reg.BOW_CQ_CFG 0 v
  let keep : Word := ~~~(fieldAt 1 63)
  if bit old 63 then
    let s := if new &&& keep != old &&& keep then s.bump Fld.BOWC_CFG_REFUSED_COUNT else s
    s.fset Fld.BOW_CQ_CFG_EN q (b2n (bit v 63))
  else if bit v 63 then
    if 6 ≤ bits v 57 54 then ((s.wr Reg.BOW_CQ_CFG q new).fset Fld.BOW_CQ_IDX_TAIL q 0).fset Fld.BOW_CQ_IDX_HEAD q 0
    else s.wr Reg.BOW_CQ_CFG q (new &&& keep)
  else s.wr Reg.BOW_CQ_CFG q new
/-- BOW_CQ_CFG_WRITE (R340). -/
def execBowCqCfgWrite (q : Fin 16) (value : Word) (s : State) : Out := .next (s.bowCqCfg q value)

/-- HEAD is written, unless it would move backward or past the size (R340). -/
def State.bowCqHead (s : State) (q d : Nat) : State :=
  let occ (h : Nat) : Nat := (s.fget Fld.BOW_CQ_IDX_TAIL q + 65536 - h) % 65536
  if occ (s.fget Fld.BOW_CQ_IDX_HEAD q) < occ d then s.fset Fld.BOW_CQ_IDX_HEAD_REFUSED q 1 else s.fset Fld.BOW_CQ_IDX_HEAD q d
/-- BOW_CQ_HEAD_WRITE (R340). -/
def execBowCqHeadWrite (q : Fin 16) (value : BitVec 16) (s : State) : Out := .next (s.bowCqHead q value.toNat)

/-- A write of BOW_CQ_IDX: HEAD_REFUSED is W1C. -/
def State.bowCqIdx (s : State) (q : Nat) (v : Word) : State :=
  (if bit v 63 then s.fset Fld.BOW_CQ_IDX_HEAD_REFUSED q 0 else s).bowCqHead q (bits v 15 0)

end Sys2Proof.Machine
end

