-- ==== Sys2Proof/Machine/Image.lean ====
section
/-! DEFINITION. The contents of a save image (Table 12-6). The table names what each section holds and not how its bytes are laid out; the
layout here is the model's (DESIGN CHOICE, log entry 72): 8-byte words in Little-endian order, each object after a word that names it. -/

namespace Sys2Proof.Machine

/-- A saved completion (HELD): the local number and kind of its ring, STATUS, NBUF, TAG and RESULT, or the words of an NVMe entry. -/
structure CapoCpl where
  kind : Nat
  ring : Nat
  status : Nat
  nbuf : Nat
  tag : Nat
  result : Word
  nvme : Option (Word × Word)
  deriving DecidableEq, Repr

/-- A saved ring (RINGS, CHAINS, HELD), by kind and local number: element words 0, 1 and 3, its indices (P and C, or T and H), its fetched
entries not started and its held completions. -/
structure CapoRing where
  kind : Nat
  ring : Nat
  w0 : Word
  w1 : Word
  w3 : Word
  hi : Nat
  lo : Nat
  chain : List RingEntry
  held : List CapoCpl
  deriving DecidableEq, Repr

/-- A saved key context (KEYS): words 0, 1 and 3 to 7, the key material, INV_CNT and STATE. -/
structure CapoKey where
  words : List Word
  material : List Byte
  inv : Word
  state : Nat
  deriving DecidableEq, Repr

/-- A saved scheduler element (SCHED): its CLASS, words 0, 1, 4 and 6, TOKENS and the normalised F. -/
structure CapoSched where
  cls : Nat
  w0 : Word
  w1 : Word
  w4 : Word
  w6 : Word
  tokens : Nat
  f : Nat
  deriving DecidableEq, Repr

/-- A section: its TYPE and its bytes in clear. -/
abbrev CapoSec := Nat × List Byte

/-- What an image says, section by section. `rest` is what goes to the firmware buffer. -/
structure CapoImage where
  rings : List CapoRing
  ledger : List Byte
  keys : List CapoKey
  policers : List (List Word)
  sched : List CapoSched
  rest : List Byte
  deriving DecidableEq, Repr

/-! ### Words and bytes -/

def wordsBytes (ws : List Word) : List Byte := (ws.map wordBytesLE).flatten
def bytesWords (bs : List Byte) : List Word := (List.range (bs.length / 8)).map fun k => BitVec.ofNat 64 (leNat ((bs.drop (8 * k)).take 8))

/-! ### Written -/

/-- The word that names an object of a ring: its kind, its local number, and a count. -/
def ringName (kind ring size n : Nat) : Word := fieldAt kind 56 ||| fieldAt ring 32 ||| fieldAt size 16 ||| fieldAt n 0

/-- RINGS: the element words, the indices and the phase of the next entry. -/
def ringOut (r : CapoRing) : List Word :=
  [ringName r.kind r.ring 0 0, r.w0, r.w1, r.w3,
    fieldAt (if (r.hi % 65536).testBit (bits r.w0 55 52) then 0 else 1) 32 ||| fieldAt (r.hi % 65536) 16 ||| fieldAt (r.lo % 65536) 0]
/-- CHAINS: the entries of a ring, each its index and its words. -/
def chainOut (r : CapoRing) : List Word :=
  if r.chain.isEmpty then []
  else
    let size := (r.chain.map fun e => e.words.length).foldl max 0
    ringName r.kind r.ring size r.chain.length ::
      (r.chain.map fun e => fieldAt e.idx 0 :: (e.words ++ List.replicate (size - e.words.length) 0)).flatten
/-- HELD: four words a completion. -/
def cplOut (c : CapoCpl) : List Word :=
  let (a, b) := c.nvme.getD (0, 0)
  [fieldAt (b2n c.nvme.isSome) 63 ||| fieldAt (c.status % 128) 56 ||| fieldAt (c.ring % 256) 48 ||| fieldAt (c.kind % 2) 47 |||
    fieldAt (c.nbuf % 128) 40 ||| fieldAt (c.tag % 65536) 16, c.result, a, b]
def heldOut (r : CapoRing) : List Word :=
  if r.held.isEmpty then [] else ringName r.kind r.ring 4 r.held.length :: (r.held.map cplOut).flatten
/-- KEYS: a word with STATE and the length of the material, seven words, INV_CNT, the material. -/
def keyOut (k : CapoKey) : List Word :=
  (fieldAt k.state 60 ||| fieldAt k.material.length 0) :: k.words ++ [k.inv] ++
    bytesWords (k.material ++ List.replicate ((8 - k.material.length % 8) % 8) 0)
/-- SCHED. -/
def schedOut (e : CapoSched) : List Word := [fieldAt e.cls 0, e.w0, e.w1, e.w4, e.w6, fieldAt e.tokens 0, fieldAt e.f 0]

/-! ### Read back -/

/-- Objects of a fixed number of words. -/
def wordGroups (n : Nat) : Nat → List Word → Option (List (List Word))
  | _, [] => some []
  | 0, _ => none
  | fuel + 1, ws => if ws.length < n then none else (wordGroups n fuel (ws.drop n)).map fun l => ws.take n :: l

def ringIn (ws : List Word) : CapoRing :=
  let h := ws.getD 0 0
  { kind := bits h 63 56, ring := bits h 55 32, w0 := ws.getD 1 0, w1 := ws.getD 2 0, w3 := ws.getD 3 0, hi := bits (ws.getD 4 0) 31 16,
    lo := bits (ws.getD 4 0) 15 0, chain := [], held := [] }

/-- Objects of rings that a ringName word counts: kind, local number and the words of each. -/
def ringLists : Nat → List Word → Option (List (Nat × Nat × List (List Word)))
  | _, [] => some []
  | 0, _ => none
  | fuel + 1, h :: ws =>
    let size := bits h 31 16 + (if bits h 31 16 = 4 ∧ bits h 63 56 = 2 then 0 else 1)
    let n := bits h 15 0
    if ws.length < size * n ∨ n = 0 then none
    else
      match wordGroups size n (ws.take (size * n)), ringLists fuel (ws.drop (size * n)) with
      | some g, some l => some ((bits h 63 56, bits h 55 32, g) :: l)
      | _, _ => none

def cplIn (ws : List Word) : CapoCpl :=
  let h := ws.getD 0 0
  { kind := bits h 47 47, ring := bits h 55 48, status := bits h 62 56, nbuf := bits h 46 40, tag := bits h 31 16, result := ws.getD 1 0,
    nvme := if bit h 63 then some (ws.getD 2 0, ws.getD 3 0) else none }

def keysIn : Nat → List Word → Option (List CapoKey)
  | _, [] => some []
  | 0, _ => none
  | fuel + 1, h :: ws =>
    let len := bits h 15 0
    let m := (len + 7) / 8
    if ws.length < 8 + m then none
    else (keysIn fuel (ws.drop (8 + m))).map fun l =>
      { words := ws.take 7, material := (wordsBytes ((ws.drop 8).take m)).take len, inv := ws.getD 7 0, state := bits h 63 60 } :: l

def schedIn (ws : List Word) : CapoSched :=
  let w (k : Nat) : Word := ws.getD k 0
  { cls := (w 0).toNat, w0 := w 1, w1 := w 2, w4 := w 3, w6 := w 4, tokens := (w 5).toNat, f := (w 6).toNat }

/-- The bytes of all sections of a TYPE, in order. -/
def secBytes (secs : List CapoSec) (type : Nat) : List Byte := ((secs.filter fun p => p.1 == type).map fun p => p.2).flatten

/-- The firmware buffer of a restore: FLOWS, LEARNED and QUOTAS, each after a word with its TYPE and its length. -/
def firmwareOut (secs : List CapoSec) : List Byte :=
  ([9, 10, 8].map fun t => let bs := secBytes secs t; wordBytesLE (fieldAt t 56 ||| fieldAt bs.length 0) ++ bs).flatten

/-- What the sections of an image say: none where they are no image of Table 12-6. -/
def imageIn (secs : List CapoSec) : Option CapoImage :=
  let ws (t : Nat) : List Word := bytesWords (secBytes secs t)
  let ordered := (secs.zip (secs.drop 1)).all fun p => decide (p.1.1 ≤ p.2.1)
  if !ordered || secs.any (fun p => p.1 == 0 || decide (10 < p.1)) || (secBytes secs 4).length ≠ 6144 ||
      [1, 2, 3, 5, 6, 7].any (fun t => (secBytes secs t).length % 8 != 0) then none
  else
    match wordGroups 5 1000 (ws 1), ringLists 1000 (ws 2), ringLists 1000 (ws 3), keysIn 1025 (ws 5), wordGroups 3 8193 (ws 6),
        wordGroups 7 4097 (ws 7) with
    | some rs, some chains, some held, some keys, some pols, some sched =>
      let of_ (l : List (Nat × Nat × List (List Word))) (r : CapoRing) : List (List Word) :=
        ((l.filter fun x => x.1 == r.kind && x.2.1 == r.ring).map fun x => x.2.2).flatten
      let rings := rs.map fun g =>
        let r := ringIn g
        { r with chain := (of_ chains r).map fun e => ⟨(e.headD 0).toNat % 65536, e.drop 1⟩, held := (of_ held r).map cplIn }
      some { rings := rings, ledger := secBytes secs 4, keys := keys, policers := pols, sched := sched.map schedIn, rest := firmwareOut secs }
    | _, _, _, _, _, _ => none

end Sys2Proof.Machine
end

