-- ==== Sys2Proof/Machine/Aes.lean ====
section
/-! DEFINITION. The symmetric algorithms of Table 07-1 as their standards define them: AES (FIPS 197), GCM (SP 800-38D), XTS
(SP 800-38E), CBC (SP 800-38A), AES key unwrap (RFC 3394), SHA-256 and HMAC-SHA-256 (FIPS 180-4, FIPS 198-1). -/

namespace Sys2Proof.Machine

/-! ### AES -/

/-- Multiplication by x in the AES field. -/
def aesXtime (b : Nat) : Nat := if b < 128 then 2 * b else (2 * b ^^^ 0x11B) % 256
/-- Multiplication in the AES field. -/
def aesMul (a b : Nat) : Nat :=
  ((List.range 8).foldl (fun (p : Nat × Nat) i => (if b.testBit i then p.1 ^^^ p.2 else p.1, aesXtime p.2)) (0, a)).1
/-- The S-box, entry 0 in the most significant byte. -/
def aesSboxTable : Nat :=
  0x637C777BF26B6FC53001672BFED7AB76CA82C97DFA5947F0ADD4A2AF9CA472C0B7FD9326363FF7CC34A5E5F171D8311504C723C31896059A <<< 1600 +
  0x071280E2EB27B27509832C1A1B6E5AA0523BD6B329E32F8453D100ED20FCB15B6ACBBE394A4C58CFD0EFAAFB434D338545F9027F503C9FA8 <<< 1152 +
  0x51A3408F929D38F5BCB6DA2110FFF3D2CD0C13EC5F974417C4A77E3D645D197360814FDC222A908846EEB814DE5E0BDBE0323A0A4906245C <<< 704 +
  0xC2D3AC629195E479E7C8376D8DD54EA96C56F4EA657AAE08BA78252E1CA6B4C6E8DD741F4BBD8B8A703EB5664803F60E613557B986C11D9E <<< 256 +
  0xE1F8981169D98E949B1E87E9CE5528DF8CA1890DBFE6426841992D0FB054BB16 <<< 0
/-- The inverse S-box. -/
def aesInvTable : Nat :=
  0x52096AD53036A538BF40A39E81F3D7FB7CE339829B2FFF87348E4344C4DEE9CB547B9432A6C2233DEE4C950B42FAC34E082EA16628D924B2 <<< 1600 +
  0x765BA2496D8BD12572F8F66486689816D4A45CCC5D65B6926C704850FDEDB9DA5E154657A78D9D8490D8AB008CBCD30AF7E45805B8B34506 <<< 1152 +
  0xD02C1E8FCA3F0F02C1AFBD0301138A6B3A9111414F67DCEA97F2CFCEF0B4E67396AC7422E7AD3585E2F937E81C75DF6E47F11A711D29C589 <<< 704 +
  0x6FB7620EAA18BE1BFC563E4BC6D279209ADBC0FE78CD5AF41FDDA8338807C731B11210592780EC5F60517FA919B54A0D2DE57A9F93C99CEF <<< 256 +
  0xA0E03B4DAE2AF5B0C8EBBB3C83539961172B047EBA77D626E169146355210C7D <<< 0
def aesSbox (b : Byte) : Byte := BitVec.ofNat 8 (aesSboxTable >>> (8 * (255 - b.toNat)))
def aesInvSbox (b : Byte) : Byte := BitVec.ofNat 8 (aesInvTable >>> (8 * (255 - b.toNat)))

def xorBytes (a b : List Byte) : List Byte := List.zipWith (· ^^^ ·) a b

/-- The round constant number `i`. -/
def aesRcon (i : Nat) : Byte := BitVec.ofNat 8 ((List.range (i - 1)).foldl (fun r _ => aesXtime r) 1)

/-- The next word of the key schedule, from the words so far (newest first). -/
def aesNextWord (nk : Nat) (ws : List (List Byte)) : List Byte :=
  let i := ws.length
  let t := ws.getD 0 []
  let t := if i % nk = 0 then xorBytes ((t.drop 1 ++ t.take 1).map aesSbox) [aesRcon (i / nk), 0, 0, 0]
    else if 6 < nk ∧ i % nk = 4 then t.map aesSbox else t
  xorBytes (ws.getD (nk - 1) []) t
/-- `n` more words of the schedule. -/
def aesSchedule (nk : Nat) : Nat → List (List Byte) → List (List Byte)
  | 0, ws => ws
  | n + 1, ws => aesSchedule nk n (aesNextWord nk ws :: ws)
/-- Bytes in groups of `n`, up to `fuel` groups. -/
def chunks (n : Nat) : Nat → List Byte → List (List Byte)
  | 0, _ => []
  | k + 1, bs => if bs.isEmpty then [] else bs.take n :: chunks n k (bs.drop n)
/-- The round keys of a 16- or 32-byte key, 16 bytes each. -/
def aesKeys (key : List Byte) : List (List Byte) :=
  let nk := key.length / 4
  let rounds := nk + 6
  let ws := aesSchedule nk (4 * (rounds + 1) - nk) (chunks 4 nk key).reverse
  chunks 16 (rounds + 1) ws.reverse.flatten

def aesShiftRows (s : List Byte) : List Byte := (List.range 16).map fun i => s.getD (i % 4 + 4 * ((i / 4 + i % 4) % 4)) 0
def aesInvShiftRows (s : List Byte) : List Byte := (List.range 16).map fun i => s.getD (i % 4 + 4 * ((i / 4 + 4 - i % 4) % 4)) 0
/-- Each column times a circulant matrix whose first row is given. -/
def aesMix (m : List Nat) (s : List Byte) : List Byte :=
  (List.range 16).map fun i => BitVec.ofNat 8
    ((List.range 4).foldl (fun a j => a ^^^ aesMul (s.getD (4 * (i / 4) + j) 0).toNat (m.getD ((j + 4 - i % 4) % 4) 0)) 0)

/-- One block encrypted under round keys. -/
def aesEncWith (ks : List (List Byte)) (b : List Byte) : List Byte :=
  let n := ks.length - 1
  let k (i : Nat) : List Byte := ks.getD i []
  let b := (List.range (n - 1)).foldl (fun b i => xorBytes (aesMix [2, 3, 1, 1] (aesShiftRows (b.map aesSbox))) (k (i + 1))) (xorBytes b (k 0))
  xorBytes (aesShiftRows (b.map aesSbox)) (k n)
/-- One block decrypted under round keys. -/
def aesDecWith (ks : List (List Byte)) (b : List Byte) : List Byte :=
  let n := ks.length - 1
  let k (i : Nat) : List Byte := ks.getD i []
  let b := (List.range (n - 1)).foldl
    (fun b i => aesMix [14, 11, 13, 9] (xorBytes ((aesInvShiftRows b).map aesInvSbox) (k (n - 1 - i)))) (xorBytes b (k n))
  xorBytes ((aesInvShiftRows b).map aesInvSbox) (k 0)
def aesEnc (key b : List Byte) : List Byte := aesEncWith (aesKeys key) b

/-! ### GCM -/

/-- The product of two blocks in the GHASH field, the first bit of a block its highest: `n` bits of `x` are still to come, `z` is the sum so
far, and `v` the other factor, shifted once for each bit before. -/
def ghashMul (x : Nat) : Nat → Nat → Nat → Nat
  | 0, z, _ => z
  | n + 1, z, v => ghashMul x n (z ^^^ (x / 2 ^ n % 2 * v)) (v / 2 ^^^ (v % 2 * (0xE1 * 2 ^ 120)))
/-- Bytes padded with zeros to whole blocks. -/
def padBlocks (bs : List Byte) : List Byte := bs ++ List.replicate ((16 - bs.length % 16) % 16) 0
/-- GHASH of whole blocks under hash key `h`. -/
def ghash (h : Nat) (bs : List Byte) : Nat :=
  (chunks 16 (bs.length / 16 + 1) bs).foldl (fun y b => ghashMul (y ^^^ beNat b) 128 0 h) 0
/-- The counter-mode stream over bytes, from counter block nonce ‖ `c` on. -/
def gcmCtr (ks : List (List Byte)) (nonce : List Byte) : Nat → Nat → List Byte → List Byte
  | 0, _, _ => []
  | n + 1, c, bs =>
    if bs.isEmpty then []
    else xorBytes (bs.take 16) (aesEncWith ks (nonce ++ natBE 4 c)) ++ gcmCtr ks nonce n (c + 1) (bs.drop 16)
/-- Data encrypted, or decrypted, under a 12-byte nonce. -/
def gcmCrypt (key nonce data : List Byte) : List Byte := gcmCtr (aesKeys key) nonce (data.length / 16 + 1) 2 data
/-- The 16-byte tag of a ciphertext. -/
def gcmTag (key nonce aad ct : List Byte) : List Byte :=
  let ks := aesKeys key
  let h := beNat (aesEncWith ks (List.replicate 16 0))
  let s := ghash h (padBlocks aad ++ padBlocks ct ++ natBE 8 (8 * aad.length) ++ natBE 8 (8 * ct.length))
  xorBytes (natBE 16 s) (aesEncWith ks (nonce ++ natBE 4 1))

/-! ### XTS and CBC -/

/-- The XTS blocks of one data unit; the tweak is a number in little-endian form. -/
def xtsBlocks (crypt : List Byte → List Byte) : Nat → Nat → List Byte → List Byte
  | 0, _, _ => []
  | n + 1, t, bs =>
    if bs.isEmpty then []
    else
      let tw := natLE 16 t
      let t' := 2 * t
      xorBytes (crypt (xorBytes (bs.take 16) tw)) tw ++
        xtsBlocks crypt n (if 2 ^ 128 ≤ t' then (t' % 2 ^ 128) ^^^ 0x87 else t') (bs.drop 16)
/-- One data unit encrypted (or decrypted) under a 64-byte key and its data unit number. -/
def xtsUnit (enc : Bool) (key : List Byte) (unit : Nat) (data : List Byte) : List Byte :=
  let t := leNat (aesEnc (key.drop 32) (natLE 16 unit))
  let ks := aesKeys (key.take 32)
  xtsBlocks (if enc then aesEncWith ks else aesDecWith ks) (data.length / 16) t data
/-- Consecutive data units of `du` bytes from data unit number `unit` on. -/
def xtsCrypt (enc : Bool) (key : List Byte) (du unit : Nat) (data : List Byte) : List Byte :=
  ((List.range (data.length / du)).map fun i => xtsUnit enc key (unit + i) ((data.drop (i * du)).take du)).flatten

def cbcEncWith (ks : List (List Byte)) : Nat → List Byte → List Byte → List Byte
  | 0, _, _ => []
  | n + 1, iv, bs =>
    let c := aesEncWith ks (xorBytes (bs.take 16) iv)
    c ++ cbcEncWith ks n c (bs.drop 16)
def cbcDecWith (ks : List (List Byte)) : Nat → List Byte → List Byte → List Byte
  | 0, _, _ => []
  | n + 1, iv, bs => xorBytes (aesDecWith ks (bs.take 16)) iv ++ cbcDecWith ks n (bs.take 16) (bs.drop 16)
def cbcEnc (key iv data : List Byte) : List Byte := cbcEncWith (aesKeys key) (data.length / 16) iv data
def cbcDec (key iv data : List Byte) : List Byte := cbcDecWith (aesKeys key) (data.length / 16) iv data

/-! ### AES key unwrap (RFC 3394) -/

/-- The unwrapping steps `n`, …, 1 over A and the registers. -/
def kwSteps (ks : List (List Byte)) (n : Nat) : Nat → List Byte → List (List Byte) → List Byte × List (List Byte)
  | 0, a, rs => (a, rs)
  | t + 1, a, rs =>
    let i := t % n
    let b := aesDecWith ks (xorBytes a (natBE 8 (t + 1)) ++ rs.getD i [])
    kwSteps ks n t (b.take 8) (rs.set i (b.drop 8))
/-- The key material in a wrapped blob, where the integrity check passes. -/
def kwUnwrap (kek blob : List Byte) : Option (List Byte) :=
  let rs := chunks 8 (blob.length / 8) (blob.drop 8)
  let (a, rs) := kwSteps (aesKeys kek) rs.length (6 * rs.length) (blob.take 8) rs
  if a = List.replicate 8 0xA6 then some rs.flatten else none

/-! ### SHA-256 and HMAC -/

/-- The round constants, the first in the most significant 32 bits. -/
def sha256Table : Nat :=
  0x428A2F9871374491B5C0FBCFE9B5DBA53956C25B59F111F1923F82A4AB1C5ED5D807AA9812835B01243185BE550C7DC372BE5D7480DEB1FE <<< 1600 +
  0x9BDC06A7C19BF174E49B69C1EFBE47860FC19DC6240CA1CC2DE92C6F4A7484AA5CB0A9DC76F988DA983E5152A831C66DB00327C8BF597FC7 <<< 1152 +
  0xC6E00BF3D5A7914706CA63511429296727B70A852E1B21384D2C6DFC53380D13650A7354766A0ABB81C2C92E92722C85A2BFE8A1A81A664B <<< 704 +
  0xC24B8B70C76C51A3D192E819D6990624F40E3585106AA07019A4C1161E376C082748774C34B0BCB5391C0CB34ED8AA4A5B9CCA4F682E6FF3 <<< 256 +
  0x748F82EE78A5636F84C878148CC7020890BEFFFAA4506CEBBEF9A3F7C67178F2 <<< 0
def sha256K (i : Nat) : BitVec 32 := BitVec.ofNat 32 (sha256Table >>> (32 * (63 - i)))
/-- The next word of the message schedule, from the words so far (newest first). -/
def sha256Next (ws : List (BitVec 32)) : BitVec 32 :=
  let a := ws.getD 14 0
  let b := ws.getD 1 0
  (b.rotateRight 17 ^^^ b.rotateRight 19 ^^^ (b >>> 10)) + ws.getD 6 0 + (a.rotateRight 7 ^^^ a.rotateRight 18 ^^^ (a >>> 3)) + ws.getD 15 0
/-- One round on the eight working variables. -/
def sha256Round (v : List (BitVec 32)) (k w : BitVec 32) : List (BitVec 32) :=
  match v with
  | [a, b, c, d, e, f, g, h] =>
    let t1 := h + (e.rotateRight 6 ^^^ e.rotateRight 11 ^^^ e.rotateRight 25) + ((e &&& f) ^^^ (~~~e &&& g)) + k + w
    let t2 := (a.rotateRight 2 ^^^ a.rotateRight 13 ^^^ a.rotateRight 22) + ((a &&& b) ^^^ (a &&& c) ^^^ (b &&& c))
    [t1 + t2, a, b, c, d + t1, e, f, g]
  | _ => v
/-- One 64-byte block. -/
def sha256Block (h : List (BitVec 32)) (b : List Byte) : List (BitVec 32) :=
  let w0 := ((chunks 4 16 b).map fun c => BitVec.ofNat 32 (beNat c)).reverse
  let ws := ((List.range 48).foldl (fun ws _ => sha256Next ws :: ws) w0).reverse
  List.zipWith (· + ·) h ((List.range 64).foldl (fun v i => sha256Round v (sha256K i) (ws.getD i 0)) h)
def sha256 (m : List Byte) : List Byte :=
  let p := m ++ [0x80] ++ List.replicate ((119 - m.length % 64) % 64) 0 ++ natBE 8 (8 * m.length)
  let iv : List (BitVec 32) :=
    [0x6A09E667, 0xBB67AE85, 0x3C6EF372, 0xA54FF53A, 0x510E527F, 0x9B05688C, 0x1F83D9AB, 0x5BE0CD19]
  (((chunks 64 (p.length / 64) p).foldl sha256Block iv).map fun w => natBE 4 w.toNat).flatten
/-- HMAC-SHA-256 under a key of at most 64 bytes. -/
def hmacSha256 (key m : List Byte) : List Byte :=
  let k := key ++ List.replicate (64 - key.length) 0
  sha256 (k.map (· ^^^ 0x5C) ++ sha256 (k.map (· ^^^ 0x36) ++ m))

end Sys2Proof.Machine
end

