-- ==== Sys2Proof/Machine/Iso.lean ====
section
/-! DEFINITION. Instances: their state and generation, and the guarantees of a STRICT instance that register writes must keep
(R271, R279). -/

namespace Sys2Proof.Machine

/-- The state of an instance, as CAPO_INST_STATUS codes it: 0 OFF, 1 READY, 2 RESETTING, 3 FREEZING, 4 FROZEN, 5 SAVING, 6 RESTORING. -/
def State.instState (s : State) (i : Nat) : Nat := s.fget Fld.CAPO_INST_STATUS_STATE i

/-- Whether any host address range of an instance is valid. -/
def State.anyRange (s : State) (i : Nat) : Bool := (List.range 16).any fun k => s.fbit Fld.PCI_HB_RANGE_LO_VALID (ix2 16 i k)

/-- The conditions of R279 for a STRICT instance. -/
def State.strictOk (s : State) (i : Nat) : Bool :=
  decide (1 ≤ s.fget Fld.PAR_FC_QUOTA_RESV i) && decide (s.fget Fld.PAR_FC_QUOTA_RESV i ≤ s.fget Fld.PAR_FC_QUOTA_CAP i) &&
    decide (1 ≤ s.fget Fld.TM_INST_BUF_RESV i) && decide (8 ≤ s.fget Fld.PCI_TAG_QUOTA_MIN i) &&
    decide (1 ≤ s.fget Fld.TBL_LEARN_CAP_CAP i) && s.anyRange i

/-- A write of a quota of instance `i`, with the state `t` it would leave: dropped and counted in ISO_REFUSED where it would break
R279 for a STRICT instance that is not OFF. -/
def State.isoWrite (s : State) (i : Nat) (t : State) : State :=
  if s.fbit Fld.CAPO_INST_CTL_STRICT i && s.instState i != 0 && !t.strictOk i then s.bump Fld.CAPOC_ISO_REFUSED_COUNT else t

end Sys2Proof.Machine
end

