-- ==== Sys2Proof/Machine/Func.lean ====
section
/-! DEFINITION. The functions of the host bus endpoint: instance numbers, the functions present and enabled, their configuration
space, errors and resets (R209 to R211, R222, R228, R230, Tables 09-1, 09-2, 09-9). -/

namespace Sys2Proof.Machine

/-! ### Numbers (R209) -/

/-- The instance of VF `n` of PF `p`; VF 0 stands for the PF itself. -/
def instOf (p n : Nat) : Nat := if n = 0 then p else 4 + 1023 * p + n - 1
/-- The PF of an instance. -/
def pfOf (i : Nat) : Nat := if i < 4 then i else (i - 4) / 1023
/-- The VF number of an instance; 0 for a PF. -/
def vfOf (i : Nat) : Nat := if i < 4 then 0 else (i - 4) % 1023 + 1
/-- The controller of an instance. -/
def ctlOf (i : Nat) : Nat := pfOf i / 2

/-- The segment split in force (Table 09-1). -/
def State.split (s : State) : Nat := s.fget Fld.PCI_STRAP_SPLIT 0

/-- The lead segment of the link of a segment, and the width of that link. -/
def State.leadSeg (s : State) (g : Nat) : Nat :=
  match g with
  | 1 => if s.split = 2 then 1 else 0
  | 3 => if s.split = 1 ∨ s.split = 2 then 3 else 2
  | g => g
def State.linkWidth (s : State) (g : Nat) : Nat := if s.split = 2 ∨ (s.split = 1 ∧ 2 ≤ g) then 8 else 16

/-- Whether a PF is present: its segment is the lowest of its link. -/
def State.pfPresent (s : State) (p : Nat) : Bool := decide (p < 4) && s.leadSeg p == p

/-! ### Configuration space -/

def State.func (s : State) (i : Nat) : Func := mget Func.init s.funcs i
def State.setFunc (s : State) (i : Nat) (f : Func) : State := { s with funcs := mset Func.init s.funcs i f }

/-- The function of an instance exists: a PF that is present, or a VF its PF has enabled. -/
def State.funcExists (s : State) (i : Nat) : Bool :=
  let p := pfOf i
  let f := s.func p
  s.pfPresent p && (vfOf i == 0 || (f.vfEn && decide (vfOf i ≤ min 1023 f.numVfs)))

/-- The function answers memory requests: it exists, its memory space is enabled, and its segment is ready (R228). -/
def State.memEnabled (s : State) (i : Nat) : Bool :=
  s.funcExists i && (s.fget Fld.PCI_READY_CFG 0).testBit (pfOf i) &&
    (if vfOf i == 0 then (s.func i).mem else (s.func (pfOf i)).vfMem)

/-- The function may issue requests: Bus Master Enable is 1 and it is not in D3hot (R230). -/
def State.usable (s : State) (i : Nat) : Bool := s.funcExists i && (s.func i).bme && !(s.func i).d3

/-- The Device Control values of a function are those of its PF (Table 09-2). -/
def State.devCtl (s : State) (i : Nat) : Func := s.func (pfOf i)
/-- The largest payload and the largest read request of a function, in bytes. -/
def State.maxPayload (s : State) (i : Nat) : Nat := 128 * 2 ^ (s.devCtl i).mps
def State.maxRead (s : State) (i : Nat) : Nat := 128 * 2 ^ (s.devCtl i).mrrs
/-- How many reads the tag width of a function allows (R216). -/
def State.tagLimit (s : State) (i : Nat) : Nat :=
  match (s.devCtl i).tagBits with | 14 => 8192 | 10 => 768 | _ => 256

/-- The Completion Timeout of a function, in microseconds (Table 09-6). -/
def cplTimeoutUs : Nat → Nat
  | 1 => 50 | 2 => 5000 | 5 => 32000 | 6 => 128000 | 9 => 512000 | 10 => 2000000 | 13 => 8000000 | 14 => 64000000 | _ => 50000

/-- The straps are sampled (R209, Table 09-1): 0b11 acts as 0b00 and sets SPLIT_INVALID; the lead segments carry a PF. -/
def State.sampleStraps (s : State) : State :=
  let split := s.strapBalls
  let s := (s.fset Fld.PCI_STRAP_SPLIT 0 (if split = 3 then 0 else split)).fset Fld.PCI_STRAP_SPLIT_INVALID 0 (b2n (split == 3))
  (List.range 4).foldl (fun s g => s.fset Fld.PCI_SEG_STATUS_LEAD g (b2n (s.leadSeg g == g))) s

/-! ### Identity and capabilities (R211, Table 09-2) -/

/-- The values of Table 09-2 that nothing changes but the personality of a VF. Sizes and ranges are in the codes of the Base
specification. -/
inductive CfgWord where
  | vendorId | deviceId | revisionId | classCode | subsystemIds | serialNumber
  | maxPayloadSupported | timeoutRanges | timeoutDisable | noSoftReset | msixVectors | msixTable | msixPba
  | initialVfs | totalVfs | firstVfOffset | vfStride | vfDeviceId | pageSizes | atsQueueDepth | atsPageAligned
  deriving DecidableEq, Repr

/-- The value of a word of a function; none where the function has no such capability. MSI-X places are offset + BAR. -/
def State.cfgWord (s : State) (i : Nat) (w : CfgWord) : Option Nat :=
  let pf := vfOf i == 0
  let ofPf (n : Nat) : Option Nat := if pf then some n else none
  match w with
  | .vendorId => some Config.vendorId.toNat
  | .deviceId => some (if pf then 0x0880 else 0x0881)
  | .revisionId => some Config.revisionId.toNat
  | .classCode => some (if !pf && s.fbit Fld.STO_CTRL_W0_NVME i then 0x010802 else 0x020000)
  | .subsystemIds => some (Config.subsystemIds i).toNat
  | .serialNumber => ofPf Config.serial.toNat
  | .maxPayloadSupported => some 3
  | .timeoutRanges => some 15
  | .timeoutDisable => some 0
  | .noSoftReset => some 1
  | .msixVectors => some 2048
  | .msixTable => some (if pf then 0x10004 else 0x4000)
  | .msixPba => some (if pf then 0x18004 else 0xC000)
  | .initialVfs | .totalVfs => ofPf 1023
  | .firstVfOffset | .vfStride | .pageSizes => ofPf 1
  | .vfDeviceId => ofPf 0x0881
  | .atsQueueDepth => some 0
  | .atsPageAligned => some 1

/-! ### Errors (R222) -/

/-- The default severities of the Base specification (R222; PCI Express Base, PRESUMED, log entry 30). -/
inductive AerSev where
  | correctable | advisory | nonFatal | fatal
  deriving DecidableEq, Repr
def aerSeverity : AerErr → AerSev
  | .completionTimeout => .nonFatal
  | .ideCheckFailed => .fatal
  | .unexpectedCompletion | .poisonedTlp | .unsupportedRequest => .advisory
  | .link .dlProtocol => .fatal
  | .link _ => .correctable
/-- Whether an error is an uncorrectable one; the others are correctable or advisory. -/
def aerUncorrectable (e : AerErr) : Bool := match aerSeverity e with | .nonFatal | .fatal => true | _ => false

/-- An error is logged in a function; an uncorrectable one raises the controller's error source (R222). -/
def State.aerLog (s : State) (i : Nat) (e : AerErr) : State :=
  let f := s.func i
  let s := s.setFunc i { f with aer := if f.aer.contains e then f.aer else f.aer ++ [e] }
  if aerUncorrectable e then s.irq (524 + ctlOf i) else s

/-- A posted request that is not supported has no completion that says so: its error is an uncorrectable one (R222; the Base
specification, log entry 30). -/
def State.postedUr (s : State) (i : Nat) : State := (s.aerLog i .unsupportedRequest).irq (524 + ctlOf i)

/-- The counters of Table 09-10 count on the lead segment of the link: the PF's own segment. -/
def State.bumpPci (s : State) (f : Field) (i : Nat) : State := s.bump f (pfOf i)

/-- An IDE check fails on a stream: it is Insecure from now on, the failure is logged and counted (R225). -/
def State.ideFailed (s : State) (inst stream : Nat) : State :=
  ({ s with ideSecure := mset false s.ideSecure stream false }.aerLog inst .ideCheckFailed).bumpPci Fld.PCIC_IDE_FAIL_COUNT inst

/-- A host write that the dark period of a warm restart drops (R229). -/
def State.unlessDark (s : State) (i : Nat) (f : State → State) : State := if s.dark then s.bumpPci Fld.PCIC_DARK_WRITES_COUNT i else f s

/-- What becomes of a TLP before anything reads it: none where IDE drops it or its link has damaged it (R222, R225). -/
def State.tlpCheck (s : State) (inst : Nat) (t : Tlp) : Option Bool × State :=
  match t with
  | .good => (some false, s)
  | .poisoned => (some true, s)
  | .ideFail k => (none, s.ideFailed inst k)
  | .linkError e => (none, s.aerLog (pfOf inst) (.link e))
  | .unprotected k => if mget false s.ideSecure k then (none, s.ideFailed inst k) else (some false, s)

/-! ### The state of a function as the host sees it -/

/-- The function status word (Table 09-4, R272). -/
def State.funcStatus (s : State) (i : Nat) : Nat :=
  if s.dark then 2
  else match s.instState i with | 1 => 0 | 0 => 1 | 2 => 1 | _ => 3

/-- Whether a configuration request to a function is answered with Request Retry Status (R228, Table 09-9). -/
def State.retryStatus (s : State) (i : Nat) : Bool := !(s.fget Fld.PCI_READY_CFG 0).testBit (pfOf i) || mget false s.rrs i

/-- PCI_READY_WRITE (R228): the bits of upper x16 segments have no effect. -/
def State.readyWrite (s : State) (v : Word) : State :=
  s.wr Reg.PCI_READY 0 (s.rd Reg.PCI_READY 0 ||| (v &&& 15))
def execPciReadyWrite (value : Word) (s : State) : Out := .next (s.readyWrite value)

end Sys2Proof.Machine
end

