-- ==== Sys2Proof/Machine/HostMem.lean ====
section
/-! DEFINITION. Requests to host memory: the Hatband (R274), the page log (R296, R297), posted writes and MSI-X (R213, R214),
translations (R223), and host reads with their entries and tags (R216, R217). -/

namespace Sys2Proof.Machine

/-! ### The Hatband -/

/-- Whether one valid range of an instance holds every byte of an access and permits it. -/
def State.inRange (s : State) (i addr n : Nat) (write : Bool) : Bool :=
  (List.range 16).any fun k =>
    let x := ix2 16 i k
    s.fbit Fld.PCI_HB_RANGE_LO_VALID x && (if write then s.fbit Fld.PCI_HB_RANGE_LO_W x else s.fbit Fld.PCI_HB_RANGE_LO_R x) &&
      decide (s.fget Fld.PCI_HB_RANGE_LO_BASE x * 4096 ≤ addr) && decide (addr + n ≤ (s.fget Fld.PCI_HB_RANGE_HI_LIMIT x + 1) * 4096)

/-- What the Hatband does with a request (R274). -/
inductive Hatband where
  | pass | refused | orphan
  deriving DecidableEq, Repr

/-- The check of a request; `gen` is the generation a posted write carries. -/
def State.hatband (s : State) (i addr n : Nat) (write : Bool) (gen : Option Nat) : Hatband :=
  if !(s.usable i && s.inRange i addr n write) then .refused
  else match gen with
    | some g => if g = s.gen i then .pass else .orphan
    | none => .pass

/-- A refusal is counted and recorded (R274). -/
def State.hbRefuse (s : State) (i addr : Nat) : State :=
  ((s.bump Fld.CAPOC_HB_REFUSED_COUNT).fset Fld.CAPO_HB_LAST_INSTANCE 0 i).fset Fld.CAPO_HB_LAST_PAGE 0 (addr / 4096)

/-! ### Cutting a transfer into requests -/

/-- The pieces of `n` bytes from an address, none crossing a multiple of `step`: address and length. -/
def pieces (step : Nat) : Nat → Nat → Nat → List (Nat × Nat)
  | 0, _, _ => []
  | fuel + 1, a, n =>
    if n = 0 then []
    else
      let k := min n (step - a % step)
      (a, k) :: pieces step fuel (a + k) (n - k)

/-! ### Tags and entries (R216, R217) -/

/-- The entries an instance holds, quarantined ones included, and those in quarantine. -/
def State.tagUsed (s : State) (i : Nat) : Nat := (s.entries.filter fun e => e.inst == i).length
def State.tagQuar (s : State) (i : Nat) : Nat := (s.entries.filter fun e => e.inst == i && e.quar).length
/-- The instances of a controller whose quota differs from its reset value, or is that of a PF. -/
def State.quotaInsts (s : State) (c : Nat) : List Nat :=
  (([0, 1, 2, 3] ++ s.listed Reg.PCI_TAG_QUOTA).eraseDups).filter fun i => ctlOf i == c
/-- RESV_TOTAL of a controller. -/
def State.tagResv (s : State) (c : Nat) : Nat := ((s.quotaInsts c).map fun i => s.fget Fld.PCI_TAG_QUOTA_MIN i).sum
/-- FREE and QUARANTINED of a controller. -/
def State.poolUsed (s : State) (c : Nat) : Nat := (s.entries.filter fun e => ctlOf e.inst == c).length
def State.poolQuar (s : State) (c : Nat) : Nat := (s.entries.filter fun e => ctlOf e.inst == c && e.quar).length
/-- The entries a controller has in use above reservations. -/
def State.aboveResv (s : State) (c : Nat) : Nat :=
  let insts := ((s.entries.filter fun e => ctlOf e.inst == c).map fun e => e.inst).eraseDups
  (insts.map fun i => s.tagUsed i - s.fget Fld.PCI_TAG_QUOTA_MIN i).sum

/-- Whether an instance may take another entry now. -/
def State.mayTake (s : State) (i : Nat) : Bool :=
  let used := s.tagUsed i
  let mn := s.fget Fld.PCI_TAG_QUOTA_MIN i
  decide (used < mn) ||
    (decide (used < max mn (s.fget Fld.PCI_TAG_QUOTA_CAP i)) && decide (s.aboveResv (ctlOf i) < 8192 - s.tagResv (ctlOf i)))

/-- The tags of a function that no entry holds, within its tag width. -/
def State.freeTags (s : State) (i : Nat) : List Nat :=
  let held := (s.entries.filter fun e => e.inst == i).map fun e => e.tag
  (List.range (s.tagLimit i)).filter fun t => !held.contains t

/-- An entry is taken, if one may be: its tag, with the state that holds it. The spec does not say which free tag (log entry 26). -/
def State.takeEntry (s : State) (i read part : Nat) (xlat used : Option Nat) (len : Nat) : Option (Nat × State) :=
  if s.mayTake i then
    (s.pick (s.freeTags i)).map fun (t, s) => (t, { s with
      entryCount := s.entryCount + 1,
      entries := s.entries ++ [(⟨i, t, s.entryCount, read, part, xlat, used, len, [], false, s.gen i⟩ : ReadEntry)] })
  else none

/-! ### Translation (R223) -/

/-- The cached translation of a page. -/
def State.xlatFind (s : State) (i page : Nat) : Option AtsEntry := s.atsCache.find? fun e => e.inst == i && e.page == page

/-- Where an address of a read or a write goes: itself where its requests are not translated; the translated address, where the cache has a
translation that permits the access; none where it must be asked for (R223; the permissions of PCIe ATS, log entry 40). -/
def State.xlat (s : State) (i : Nat) (ats write : Bool) (addr : Nat) : Option Nat :=
  if ats && (s.func i).ats then
    ((s.xlatFind i (addr / 4096)).filter fun e => if write then e.w else e.r).map fun e => e.host * 4096 + addr % 4096
  else some addr

/-- A translation request for a page is sent, unless one of this generation is outstanding, the function may issue no request (R230) or no
entry may be taken. -/
def State.askXlat (s : State) (i page : Nat) : State :=
  if !s.usable i || s.entries.any fun e => e.inst == i && e.xlat == some page && !e.quar && e.gen == s.gen i then s
  else match s.takeEntry i s.hreadCount 0 (some page) none 0 with
    | some (t, s) => s.emit (.xlatRequest i t page)
    | none => s

/-! ### The page log (R296, R297) -/

/-- The key of a page in the filter. -/
def filterKey (i page : Nat) : Nat := i * 2 ^ 52 + page

/-- LOG2SIZE of an instance's log. -/
def State.logSize (s : State) (i : Nat) : Nat := 2 ^ s.fget Fld.CAPO_LOG_BASE_LOG2SIZE i

/-- Whether the ring appears full: by the consumer index last read. -/
def State.logFull (s : State) (i : Nat) : Bool :=
  decide (s.logSize i ≤ (s.fget Fld.CAPO_LOG_STATUS_PRODUCER i + 2 ^ 32 - mget 0 s.logCons i) % 2 ^ 32)

/-! ### Host reads -/

/-- The waiting posted writes of an instance. -/
def State.writesOf (s : State) (i : Nat) : List HostWrite := mget [] s.hwq i
def State.setWrites (s : State) (i : Nat) (ws : List HostWrite) : State := { s with hwq := mset [] s.hwq i ws }

/-- A page-log entry leaves as a posted write of the PF, which is not logged itself: behind the PF's waiting writes (R213), unless one of
those is the write it logs. -/
def State.logEntry (s : State) (i addr : Nat) (data : List Byte) : State :=
  let p := pfOf i
  if i ≠ p ∧ s.writesOf p ≠ [] then
    s.setWrites p (s.writesOf p ++ [(⟨p, s.gen p, addr, data, false, false, false, none, .pageLog i, [], .none⟩ : HostWrite)])
  else if s.hatband p addr 8 true none = .pass then s.emit (.hostWrite p addr data false false)
  else (s.hbRefuse p addr).fset Fld.CAPO_LOG_STATUS_LOG_LOST i 1

/-- A page is logged: the entry is posted as the instance's PF, and the filter takes the page while it has room (R296, R297). -/
def State.logPage (s : State) (i page : Nat) : State :=
  let k := s.fget Fld.CAPO_LOG_STATUS_PRODUCER i
  let lg := s.fget Fld.CAPO_LOG_BASE_LOG2SIZE i
  let addr := s.fget Fld.CAPO_LOG_BASE_BASE i * 4096 + 8 * (k % 2 ^ lg)
  let w : Word := fieldAt page 12 ||| (if k.testBit lg then 0 else 1)
  let s := (s.fset Fld.CAPO_LOG_STATUS_PRODUCER i (k + 1)).logEntry i addr (wordBytesLE w)
  if s.logFilter.length < 1048576 then { s with logFilter := mset false s.logFilter (filterKey i page) true }
  else s.bump Fld.CAPOC_FILTER_FULL_COUNT

/-- A read replaced by its number. -/
def State.setRead (s : State) (r : HostRead) : State := { s with hreads := s.hreads.map fun x => if x.id == r.id then r else x }

/-- The first part that has not been issued: its index. -/
def HostRead.nextPart (r : HostRead) : Option Nat := if r.res.isSome then none else r.parts.findIdx? fun p => !p.sent

/-- A read ends. -/
def State.endRead (s : State) (r : HostRead) (res : ReadRes) : State := s.setRead { r with res := some res }

/-- What happens when the next part of a read is to be issued (R213, R216, R217, R230, R274). -/
inductive Issued where
  | go (s : State) | wait (s : State)

/-- Part `k` of a read is issued, behind the waiting writes of its function (R213); a read of a PF's own page log passes the PF's write
that waits for it (DESIGN CHOICE, log entry 77). -/
def State.issuePart (s : State) (r : HostRead) (k : Nat) : Issued :=
  match r.parts[k]? with
  | none => .wait s
  | some p =>
    let behind := !(s.writesOf r.inst).isEmpty && (match r.who with | .pageLog i => i != r.inst | _ => true)
    if behind || !s.usable r.inst then .wait s
    else match s.xlat r.inst r.ats false p.addr with
      | none => .wait (s.askXlat r.inst (p.addr / 4096))
      | some a =>
        if s.hatband r.inst a p.len false none = .pass then
          match s.takeEntry r.inst r.id k none (if r.ats then some (p.addr / 4096) else none) p.len with
          | none => .wait s
          | some (t, s) =>
            .go ((s.setRead { r with parts := r.parts.set k { p with sent := true } }).emit (.hostRead r.inst t a p.len))
        else .go ((s.hbRefuse r.inst a).endRead r .refused)

/-- The reads of an instance are issued in order, as far as they may be. -/
def State.pumpReads (s : State) (i : Nat) : Nat → State
  | 0 => s
  | fuel + 1 =>
    match s.hreads.find? fun r => r.inst == i && r.nextPart.isSome with
    | none => s
    | some r =>
      match s.issuePart r (r.nextPart.getD 0) with
      | .go s => s.pumpReads i fuel
      | .wait s => s

/-- The number of parts that wait in all. -/
def State.partsWaiting (s : State) : Nat := (s.hreads.map fun r => r.parts.length + 1).sum

/-- The reads of an instance go on. -/
def State.readsGo (s : State) (i : Nat) : State := s.pumpReads i s.partsWaiting

/-- A unit reads host memory for an instance, under a generation of it. -/
def State.hostReadGen (s : State) (who : ReadOwner) (i gen addr len : Nat) (ats : Bool) : State :=
  let parts := (pieces (min (s.maxRead i) 4096) (len + 1) addr len).map fun c => (⟨c.1, c.2, false, none⟩ : ReadPart)
  let r : HostRead := ⟨s.hreadCount, who, i, gen, ats, parts, none⟩
  { s with hreadCount := s.hreadCount + 1, hreads := s.hreads ++ [r] }.readsGo i
/-- A unit reads host memory under the current generation. -/
def State.hostRead (s : State) (who : ReadOwner) (i addr len : Nat) (ats : Bool) : State := s.hostReadGen who i (s.gen i) addr len ats

/-- The result of the oldest read of an issuer, taken from the tracker. -/
def State.takeRead (s : State) (who : ReadOwner) : Option (ReadRes × State) :=
  match s.hreads.find? fun r => r.who == who with
  | none => none
  | some r => r.res.map fun res => (res, { s with hreads := s.hreads.filter fun x => x.id != r.id })

/-- The reads of some issuers are abandoned; data that still arrives for them is discarded. -/
def State.dropReads (s : State) (p : HostRead → Bool) : State := { s with hreads := s.hreads.filter fun r => !p r }

/-! ### Posted writes -/

/-- What becomes of the write at the head of its function's order. -/
inductive Posted where
  | sent (s : State) | refused (s : State) | blocked (s : State)

/-- The address and data of an MSI-X vector's table entry. -/
def State.msixWord (s : State) (i k : Nat) : Nat := mget (if k % 4 = 3 then 1 else 0) s.msixTab (i * 8192 + k)
def State.setMsixWord (s : State) (i k v : Nat) : State :=
  { s with msixTab := mset (if k % 4 = 3 then 1 else 0) s.msixTab (i * 8192 + k) v }

/-- A vector may be sent now: MSI-X is enabled and neither mask nor the dark period nor R230 holds it. -/
def State.msixOpen (s : State) (i vec : Nat) : Bool :=
  let f := s.func i
  s.usable i && f.msixEn && !f.msixMask && s.msixWord i (4 * vec + 3) % 2 == 0 && !s.dark

/-- The page log considers a write: not one of the page log itself, nor one of a saved image (R289, R296). -/
def HostWrite.mayLog (w : HostWrite) : Bool := match w.owner with | .pageLog _ | .image => false | _ => true

/-- A posted write reaches the Hatband (R213, R214, R223, R274, R296). Data writes lie within one page. A vector that may not be sent
by now sets its PBA bit (R229, R230). -/
def State.post (s : State) (w : HostWrite) : Posted :=
  match w.msix with
  | some v =>
    if w.gen ≠ s.gen w.inst then .sent (s.bump Fld.CAPOC_ORPHAN_WRITES_COUNT)
    else if s.msixOpen w.inst v then
      .sent (s.emit (.msix w.inst v (s.msixWord w.inst (4 * v) + 2 ^ 32 * s.msixWord w.inst (4 * v + 1)) (s.msixWord w.inst (4 * v + 2))))
    else .sent { s with msixPba := mset false s.msixPba (w.inst * 2048 + v) true }
  | none =>
    if !s.usable w.inst then .refused (s.hbRefuse w.inst w.addr)
    else match s.xlat w.inst w.ats true w.addr with
    | none =>
      if w.gen ≠ s.gen w.inst then .sent (s.bump Fld.CAPOC_ORPHAN_WRITES_COUNT) else .blocked (s.askXlat w.inst (w.addr / 4096))
    | some a =>
      match s.hatband w.inst a w.data.length true (some w.gen) with
      | .refused => .refused (s.hbRefuse w.inst a)
      | .orphan => .sent (s.bump Fld.CAPOC_ORPHAN_WRITES_COUNT)
      | .pass =>
        let page := a / 4096
        let log := w.mayLog && s.fbit Fld.CAPO_INST_CTL_LOG_EN w.inst && !mget false s.logFilter (filterKey w.inst page) && !w.logged.contains page
        if log && s.logFull w.inst then
          if s.hreads.any fun r => r.who == .pageLog w.inst then .blocked s
          else
            .blocked (s.hostRead (.pageLog w.inst) (pfOf w.inst)
              (s.fget Fld.CAPO_LOG_BASE_BASE w.inst * 4096 + 8 * s.logSize w.inst) 8 false)
        else
          let s := if log then s.logPage w.inst page else s
          let s := if w.ep then s.bumpPci Fld.PCIC_POISON_TX_COUNT w.inst else s
          .sent (s.emit (.hostWrite w.inst a w.data w.relaxed w.ep))

/-- Whether two writes belong to one block of Bow. -/
def sameBlock : WriteOwner → WriteOwner → Bool
  | .bow c b _ _ _ _ _, .bow c' b' _ _ _ _ _ => c == c' && b == b'
  | _, _ => false

/-- The waiting writes of an instance go on; the owners of those refused are named. No later write of a refused one's block passes (R342):
it is named too. -/
def State.pumpWrites (s : State) (i : Nat) : Nat → State × List WriteOwner
  | 0 => (s, [])
  | fuel + 1 =>
    match s.writesOf i with
    | [] => (s, [])
    | w :: ws =>
      match s.post w with
      | .blocked s => (s, [])
      | .sent s => (s.setWrites i ws).pumpWrites i fuel
      | .refused s =>
        let (t, os) := (s.setWrites i (ws.filter fun x => !sameBlock w.owner x.owner)).pumpWrites i fuel
        (t, w.owner :: ((ws.filter fun x => sameBlock w.owner x.owner).map fun x => x.owner) ++ os)

/-- Everything of an instance that waits goes on: writes, then reads. -/
def State.hostGo (s : State) (i : Nat) : State × List WriteOwner :=
  let (s, os) := s.pumpWrites i ((s.writesOf i).length + 1)
  (s.readsGo i, os)

/-- A posted write joins the order of its function, and leaves at once if it may; the answer says whether the Hatband refused it. -/
def State.postWrite (s : State) (w : HostWrite) : State × Bool :=
  if (s.writesOf w.inst).isEmpty then
    match s.post w with
    | .sent s => (s, false)
    | .refused s => (s, true)
    | .blocked s => (s.setWrites w.inst [w], false)
  else (s.setWrites w.inst (s.writesOf w.inst ++ [w]), false)

/-- Data to host memory for an instance, in requests of at most the function's payload size, none crossing a page; the answer says
whether the Hatband refused any. -/
def State.hostWrite (s : State) (i gen addr : Nat) (data : List Byte) (ats relaxed ep : Bool) (owner : WriteOwner)
    (undo : Undo := .none) : State × Bool :=
  (pieces (min (s.maxPayload i) 4096) (data.length + 1) addr data.length).foldl
    (fun (a : State × Bool) c =>
      let (t, r) := a.1.postWrite ⟨i, gen, c.1, (data.drop (c.1 - addr)).take c.2, ats, relaxed && (s.devCtl i).relaxed, ep, none, owner, [], undo⟩
      (t, a.2 || r)) (s, false)

/-- MSI-X vector `vec` of a function: sent, or recorded in the PBA (R229, R230, R250). -/
def State.msix (s : State) (i vec : Nat) : State :=
  if s.msixOpen i vec then (s.postWrite ⟨i, s.gen i, 0, [], false, false, false, some vec, .none, [], .none⟩).1
  else { s with msixPba := mset false s.msixPba (i * 2048 + vec) true }

/-- The pending vectors of a function that may be sent now are sent. -/
def State.msixFlush (s : State) (i : Nat) : State :=
  let ready := (s.msixPba.filter fun c => c.1 / 2048 == i && s.msixOpen i (c.1 % 2048)).map fun c => c.1
  ready.foldl (fun s k => { s with msixPba := mset false s.msixPba k false }.msix i (k % 2048)) s

/-! ### Completions and timeouts (R218 to R221) -/

/-- An entry is freed. -/
def State.freeEntry (s : State) (e : ReadEntry) : State := { s with entries := s.entries.filter fun x => x.sn != e.sn }
def State.setEntry (s : State) (e : ReadEntry) : State :=
  { s with entries := s.entries.map fun x => if x.sn == e.sn then e else x }

/-- The translation of a page that reads or writes of an instance need fails them: the reads end with `res`, and a write that needed it is
refused (Table 09-7). -/
def State.failXlat (s : State) (i page : Nat) (reads writes : Bool) (res : ReadRes) : State × List WriteOwner :=
  let needs (r : HostRead) : Bool := reads && r.inst == i && r.ats && r.res.isNone &&
    (match r.nextPart with | some k => (match r.parts[k]? with | some p => p.addr / 4096 == page | none => false) | none => false)
  let s := { s with hreads := s.hreads.map fun r => if needs r then { r with res := some res } else r }
  match s.writesOf i with
  | w :: ws => if writes && w.ats && w.addr / 4096 == page then (s.setWrites i ws, [w.owner]) else (s, [])
  | [] => (s, [])

/-- A read fails, or its translation does: what needed it ends with `res`; a write that needed it is refused (Table 09-7). -/
def State.failEntry (s : State) (e : ReadEntry) (res : ReadRes) : State × List WriteOwner :=
  match e.xlat with
  | none =>
    match s.hreads.find? fun r => r.id == e.read && r.res.isNone with
    | some r => (s.endRead r res, [])
    | none => (s, [])
  | some page => if e.gen = s.gen e.inst then s.failXlat e.inst page true true res else (s, [])

/-- The data of a part have all arrived. -/
def State.partDone (s : State) (e : ReadEntry) (bs : List Byte) : State :=
  match s.hreads.find? fun r => r.id == e.read && r.res.isNone with
  | none => s
  | some r =>
    let parts := r.parts.mapIdx fun k p => if k = e.part then { p with got := some bs } else p
    if parts.all fun p => p.got.isSome then
      s.setRead { r with parts := parts, res := some (.ok ((parts.map fun p => p.got.getD []).flatten)) }
    else s.setRead { r with parts := parts }

/-- A completion for a live entry. A translation asked for under an older generation is not used (R281). -/
def State.cplLive (s : State) (e : ReadEntry) (poisoned : Bool) (c : Cpl) : State × List WriteOwner :=
  match c with
  | .ur | .ca => ((s.bumpPci Fld.PCIC_CPL_ERR_COUNT e.inst).freeEntry e).failEntry e .fail
  | .translation host r w =>
    match e.xlat with
    | none => (s, [])
    | some page =>
      let s := s.freeEntry e
      if e.gen ≠ s.gen e.inst then (s, [])
      else
      let kept := s.atsCache.filter fun a => !(a.inst == e.inst && a.page == page)
      let own := kept.filter fun a => ctlOf a.inst == ctlOf e.inst
      let cache := if own.length < 16384 then kept else match own with | a :: _ => kept.erase a | [] => kept
      let s := if r || w then { s with atsCache := cache ++ [(⟨e.inst, page, host, r, w⟩ : AtsEntry)] } else s
      s.failXlat e.inst page (!r) (!w) .fail
  | .data bs =>
    if e.xlat.isSome then (s, [])
    else
    let got := e.got ++ bs.take (e.len - e.got.length)
    let s := if got.length < e.len then s.setEntry { e with got := got } else s.freeEntry e
    if poisoned then
      let s := (s.aerLog e.inst .poisonedTlp).bumpPci Fld.PCIC_POISON_RX_COUNT e.inst
      s.failEntry e .poison
    else if got.length < e.len then (s, [])
    else (s.partDone e got, [])

/-- A completion for a quarantined entry is discarded; the one that would have been the last frees the entry (R219). -/
def State.cplLate (s : State) (e : ReadEntry) (c : Cpl) : State :=
  let s := (s.aerLog e.inst .unexpectedCompletion).bumpPci Fld.PCIC_LATE_CPL_COUNT e.inst
  match c with
  | .data bs =>
    let got := e.got ++ bs.take (e.len - e.got.length)
    if got.length < e.len then s.setEntry { e with got := got } else s.freeEntry e
  | _ => s.freeEntry e

/-- A completion with a tag of a function (R219, R220, R221). -/
def State.cpl (s : State) (i tag : Nat) (poisoned : Bool) (c : Cpl) : State × List WriteOwner :=
  match s.entries.find? fun e => e.inst == i && e.tag == tag with
  | none => ((s.aerLog i .unexpectedCompletion).bumpPci Fld.PCIC_UNEXP_CPL_COUNT i, [])
  | some e => if e.quar then (s.cplLate e c, []) else s.cplLive e poisoned c

/-- The timeout of an entry expires (R219). -/
def State.cplTimeout (s : State) (i tag : Nat) : State × List WriteOwner :=
  match s.entries.find? fun e => e.inst == i && e.tag == tag && !e.quar with
  | none => (s, [])
  | some e =>
    let (s, os) := (s.setEntry { e with quar := true }).failEntry e .fail
    ((s.aerLog i .completionTimeout).bumpPci Fld.PCIC_CTO_COUNT i, os)

/-! ### Register writes -/

/-- A write of PCI_TAG_QUOTA (R217, R279). -/
def State.tagQuotaWrite (s : State) (i : Nat) (v : Word) : State :=
  let c := ctlOf i
  let total := s.tagResv c - s.fget Fld.PCI_TAG_QUOTA_MIN i + Fld.PCI_TAG_QUOTA_MIN.of v
  if 8192 < total then s.fset Fld.PCI_TAG_POOL_QUOTA_REFUSED c 1
  else s.isoWrite i (s.wr Reg.PCI_TAG_QUOTA i (writeFields false Reg.PCI_TAG_QUOTA (s.rd Reg.PCI_TAG_QUOTA i) v))
/-- TAG_QUOTA_WRITE (R217). -/
def execTagQuotaWrite (inst : Fin 4096) (value : Word) (s : State) : Out := .next (s.tagQuotaWrite inst value)

/-- The latency a half of an LTR word states: VALUE × 32^SCALE, when a requirement is present. -/
def ltrNs (h : Nat) : Nat := h % 1024 * 32 ^ (h / 1024 % 8)
/-- The lower of a register half and a Max register. -/
def ltrLower (h mx : Nat) : Nat := if ltrNs h ≤ ltrNs mx then h else h / 0x2000 * 0x2000 + mx % 0x2000

/-- A write of PCI_LTR_CFG (R226). -/
def State.ltrWrite (s : State) (p : Nat) (v : Word) : State :=
  let old := s.rd Reg.PCI_LTR_CFG p
  let new := writeFields false Reg.PCI_LTR_CFG old v
  let s := s.wr Reg.PCI_LTR_CFG p new
  let f := s.func p
  if f.ltr && new != old then
    s.emit (.ltrMessage p (fieldAt (ltrLower (bits new 31 16) f.ltrSnoop) 16 ||| fieldAt (ltrLower (bits new 15 0) f.ltrNoSnoop) 0))
  else s
/-- LTR_CFG_WRITE (R226). -/
def execLtrCfgWrite (pf : Fin 4) (value : Word) (s : State) : Out := .next (s.ltrWrite pf value)

/-- A write of one half of a PCI_HB_RANGE entry (R275, R279). -/
def State.hbRangeWrite (s : State) (i k : Nat) (hi : Bool) (v : Word) : State :=
  let r := if hi then Reg.PCI_HB_RANGE_HI else Reg.PCI_HB_RANGE_LO
  s.isoWrite i (s.wr r (ix2 16 i k) (writeFields false r (s.rd r (ix2 16 i k)) v))

/-! ### Invalidation (R223) -/

/-- ATS_INVALIDATE: the cached translations of the pages go; the completion waits for the reads that used one. -/
def execAtsInvalidate (inst : Fin 4096) (lo hi itag : Nat) (s : State) : Out :=
  let within (p : Nat) : Bool := decide (lo ≤ p) && decide (p ≤ hi)
  let uses := (s.entries.filter fun e => e.inst == inst.val && !e.quar && (match e.used with | some p => within p | none => false)).map fun e => e.sn
  .next { s with
    atsCache := s.atsCache.filter fun e => !(e.inst == inst.val && within e.page),
    atsInv := s.atsInv ++ [(⟨inst, itag, uses⟩ : AtsInv)] }

/-- INVALIDATION_COMPLETION: sent once every read that used a matching translation has completed or entered quarantine. -/
def execInvalidationCompletion (inst : Fin 4096) (itag : Nat) (s : State) : Out :=
  match s.atsInv.find? fun v => v.inst == inst.val && v.itag == itag with
  | none => .next s
  | some v =>
    if s.entries.any fun e => v.uses.contains e.sn && !e.quar then .next s
    else .next ({ s with atsInv := s.atsInv.erase v }.emit (.invCompletion inst itag))

/-! ### DOE (R224, R225) -/

/-- The discovery answer for an index: vendor 0x0001 and the object types of Table 09-2, with the next index. -/
def doeDiscovery (ix : Nat) : List Byte := natLE 2 1 ++ natLE 1 (min ix 2) ++ natLE 1 (if ix < 2 then ix + 1 else 0)

/-- A configuration request reaches a function: answered with Request Retry Status where that is due, and dropped where the function does
not exist (R228). -/
def State.unlessRetry (s : State) (i : Nat) (f : State → State) : State :=
  if !s.funcExists i then s else if s.retryStatus i then s.emit (.cfgRetry i) else f s

/-- An object arrives in a DOE mailbox: one of more than 16 KiB sets DOE Error and is discarded; discovery is answered at once; the others
wait for firmware, which has answered the one before by then (DESIGN CHOICE: a host sends no object before the answer, log entry 77). The
streams an IDE_KM exchange keys become Secure. -/
def State.doeTake (s : State) (p type : Nat) (bytes : List Byte) (keyed : List Nat) : State :=
  let b := mget DoeBox.init s.doe p
  if 16384 < bytes.length then { s with doe := mset DoeBox.init s.doe p { b with error := true } }
  else if type = 0 then s.emit (.doeResponse p (doeDiscovery (bytes.headD 0).toNat))
  else
    let s := { s with doe := mset DoeBox.init s.doe p { b with object := some (type, bytes) } }
    if type = 2 then { s with ideSecure := keyed.foldl (fun m k => mset false m k true) s.ideSecure } else s

/-- DOE_OBJECT (R224, R225, R228). -/
def execDoeObject (pf : Fin 4) (type : Fin 3) (bytes : List Byte) (keyed : List Nat) (s : State) : Out :=
  .next (s.unlessRetry pf fun s => s.doeTake pf type bytes keyed)

/-- DOE_ABORT (R224, R228): the mailbox is clear again. -/
def execDoeAbort (pf : Fin 4) (s : State) : Out :=
  .next (s.unlessRetry pf fun s => { s with doe := mset DoeBox.init s.doe pf DoeBox.init })

end Sys2Proof.Machine
end

