-- ==== Sys2Proof/Machine/RingState.lean ====
section
/-! DEFINITION. Ring elements and numbers (R232, R235, Tables 10-1 and 10-2), and when a host queue is held in XOFF (R152, R230, R248).
Kinds are 0 SQ, 1 RQ, 2 CQ; states are 0 DISABLED, 1 ACTIVE, 2 FULL, 3 ERROR, 4 DRAINING, 5 FROZEN. -/

namespace Sys2Proof.Machine

/-- Word `w` of the elements of a kind. -/
def ringReg : Nat → Nat → RegDesc
  | 0, 0 => Reg.HQE_SQ_W0 | 0, 1 => Reg.HQE_SQ_W1 | 0, 2 => Reg.HQE_SQ_W2 | 0, _ => Reg.HQE_SQ_W3
  | 1, 0 => Reg.HQE_RQ_W0 | 1, 1 => Reg.HQE_RQ_W1 | 1, 2 => Reg.HQE_RQ_W2 | 1, _ => Reg.HQE_RQ_W3
  | _, 0 => Reg.HQE_CQ_W0 | _, 1 => Reg.HQE_CQ_W1 | _, 2 => Reg.HQE_CQ_W2 | _, _ => Reg.HQE_CQ_W3

/-- Fields that stand at the same bits in every kind of element: EN, PERS, ATS and LOG2SIZE of word 0, BASE, STATE, CAUSE, and the two
indices: PRODUCER or TAIL, and CONSUMER or HEAD. -/
def rEn (k : Nat) : Field := ⟨ringReg k 0, 63, 1⟩
def rPers (k : Nat) : Field := ⟨ringReg k 0, 62, 1⟩
def rAts (k : Nat) : Field := ⟨ringReg k 0, 61, 1⟩
def rLog (k : Nat) : Field := ⟨ringReg k 0, 52, 4⟩
def rBase (k : Nat) : Field := ⟨ringReg k 1, 12, 52⟩
def rState (k : Nat) : Field := ⟨ringReg k 2, 60, 4⟩
def rCause (k : Nat) : Field := ⟨ringReg k 2, 56, 4⟩
def rHi (k : Nat) : Field := ⟨ringReg k 2, 16, 16⟩
def rLo (k : Nat) : Field := ⟨ringReg k 2, 0, 16⟩
/-- The CQ an SQ or RQ completes into. -/
def rCq (k : Nat) : Field := ⟨ringReg k 0, 0, 16⟩

def State.ringSt (s : State) (k n : Nat) : Nat := s.fget (rState k) n
def State.ringSize (s : State) (k n : Nat) : Nat := 2 ^ s.fget (rLog k) n
def State.ringNvme (s : State) (k n : Nat) : Bool := s.fbit (rPers k) n

/-- The key of a ring. -/
def ringKey (k n : Nat) : Nat := k * 65536 + n
def State.ringX (s : State) (k n : Nat) : RingX := mget RingX.init s.ringx (ringKey k n)
def State.setRingX (s : State) (k n : Nat) (r : RingX) : State := { s with ringx := mset RingX.init s.ringx (ringKey k n) r }

/-- The occupancy of a ring: the distance of its two indices modulo 65,536 (R235). -/
def ringDist (a b : Nat) : Nat := (a + 65536 - b % 65536) % 65536
def State.ringOcc (s : State) (k n : Nat) : Nat := ringDist (s.fget (rHi k) n) (s.fget (rLo k) n)

/-- PHASE of index `i` in a ring of 2^lg entries (R236). -/
def phaseOf (lg i : Nat) : Nat := if i.testBit lg then 0 else 1

/-! ### The ring map (R232) -/

/-- The block of an instance: its first global ring and its count. -/
def State.ringBlock (s : State) (i k : Nat) : Nat × Nat :=
  (s.fget Fld.HQE_INST_RINGS_BASE (ix2 3 i k), min 256 (s.fget Fld.HQE_INST_RINGS_COUNT (ix2 3 i k)))

/-- The instance whose block holds ring `n`, and the ring's local number. -/
def State.ringOwner (s : State) (k n : Nat) : Option (Nat × Nat) :=
  (((s.listed Reg.HQE_INST_RINGS).filter fun x => x % 3 == k).map fun x => x / 3).findSome? fun i =>
    let (b, c) := s.ringBlock i k
    if b ≤ n ∧ n < b + c then some (i, n - b) else none

/-- The global number of a local ring, where it exists. -/
def State.ringGlobal (s : State) (i k r : Nat) : Option Nat :=
  let (b, c) := s.ringBlock i k
  if r < c then some (b + r) else none

/-- The rings of a kind that are not DISABLED. -/
def State.liveRings (s : State) (k : Nat) : List Nat := (s.listed (ringReg k 2)).filter fun n => s.ringSt k n != 0

/-- The enabled RQ that a TM queue feeds. -/
def State.rqOf (s : State) (q : Nat) : Option Nat :=
  (s.liveRings 1).find? fun n => s.fget Fld.HQE_RQ_W0_TM_QUEUE n == q

/-- Whether an RQ holds a posted buffer: one that no frame has taken, in a ring that takes buffers (R245, R248). -/
def State.rqPosted (s : State) (n : Nat) : Bool :=
  s.ringSt 1 n == 1 && (s.ringOcc 1 n != 0 || !(s.ringX 1 n).chip.isEmpty) &&
    !(mget [] s.stalled (s.fget (rCq 1) n)).any fun c => c.kind == 1 && c.n == n

/-- Whether a queue under a host egress point is held in XOFF (R152, R230). -/
def State.hostXoff (s : State) (q : Nat) : Bool :=
  match s.rqOf q with
  | none => true
  | some n => !s.rqPosted n || !s.usable (s.ringX 1 n).inst

/-- The entries of a ring that are on chip: fetched and not yet finished (ONCHIP). -/
def State.onChip (s : State) (k n : Nat) : Nat :=
  (s.ringX k n).chip.length +
    (if k = 0 then ((s.txJobs.filter fun c => c.2.n == n).map fun c => c.2.ents.length).sum +
      (s.stoCmds.filter fun c => c.2.n == n && !c.2.detached).length else 0) +
    (((s.stalled.map fun c => c.2).flatten.filter fun c => c.kind == k && c.n == n).map fun c => c.ents).sum

end Sys2Proof.Machine
end

