-- ==== Sys2Proof/Machine/Tm.lean ====
section
/-! DEFINITION. The traffic manager: the node tree, virtual times, shapers, admission, overflow and flush (R140 to R159). An element is
named by its index in the TM window: queues first, then the nodes of levels 3, 2, 1 and 0 (Table 06-2). -/

namespace Sys2Proof.Machine

/-! ### The tree (Table 06-1) -/

/-- The level of an element, the index of the first element of a level, and the number of elements of a level. -/
def tmLevel (n : Nat) : Nat := if n < 262144 then 4 else if n < 327680 then 3 else if n < 344064 then 2 else if n < 348160 then 1 else 0
def tmFirst : Nat → Nat
  | 0 => 348160 | 1 => 344064 | 2 => 327680 | 3 => 262144 | _ => 0
def tmCount : Nat → Nat
  | 0 => 38 | 1 => 4096 | 2 => 16384 | 3 => 65536 | _ => 262144

/-- An element's parent; a PARENT beyond the parent level's numbers names none. -/
def State.tmParent (s : State) (n : Nat) : Option Nat :=
  match tmLevel n with
  | 0 => none
  | l + 1 =>
    let p := s.fget Fld.TM_NODE_W0_PARENT n
    if p < tmCount l then some (tmFirst l + p) else none

/-- The frames of a queue, oldest first. -/
def State.fifo (s : State) (q : Nat) : List Nat := mget [] s.tmFifo q
def State.setFifo (s : State) (q : Nat) (hs : List Nat) : State := { s with tmFifo := mset [] s.tmFifo q hs }

/-- The elements of level 4 − k that hold at least one frame. -/
def State.tmBacklogged (s : State) : Nat → List Nat
  | 0 => s.tmFifo.map fun c => c.1
  | k + 1 => ((s.tmBacklogged k).filterMap s.tmParent).eraseDups

/-- BACKLOG of an element. -/
def State.tmBacklog (s : State) (n : Nat) : Bool := (s.tmBacklogged (4 - tmLevel n)).contains n

/-- The backlogged children of a node of level 4 − (k + 1). -/
def State.tmKids (s : State) (k n : Nat) : List Nat := (s.tmBacklogged k).filter fun c => s.tmParent c == some n

/-! ### Virtual times (R145 to R147) -/

/-- The order of virtual times modulo 2^48: `a` comes before `b`. -/
def tmBefore (a b : Nat) : Bool :=
  let d := (b + 2 ^ 48 - a) % 2 ^ 48
  decide (1 ≤ d) && decide (d < 2 ^ 47)

/-- LEN of a frame at an element: its length including FCS plus OVERHEAD, at least 1. -/
def State.tmLen (s : State) (n : Nat) (f : Frame) : Nat :=
  let o := s.fget Fld.TM_NODE_W0_OVERHEAD n
  max 1 (if o < 128 then f.lenFcs + o else f.lenFcs + o - 256)

/-- The increment of a child for its head frame. -/
def State.tmInc (s : State) (n : Nat) (f : Option Frame) : Nat :=
  match f with
  | none => 0
  | some f => s.tmLen n f * 4096 / max 1 (s.fget Fld.TM_NODE_W0_WEIGHT n)

/-! ### Shapers (R150) -/

/-- TOKENS of an element, as a signed number. -/
def State.tmTokens (s : State) (n : Nat) : Int := (BitVec.ofNat 26 (s.fget Fld.TM_NODE_W3_TOKENS n)).toInt
def State.setTokens (s : State) (n : Nat) (t : Int) : State :=
  s.fset Fld.TM_NODE_W3_TOKENS n (BitVec.ofInt 26 (max (-(2 ^ 25)) t)).toNat

/-- BURST of an element. -/
def State.tmBurst (s : State) (n : Nat) : Nat := min 16777216 (max 64 (s.fget Fld.TM_NODE_W1_BURST n))

/-- An element's tokens filled up to now; an unshaped element keeps its tokens. -/
def State.tmRefill (s : State) (n : Nat) : State :=
  let rate := rateOf (s.fget Fld.TM_NODE_W1_RATE n)
  let aux := mget BucketAux.init s.tmAux n
  let (bytes, frac) := accrue rate (s.ns - aux.last) aux.fracC
  let s := if rate = 0 then s else s.setTokens n (min (s.tmBurst n) (s.tmTokens n + bytes))
  { s with tmAux := mset BucketAux.init s.tmAux n { last := s.ns, fracC := if rate = 0 then 0 else frac, fracE := 0 } }

/-- Whether a shaper lets an element send. -/
def State.tmShaped (s : State) (n : Nat) : Bool :=
  s.fget Fld.TM_NODE_W1_RATE n == 0 || decide (0 < (s.tmRefill n).tmTokens n)

/-! ### Selection (R146) -/

/-- The child of a list whose F comes first; equal F goes to the lowest number. -/
def State.tmFirstF (s : State) : List Nat → Option Nat
  | [] => none
  | c :: cs =>
    match s.tmFirstF cs with
    | none => some c
    | some d =>
      let fc := s.fget Fld.TM_NODE_W2_F c
      let fd := s.fget Fld.TM_NODE_W2_F d
      if tmBefore fd fc || (fc == fd && decide (d < c)) then some d else some c

/-- A queue's oldest frame, unless it must first be read back from the overflow (R158). -/
def State.tmReady (s : State) (q : Nat) : Option Nat :=
  match s.fifo q with
  | [] => none
  | h :: _ => match s.frame? h with | some f => if f.charge == .overflow && !f.back then none else some h | none => none

/-- The element `k` levels above another. -/
def State.tmAbove (s : State) : Nat → Nat → Option Nat
  | 0, n => some n
  | k + 1, n => match s.tmParent n with | some p => s.tmAbove k p | none => none

/-- XOFF of a queue: the queues under the host egress points 36 and 37 are held by the HQE (R152). -/
def State.tmXoff (s : State) (q : Nat) : Bool :=
  match s.tmAbove 4 q with
  | some r => (r == 348196 || r == 348197) && s.hostXoff q
  | none => false

/-- The path a selection takes from an element down to a queue: children that are backlogged, valid, eligible under their shapers and
not held by XOFF (R143, R146, R150, R152). -/
def State.tmPath (s : State) : Nat → Nat → Option (List Nat)
  | 0, q => if s.tmXoff q || (s.tmReady q).isNone then none else some [q]
  | k + 1, n =>
    match s.tmFirstF ((s.tmKids k n).filter fun c =>
        s.fbit Fld.TM_NODE_W0_VALID c && s.tmShaped c && (s.tmPath k c).isSome) with
    | none => none
    | some c => (s.tmPath k c).map fun p => n :: p

/-- The head frame of an element: that of the child it would select; where no child is eligible, that of the backlogged child whose F
comes first. -/
def State.tmHead (s : State) : Nat → Nat → Option Frame
  | 0, q => match s.fifo q with | h :: _ => s.frame? h | [] => none
  | k + 1, n =>
    let kids := s.tmKids k n
    let ok := kids.filter fun c => s.fbit Fld.TM_NODE_W0_VALID c && s.tmShaped c && (s.tmPath k c).isSome
    match (match s.tmFirstF ok with | some c => some c | none => s.tmFirstF kids) with
    | some c => s.tmHead k c
    | none => none

/-- The increment of an element for its head frame. -/
def State.tmHeadInc (s : State) (n : Nat) : Nat := s.tmInc n (s.tmHead (4 - tmLevel n) n)

/-- An element that was not backlogged in `s0` becomes so: F := max(V, F) + increment, and so on up the tree (R145, R151). -/
def State.tmJoin (s0 : State) : Nat → State → Nat → State
  | 0, s, _ => s
  | k + 1, s, n =>
    if s0.tmBacklog n then s
    else match s.tmParent n with
      | none => s
      | some p =>
        let v := s.fget Fld.TM_NODE_W4_V p
        let f := s.fget Fld.TM_NODE_W2_F n
        tmJoin s0 k (s.fset Fld.TM_NODE_W2_F n ((if tmBefore f v then v else f) + s.tmHeadInc n)) p

/-! ### Admission (R154 to R158) -/

/-- QLEN and QLEN_OVF: the cells a queue holds on chip and in overflow. -/
def State.qlen (s : State) (q : Nat) : Nat :=
  ((s.fifo q).map fun h => match s.frame? h with | some f => if f.charge == .overflow then 0 else f.cells | none => 0).sum
def State.qlenOvf (s : State) (q : Nat) : Nat :=
  ((s.fifo q).map fun h => match s.frame? h with | some f => if f.charge == .overflow then f.cells else 0 | none => 0).sum

/-- The colour of a frame at admission: byte 56, a value of 3 being red. -/
def Frame.colour (f : Frame) : Nat := min 2 ((hvByte f.hv 56).toNat % 4)

/-- The WRED average updated, and whether the test says drop (R156); D is a free draw (log entry 3). -/
def State.wred (s : State) (q : Nat) (colour : Nat) : Bool × State :=
  let prof := s.fget Fld.TM_NODE_W4_PROFILE q
  let total := s.qlen q + s.qlenOvf q
  let old := s.fget Fld.TM_NODE_W6_AVG q
  let w := s.fget Fld.TM_WRED_AVG_AVG_SHIFT prof
  let avg := ((old : Int) + ((256 * total : Int) - old) / 2 ^ w).toNat
  let s := s.fset Fld.TM_NODE_W6_AVG q avg
  let k := ix2 3 prof colour
  let maxp := s.fget Fld.TM_WRED_COLOUR_MAXP k
  let mx := 256 * s.fget Fld.TM_WRED_COLOUR_MAX k
  let mn := 256 * s.fget Fld.TM_WRED_COLOUR_MIN k
  if maxp = 0 then (false, s)
  else if mx ≤ mn then (decide (mn ≤ avg), s)
  else if mx ≤ avg then (true, s)
  else if mn ≤ avg then
    let (d, s) := s.drawNat
    (decide (d % 65536 < maxp * 256 * (avg - mn) / (mx - mn)), s)
  else (false, s)

/-- A frame is dropped at admission: counted, in the queue's DROP_PKTS, and for a mirror copy in MIRROR_DROP. -/
def State.rejectFrame (s : State) (h : Nat) (f : Frame) (q : Nat) (cnt : Field) : State :=
  let s := (s.bump cnt).bump Fld.TM_QCNT_DROP_PKTS_COUNT q
  (if f.copy then s.bump Fld.ACTC_MIRROR_DROP_COUNT else s).dropFrame h

/-- The free cells of the overflow region; none of it where OVF_LOG2 is not 16 to 28. -/
def State.ovfFree (s : State) : Nat :=
  let l := s.fget Fld.TM_OVF_CFG_OVF_LOG2 0
  if 16 ≤ l ∧ l ≤ 28 then 2 ^ l - s.cellsHeld fun f => f.charge == .overflow else 0

/-- An admitted frame joins its queue. -/
def State.enqueued (s : State) (h : Nat) (f : Frame) (q : Nat) (ch : Charge) (inst : Nat) : State :=
  let t := s.setFrame h { f with stage := .queued q, charge := ch, chargeInst := inst, qgen := s.gen inst, cells := cellsOf f.lenFcs }
  let t := t.setFifo q (t.fifo q ++ [h])
  tmJoin s 4 t q

/-- Admission of a frame to a queue (R154). `ovfRate`: an overflow write stays within its rate. -/
def State.enqueue (s : State) (h : Nat) (f : Frame) (q : Nat) (ovfRate : Bool) : State :=
  let c := cellsOf f.lenFcs
  if !s.fbit Fld.TM_NODE_W0_VALID q then s.rejectFrame h f q Fld.TMC_NO_QUEUE_CFG_COUNT
  else if s.fget Fld.TM_NODE_W4_Q_MAX q < s.qlen q + s.qlenOvf q + c then s.rejectFrame h f q Fld.TMC_TAIL_COUNT
  else
    let (drop, s) := s.wred q f.colour
    let l3 := (hvLayer f.hv 1).getD f.bytes.length
    let ecn := ecnOf f.bytes l3
    if drop && !(s.fbit Fld.TM_NODE_W4_ECN_EN q && ecn != 0) then s.rejectFrame h f q Fld.TMC_WRED_COUNT
    else
      let i := s.fget Fld.TM_NODE_W4_INSTANCE q
      let ovf := s.qlenOvf q != 0
      let place : Option Charge :=
        if !ovf && s.resvUsed i + c ≤ s.fget Fld.TM_INST_BUF_RESV i then some .resv
        else if !ovf && s.sharedUsed i + c ≤ s.fget Fld.TM_INST_BUF_SHARED_CAP i && c ≤ s.sharedFree then some .shared
        else none
      let marked : Frame := if drop && ecn != 3 then { f with bytes := setCe f.bytes l3 } else f
      let s' := if drop then s.bump Fld.TM_QCNT_ECN_MARKS_COUNT q else s
      match place with
      | some ch => s'.enqueued h marked q ch i
      | none =>
        if s.fbit Fld.TM_NODE_W4_OVF_EN q && s.ovfUsed i + c ≤ s.fget Fld.TM_INST_BUF_OVF_CAP i && c ≤ s.ovfFree then
          if ovfRate then
            let base := s.fget Fld.TM_OVF_CFG_OVF_BASE 0 * 2 ^ 36
            (s'.enqueued h marked q .overflow i).loseRange base (base + 256 * 2 ^ s.fget Fld.TM_OVF_CFG_OVF_LOG2 0) true
          else s.rejectFrame h f q Fld.TMC_OVF_BW_COUNT
        else s.rejectFrame h f q Fld.TMC_BUF_COUNT

/-- Whether a frame whose list ran earlier still waits for the same queue (R13). -/
def State.admitTurn (s : State) (h q : Nat) : Bool :=
  match s.tmIn.find? fun h' => match s.frame? h' with | some f => f.queue == some q | none => false with
  | some h' => h' == h
  | none => true

/-- TM_ENQUEUE (R154). -/
def execTmEnqueue (h : Nat) (ovfRate : Bool) (s : State) : Out :=
  match s.frame? h with
  | some f =>
    match f.stage, f.queue with
    | .admitting, some q =>
      if f.copy || s.admitTurn h q then .next ({ s with tmIn := s.tmIn.erase h }.enqueue h f q ovfRate) else .next s
    | _, _ => .next s
  | none => .next s

/-- OVERFLOW_READBACK (R154, R158): the oldest overflow frame of a queue that is not on chip comes back; its cells stay charged to the
overflow until it leaves. -/
def execOverflowReadback (q : Fin 262144) (s : State) : Out :=
  match (s.fifo q).find? fun h => match s.frame? h with | some f => f.charge == .overflow && !f.back | none => false with
  | some h => match s.frame? h with | some f => .next (s.setFrame h { f with back := true }) | none => .next s
  | none => .next s

/-! ### Sweeps, refills and writes -/

/-- CLAMP_SWEEP (R148). -/
def execClampSweep (node : Nat) (s : State) : Out :=
  match s.tmParent node with
  | none => .next s
  | some p =>
    let v := s.fget Fld.TM_NODE_W4_V p
    .next (if tmBefore (s.fget Fld.TM_NODE_W2_F node) v then s.fset Fld.TM_NODE_W2_F node v else s)

/-- SHAPER_REFILL (R150). -/
def execShaperRefill (node : Nat) (s : State) : Out := if 348198 ≤ node then .next s else .next (s.tmRefill node)

/-- A change of an element's word 0 (R142, R144): WEIGHT 0 is stored as 1; a new parent is joined between two frames with
F := V + increment. -/
def State.tmWriteW0 (s : State) (n : Nat) (v : Word) : State :=
  let old := s.rd Reg.TM_NODE_W0 n
  let v := writeFields false Reg.TM_NODE_W0 old v
  let v := if Fld.TM_NODE_W0_WEIGHT.of v = 0 then Fld.TM_NODE_W0_WEIGHT.ins v 1 else v
  let t := s.wr Reg.TM_NODE_W0 n v
  if Fld.TM_NODE_W0_PARENT.of v = Fld.TM_NODE_W0_PARENT.of old then t
  else match t.tmParent n with
    | none => t
    | some p =>
      let t := t.fset Fld.TM_NODE_W2_F n (t.fget Fld.TM_NODE_W4_V p + t.tmHeadInc n)
      if t.tmBacklog n then tmJoin s 3 t p else t

/-- A write of one word of an element (R142). -/
def State.tmWrite (s : State) (n word : Nat) (v : Word) : State :=
  let valid := s.fbit Fld.TM_NODE_W0_VALID n
  match word with
  | 0 => s.tmWriteW0 n v
  | 1 =>
    let s := s.tmRefill n
    s.wr Reg.TM_NODE_W1 n (writeFields false Reg.TM_NODE_W1 (s.rd Reg.TM_NODE_W1 n) v)
  | 2 => if valid then s.bump Fld.TMC_STATE_REFUSED_COUNT else s.fset Fld.TM_NODE_W2_F n (Fld.TM_NODE_W2_F.of v)
  | 3 =>
    if valid then s.bump Fld.TMC_STATE_REFUSED_COUNT
    else (s.tmRefill n).fset Fld.TM_NODE_W3_TOKENS n (Fld.TM_NODE_W3_TOKENS.of v)
  | 4 =>
    if tmLevel n = 4 then
      let m : Word := fieldAt 3 62 ||| fieldAt 0xFFF 48 ||| fieldAt 0xFF 40 ||| fieldAt 0xFFFFF 20
      s.wr Reg.TM_NODE_W4 n (v &&& m)
    else if valid then s.bump Fld.TMC_STATE_REFUSED_COUNT
    else s.fset Fld.TM_NODE_W4_V n (Fld.TM_NODE_W4_V.of v)
  | _ => s

/-- TM_ELEMENT_WRITE (R142, R144). -/
def execTmElementWrite (node : Nat) (word : Fin 8) (value : Word) (s : State) : Out :=
  if 348198 ≤ node then .next s else .next (s.tmWrite node word value)

/-- TM_FLUSH (R159): the frames the queue holds are freed, each counted in DROP_PKTS and FLUSHED; BUSY lasts until FLUSH_COMPLETE. -/
def State.tmFlush (s : State) (value : Word) : State :=
  let s := if bit value 62 then s.fset Fld.TM_FLUSH_REFUSED 0 0 else s
  if s.fbit Fld.TM_FLUSH_BUSY 0 then s.fset Fld.TM_FLUSH_REFUSED 0 1
  else
    let q := Fld.TM_FLUSH_QUEUE.of value
    let s := (s.fset Fld.TM_FLUSH_QUEUE 0 q).fset Fld.TM_FLUSH_BUSY 0 1
    let hs := s.fifo q
    hs.foldl (fun s h => ((s.bump Fld.TM_QCNT_DROP_PKTS_COUNT q).bump Fld.TMC_FLUSHED_COUNT).dropFrame h) (s.setFifo q [])

/-- TM_FLUSH (R159). -/
def execTmFlush (value : Word) (s : State) : Out := .next (s.tmFlush value)

/-- FLUSH_COMPLETE (R159). -/
def execFlushComplete (s : State) : Out := .next (s.fset Fld.TM_FLUSH_BUSY 0 0)

/-- A write of TM_INST_BUF (R155, R279). -/
def State.instBufWrite (s : State) (i : Nat) (v : Word) : State :=
  let old := s.fget Fld.TM_INST_BUF_RESV i
  let new := Fld.TM_INST_BUF_RESV.of v
  if old < new ∧ 524288 - s.ingressCap < s.resvTotal - old + new then s.fset Fld.TM_BUF_POOL_RESV_REFUSED 0 1
  else s.isoWrite i (s.wr Reg.TM_INST_BUF i v)

/-- INST_BUF_WRITE (R155, R279). -/
def execInstBufWrite (inst : Fin 4096) (value : Word) (s : State) : Out := .next (s.instBufWrite inst value)

/-- A write of TM_CFG (R155). -/
def State.tmCfgWrite (s : State) (v : Word) : State :=
  if 524288 - ingressCells (Fld.TM_CFG_INGRESS_CELLS.of v) < s.resvTotal then s.fset Fld.TM_BUF_POOL_RESV_REFUSED 0 1
  else s.wr Reg.TM_CFG 0 (writeFields false Reg.TM_CFG (s.rd Reg.TM_CFG 0) v)

/-- INGRESS_CELLS_WRITE (R155). -/
def execIngressCellsWrite (value : Word) (s : State) : Out := .next (s.tmCfgWrite value)

/-! ### The end of a frame that fails (R114) -/

/-- The host egress point above a queue. -/
def State.hostPoint (s : State) (q : Nat) : Nat := (s.tmAbove 4 q).getD 348196 - 348160

/-- A frame fails a late check (R14, R114): one that a MAC or a Cuelrun port is sending is ended with the inverse of its FCS, one that a
host controller has taken ends with the error completion of a status, both counted in FCST; any other is dropped. A frame so
ended on a Cuelrun port is stomped: it frees its SEQ and is not kept for replay (R200). One that the port still has in its queue
has not started to leave; one behind which another frame has left is past all its checks. -/
def State.endFrame (s : State) (h : Nat) (f : Frame) (status : Nat) : State :=
  match f.stage with
  | .sending e =>
    if e < 32 then ((s.emit (.fcsTerminate e)).bump Fld.ACTC_FCST_COUNT e).freeFrame h
    else
      let c := s.cuePort (e - 32)
      if c.queue.any fun o => o.h == some h then
        (s.setCue (e - 32) { c with queue := c.queue.filter fun o => o.h != some h }).dropFrame h
      else if c.last == some h then
        let c := { c with txSeq := (c.txSeq + 65535) % 65536, unacked := c.unacked.dropLast, last := none }
        (((s.setCue (e - 32) c).emit (.fcsTerminate e)).bump Fld.ACTC_FCST_COUNT e).freeFrame h
      else s
  | .host q => if f.late ≠ 0 then s else (s.setFrame h { f with late := status }).bump Fld.ACTC_FCST_COUNT (s.hostPoint q)
  | _ => s.dropFrame h

end Sys2Proof.Machine
end

