-- ==== Sys2Proof/Machine/Cipher.lean ====
section
/-! DEFINITION. The cipher engine (chapter 07): key contexts, the key loading window, invocation numbers, ESP, csub, alarms and
self-tests. -/

namespace Sys2Proof.Machine

/-! ### Contexts (Table 07-2, R166, R167) -/

/-- STATE of a context: 0 EMPTY, 1 READY, 2 EXHAUSTED, 3 ERASING. -/
def State.ctxState (s : State) (c : Nat) : Nat := s.fget Fld.CIP_CTX_W0_STATE c
def State.ctxAlg (s : State) (c : Nat) : Nat := s.fget Fld.CIP_CTX_W0_ALG c
def State.ctxUse (s : State) (c : Nat) : Nat := s.fget Fld.CIP_CTX_W0_USE c
/-- The key material of a context. -/
def State.key (s : State) (c : Nat) : List Byte := mget [] s.keys c

/-- The register array of a word of the context element. -/
def ctxReg : Nat → RegDesc
  | 0 => Reg.CIP_CTX_W0 | 1 => Reg.CIP_CTX_W1 | 2 => Reg.CIP_CTX_W2 | 3 => Reg.CIP_CTX_W3 | 4 => Reg.CIP_CTX_W4
  | 5 => Reg.CIP_CTX_W5 | 6 => Reg.CIP_CTX_W6 | _ => Reg.CIP_CTX_W7

/-- A register write of a word of a context element (R166). -/
def State.ctxWrite (s : State) (c word : Nat) (v : Word) : State :=
  if word = 0 ∨ word = 1 ∨ word = 3 ∨ word = 4 then
    if s.ctxState c = 0 then s.wr (ctxReg word) c (writeFields false (ctxReg word) (s.rd (ctxReg word) c) v)
    else s.bump Fld.CIPC_CFG_REFUSED_COUNT
  else s

/-- CONTEXT_WRITE (R166). -/
def execContextWrite (ctx : Fin 65536) (word : Fin 8) (value : Word) (s : State) : Out := .next (s.ctxWrite ctx word value)

/-- The last invocation number allowed for encryption (R167). -/
def State.ctxLimit (s : State) (c : Nat) : Nat :=
  let ceiling := if s.ctxUse c = 0 && !s.fbit Fld.CIP_CTX_W0_ESN c then 2 ^ 32 - 1 else 2 ^ 64 - 1
  let l := s.fget Fld.CIP_CTX_W3_LIMIT c
  if l = 0 ∨ ceiling < l then ceiling else l

/-- The length of the key material by ALG and USE (Table 07-4), where R167 and Table 07-1 allow the pair. -/
def keyLength (alg use : Nat) : Option Nat :=
  match alg, use with
  | 1, 0 | 1, 3 => some 24
  | 2, 0 | 2, 3 => some 40
  | 2, 1 => some 48
  | 3, 2 | 3, 3 => some 64
  | 4, 0 => some 48
  | 5, 0 => some 64
  | 6, 3 => some 32
  | _, _ => none

/-- The material length of a context whose element a load accepts (R167). -/
def State.ctxKeyLen (s : State) (c : Nat) : Option Nat :=
  if s.ctxUse c = 1 && !s.fbit Fld.CIP_CTX_W0_ESN c then none
  else if s.ctxAlg c = 6 && s.fget Fld.CIP_CTX_W0_CSUB_CLU c != 0 then none
  else keyLength (s.ctxAlg c) (s.ctxUse c)

/-- KEYLESS, or before READY: uses of contexts are refused (R183, R184). -/
def State.keyless (s : State) : Bool := s.fbit Fld.CIP_ALARM_KEYLESS 0
def State.noCipher (s : State) : Bool := s.keyless || !s.fbit Fld.CIP_SELFTEST_READY 0

/-! ### Notices and invocations (R175, R177, R178) -/

/-- A notice of a context: 1 SOFT, 2 EXHAUSTED, 3 ERASED. -/
def State.cipherNotice (s : State) (event c : Nat) : State :=
  s.notice (s.fget Fld.CIP_NOTIFY_CFG_NOTIFY_CH 0) 256
    { src := 0xF050, words := [fieldAt event 56 ||| fieldAt c 0, s.rd Reg.CIP_CTX_W2 c] } Fld.CIPC_NOTICE_LOST_COUNT

/-- What an invocation answers: its number, or the refusal CTX_EMPTY or CTX_EXHAUSTED. -/
inductive Invoked where
  | number (n : Nat)
  | empty
  | exhausted
  deriving DecidableEq, Repr

/-- An invocation (Table 07-3). `enc` is an encryption, which takes the next number; a decryption or XTS operation counts,
saturating. Each refusal is counted. -/
def State.invoke (s : State) (c : Nat) (enc : Bool) : Invoked × State :=
  let n := s.fget Fld.CIP_CTX_W2_INV_CNT c + 1
  match s.ctxState c with
  | 1 =>
    if !enc then (.number 0, s.bump Fld.CIP_CTX_W2_INV_CNT c)
    else if s.ctxLimit c < n then (.exhausted, s.bump Fld.CIPC_EXHAUSTED_DROP_COUNT)
    else if s.ctxLimit c = n then
      let s := (s.fset Fld.CIP_CTX_W2_INV_CNT c n).fset Fld.CIP_CTX_W0_STATE c 2
      (.number n, s.cipherNotice 2 c)
    else
      let s := s.fset Fld.CIP_CTX_W2_INV_CNT c n
      (.number n, if s.fget Fld.CIP_CTX_W4_SOFT c = n then s.cipherNotice 1 c else s)
  | 2 => if enc then (.exhausted, s.bump Fld.CIPC_EXHAUSTED_DROP_COUNT) else (.number 0, s.bump Fld.CIP_CTX_W2_INV_CNT c)
  | _ => (.empty, s.bump Fld.CIPC_CTX_EMPTY_DROP_COUNT)

/-! ### The key loading window (R168 to R173) -/

def State.klwOwner (s : State) : Nat := s.fget Fld.CIP_KLW_LOCK_OWNER 0
def State.klwBusy (s : State) : Bool := s.fbit Fld.CIP_KLW_STATUS_BUSY 0

/-- CIP_KLW_DATA is zeroed (R171). -/
def State.klwZero (s : State) : State := (List.range 12).foldl (fun s k => s.wr Reg.CIP_KLW_DATA k 0) s
/-- The window is released (R171). -/
def State.klwFree (s : State) : State := ((s.fset Fld.CIP_KLW_LOCK_OWNER 0 0).fset Fld.CIP_KLW_LOCK_HELD 0 0).klwZero

/-- A write of CIP_KLW_LOCK by a requester (R168). -/
def State.klwLockWrite (s : State) (req : Nat) (v : Word) : State :=
  let s := if Fld.CIP_KLW_LOCK_AUTO_RELEASED.of v = 1 then s.fset Fld.CIP_KLW_LOCK_AUTO_RELEASED 0 0 else s
  let s := if Fld.CIP_KLW_LOCK_CLAIM_REFUSED.of v = 1 then s.fset Fld.CIP_KLW_LOCK_CLAIM_REFUSED 0 0 else s
  let owner := Fld.CIP_KLW_LOCK_OWNER.of v
  if owner = 0 then (if s.klwOwner = req ∧ req ≠ 0 then s.klwFree else s)
  else if owner ≠ req then s
  else if s.klwOwner ≠ 0 then s.fset Fld.CIP_KLW_LOCK_CLAIM_REFUSED 0 1
  else (s.fset Fld.CIP_KLW_LOCK_OWNER 0 owner).fset Fld.CIP_KLW_LOCK_HELD 0 1

/-- KLW_CLAIM (R168). -/
def execKlwClaim (req : Nat) (owner : BitVec 16) (s : State) : Out := .next (s.klwLockWrite req (owner.setWidth 64))
/-- KLW_RELEASE (R168, R171). -/
def execKlwRelease (req : Nat) (s : State) : Out := .next (s.klwLockWrite req 0)

/-- KLW_AUTO_RELEASE (R170): only a held window whose command is not BUSY. -/
def execKlwAutoRelease (s : State) : Out :=
  .next (if s.klwOwner ≠ 0 ∧ !s.klwBusy then s.klwFree.fset Fld.CIP_KLW_LOCK_AUTO_RELEASED 0 1 else s)

/-- A write of CIP_KLW_DATA (R169). -/
def State.klwDataWrite (s : State) (req k : Nat) (v : Word) : State :=
  if req ≠ 0 ∧ s.klwOwner = req then s.wr Reg.CIP_KLW_DATA k v else s.bump Fld.CIPC_KLW_REFUSED_COUNT
/-- KLW_DATA_WRITE (R169). -/
def execKlwDataWrite (req : Nat) (k : Fin 12) (value : Word) (s : State) : Out := .next (s.klwDataWrite req k value)

/-- A command completes with a result; the data is zeroed (R171). -/
def State.klwDone (s : State) (result : Nat) : State :=
  ({ s with klwCmd := none }.fset Fld.CIP_KLW_STATUS_BUSY 0 0 |>.fset Fld.CIP_KLW_STATUS_RESULT 0 result).klwZero

/-- Whether a requester may name a context (R172). -/
def State.klwMay (s : State) (req c : Nat) : Bool :=
  (0xE000 ≤ req && req ≤ 0xE00F) ||
    (s.fbit Fld.CIP_CTX_W0_HOST_LOAD c && decide (req = 0xD000 + s.fget Fld.CIP_CTX_W0_OWNER_PF c))

/-- A write of CIP_KLW_CMD (R169, R172, Table 07-3). A permitted ERASE of an EMPTY context completes at once; of a READY or EXHAUSTED
one it starts the erase, and of an ERASING one it joins it. -/
def State.klwCmdWrite (s : State) (req : Nat) (v : Word) : State :=
  if req = 0 ∨ s.klwOwner ≠ req then s.bump Fld.CIPC_KLW_REFUSED_COUNT
  else
    let s := s.wr Reg.CIP_KLW_CMD 0 (v &&& (fieldAt 7 60 ||| fieldAt 0xFFFFFFFF 0))
    if !bit v 63 || s.klwBusy then s
    else
      let ctx := Fld.CIP_KLW_CMD_CTX.of v
      let op := Fld.CIP_KLW_CMD_OP.of v
      let data := ((List.range 12).map fun k => wordBytesLE (s.rd Reg.CIP_KLW_DATA k)).flatten
      let s := { s with klwCmd := some ⟨req, op, Fld.CIP_KLW_CMD_KEK.of v, ctx, data⟩ }.fset Fld.CIP_KLW_STATUS_BUSY 0 1
      if op = 3 && !s.keyless && s.klwMay req ctx then
        if s.ctxState ctx = 0 then s.klwDone 0
        else s.fset Fld.CIP_CTX_W0_STATE ctx 3
      else s

/-- KLW_LOAD (R172, R173). -/
def execKlwLoad (req : Nat) (ctx : Fin 65536) (s : State) : Out :=
  .next (s.klwCmdWrite req (fieldAt 1 63 ||| fieldAt 1 60 ||| fieldAt ctx 0))
/-- KLW_UNWRAP (R172, R173). -/
def execKlwUnwrap (req : Nat) (kek ctx : Fin 65536) (s : State) : Out :=
  .next (s.klwCmdWrite req (fieldAt 1 63 ||| fieldAt 2 60 ||| fieldAt kek 16 ||| fieldAt ctx 0))
/-- KLW_ERASE (R172, Table 07-3). -/
def execKlwErase (req : Nat) (ctx : Fin 65536) (s : State) : Out :=
  .next (s.klwCmdWrite req (fieldAt 1 63 ||| fieldAt 3 60 ||| fieldAt ctx 0))

/-- In approved mode a plaintext LOAD reaches a KEK, or a migration transport key: ALG 2, USE csub and CSUB_CLU 0 (R429). -/
def State.plainAdmitted (s : State) (c : Nat) : Bool :=
  s.ctxAlg c == 6 || (s.ctxAlg c == 2 && s.ctxUse c == 3 && s.fget Fld.CIP_CTX_W0_CSUB_CLU c == 0)

/-- What a LOAD or an UNWRAP comes to: the key material, or a result other than DONE (R167, R172, R173, R183, R184). -/
def State.klwJudge (s : State) (c : KlwCmd) : Except Nat (List Byte) :=
  if s.keyless || (c.op == 2 && s.noCipher) then .error 7
  else if c.op ≠ 1 ∧ c.op ≠ 2 then .error 3
  else if !s.klwMay c.req c.ctx || (c.op == 2 && !s.klwMay c.req c.kek) then .error 1
  else if c.op = 1 ∧ c.req < 0xE000 then .error 8
  else if s.fbit Fld.SP_APPROVED_ACTIVE 0 ∧ (s.ctxAlg c.ctx = 4 ∨ s.ctxAlg c.ctx = 5) then .error 3
  else if s.fbit Fld.SP_APPROVED_ACTIVE 0 ∧ c.op = 1 ∧ !s.plainAdmitted c.ctx then .error 8
  else if s.ctxState c.ctx ≠ 0 then .error 2
  else match s.ctxKeyLen c.ctx with
    | none => .error 3
    | some n =>
      let material : Except Nat (List Byte) :=
        if c.op = 1 then .ok (c.data.take n)
        else if s.ctxState c.kek ≠ 1 ∨ s.ctxAlg c.kek ≠ 6 then .error 5
        else match kwUnwrap (s.key c.kek) (c.data.take (n + 8)) with
          | some m => .ok m
          | none => .error 4
      match material with
      | .error e => .error e
      | .ok m => if s.ctxAlg c.ctx = 3 ∧ m.take 32 = m.drop 32 then .error 6 else .ok m

/-- Whether a running ERASE waits for its context to become EMPTY. -/
def State.klwWaits (s : State) (c : KlwCmd) : Bool :=
  c.op == 3 && !s.keyless && s.klwMay c.req c.ctx && s.ctxState c.ctx == 3

/-- KLW_COMMAND_DONE (R171, R173): a load that is accepted stores the key and zeroes INV_CNT, HIGHEST and WINDOW. -/
def execKlwCommandDone (s : State) : Out :=
  match s.klwCmd with
  | none => .next s
  | some c =>
    if s.klwWaits c then .next s
    else if c.op = 3 then .next (s.klwDone (if s.keyless then 7 else if s.klwMay c.req c.ctx then 0 else 1))
    else match s.klwJudge c with
      | .error e => .next ((if e = 4 then s.bump Fld.CIPC_KW_FAIL_COUNT else if e = 7 ∧ c.op = 2 then s.bump Fld.CIPC_KEYLESS_DROP_COUNT else s).klwDone e)
      | .ok m =>
        let s := { s with keys := mset [] s.keys c.ctx m }
        let s := s.fset Fld.CIP_CTX_W0_STATE c.ctx 1
        let s := (List.range 4).foldl (fun s k => s.wr (ctxReg (if k = 0 then 2 else k + 4)) c.ctx 0) s
        .next (s.klwDone 0)

/-- The key material of a context is zeroed and the context is EMPTY. -/
def State.zeroCtx (s : State) (c : Nat) : State := { s with keys := mset [] s.keys c [] }.fset Fld.CIP_CTX_W0_STATE c 0

/-- The context of a csub request. -/
def CsubJob.ctx (j : CsubJob) : Nat := bits (j.words.getD 0 0) 47 32

/-- ERASE_COMPLETE (Table 07-3): once the invocations begun before the ERASE have finished. -/
def execEraseComplete (ctx : Fin 65536) (s : State) : Out :=
  if s.ctxState ctx ≠ 3 || (s.csubs.any fun j => j.status == 0 && j.ctx == ctx.val) then .next s
  else
    let t := (s.zeroCtx ctx).cipherNotice 3 ctx
    match s.klwCmd with
    | some c => .next (if c.ctx = ctx.val && s.klwWaits c then t.klwDone 0 else t)
    | none => .next t

/-! ### ESP (R176, R179 to R181) -/

/-- A frame is dropped in the cipher stage. -/
def State.cipherDrop (s : State) (h : Nat) (cnt : Field) : State := (s.bump cnt).dropFrame h

/-- A context fits a CIPHER primitive of a frame (R179). -/
def State.espFits (s : State) (op c inst : Nat) : Bool :=
  s.ctxUse c == 0 && [1, 2, 4, 5].contains (s.ctxAlg c) && s.fget Fld.CIP_CTX_W0_DIR c == op &&
    s.fget Fld.CIP_CTX_W0_INSTANCE c == inst

/-- The L3 header after ESP has changed the frame: its protocol, its length, and the IPv4 header checksum (R180). -/
def setL3 (d : List Byte) (l3 proto : Nat) : List Byte :=
  match ipVersion d l3 with
  | some 4 => ipv4Csum (put16 (putBytes d (l3 + 9) [BitVec.ofNat 8 proto]) (l3 + 2) (d.length - l3)) l3
  | some _ => put16 (putBytes d (l3 + 6) [BitVec.ofNat 8 proto]) (l3 + 4) (d.length - l3 - 40)
  | none => d

/-- The bytes that GCM authenticates with an ESP packet (RFC 4106): SPI and sequence number, of 64 bits with ESN. -/
def espAad (esn : Bool) (spi n : Nat) : List Byte := natBE 4 spi ++ (if esn then natBE 8 n else natBE 4 n)

/-- The IV, ciphertext and ICV of an ESP packet under number `n`; a CBC IV comes from the DRBG (R176). -/
def State.espSeal (s : State) (c n : Nat) (plain : List Byte) : List Byte × State :=
  let key := s.key c
  let alg := s.ctxAlg c
  let esn := s.fbit Fld.CIP_CTX_W0_ESN c
  let spi := s.fget Fld.CIP_CTX_W1_SPI c
  if alg ≤ 2 then
    let klen := if alg = 1 then 16 else 32
    let nonce := (key.drop klen).take 4 ++ natBE 8 n
    let ct := gcmCrypt (key.take klen) nonce plain
    (natBE 8 n ++ ct ++ gcmTag (key.take klen) nonce (espAad esn spi n) ct, s)
  else
    let klen := if alg = 4 then 16 else 32
    let (a, s) := s.drawWord
    let (b, s) := s.drawWord
    let iv := wordBytesBE a ++ wordBytesBE b
    let ct := cbcEnc (key.take klen) iv plain
    let auth := natBE 4 spi ++ natBE 4 n ++ iv ++ ct ++ (if esn then natBE 4 (n / 2 ^ 32) else [])
    (iv ++ ct ++ (hmacSha256 (key.drop klen) auth).take 16, s)

/-- The plaintext of an ESP packet with sequence number `n`, where the ICV verifies. -/
def State.espOpen (s : State) (c n : Nat) (iv ct icv : List Byte) : Option (List Byte) :=
  let key := s.key c
  let alg := s.ctxAlg c
  let esn := s.fbit Fld.CIP_CTX_W0_ESN c
  let spi := s.fget Fld.CIP_CTX_W1_SPI c
  if alg ≤ 2 then
    let klen := if alg = 1 then 16 else 32
    let nonce := (key.drop klen).take 4 ++ iv
    if gcmTag (key.take klen) nonce (espAad esn spi n) ct = icv then some (gcmCrypt (key.take klen) nonce ct) else none
  else
    let klen := if alg = 4 then 16 else 32
    let auth := natBE 4 spi ++ natBE 4 n ++ iv ++ ct ++ (if esn then natBE 4 (n / 2 ^ 32) else [])
    if (hmacSha256 (key.drop klen) auth).take 16 = icv then some (cbcDec (key.take klen) iv ct) else none

/-- The frames of an earlier place that wait for the same use of a context: invocation numbers follow the order in which the action
engine accepted the frames (R175). -/
def State.cipherTurn (s : State) (h op c : Nat) : Bool :=
  match s.tmIn.find? fun h' => match s.frame? h' with | some f => f.stage == .cipher op c | none => false with
  | some h' => h' == h
  | none => true

/-- The plaintext of an outbound frame with its trailer, or none for a length error (R180, R181). -/
def State.espPlain (s : State) (c : Nat) (d : List Byte) (l3 : Option Nat) (off : Nat) : Option (List Byte) × State :=
  let p := d.drop off
  if 3 < s.ctxAlg c then (if p.isEmpty || p.length % 16 != 0 then none else some p, s)
  else
    let next : Option Nat :=
      if s.fbit Fld.CIP_CTX_W0_TUNNEL c then
        (match byteAt d off / 16 with | 4 => some 4 | 6 => some 41 | _ => none)
      else match l3 with | some l3 => ipProto d l3 | none => none
    let (free, s) := s.drawWord
    let nh : Byte := match next with | some n => BitVec.ofNat 8 n | none => free.setWidth 8
    let pad := (4 - (p.length + 2) % 4) % 4
    let p := p ++ natBE 3 0x010203 |>.take (p.length + pad)
    let p := p ++ [BitVec.ofNat 8 pad, nh]
    (if 16383 < p.length then none else some p, s)

/-- ESP_OUTBOUND (R175 to R177, R179, R180). -/
def execEspOutbound (h : Nat) (s : State) : Out :=
  match s.frame? h with
  | none => .next s
  | some f =>
    match f.stage with
    | .cipher 0 c =>
      if !s.cipherTurn h 0 c then .next s
      else if s.noCipher then .next (s.cipherDrop h Fld.CIPC_KEYLESS_DROP_COUNT)
      else if !s.espFits 0 c f.inst then .next (s.cipherDrop h Fld.CIPC_CTX_MISMATCH_COUNT)
      else match f.layer (if s.fbit Fld.CIP_CTX_W0_TUNNEL c then 5 else 2) with
        | none => .next (s.cipherDrop h Fld.CIPC_LEN_ERR_COUNT)
        | some off =>
          let l3 := f.layer 1
          match s.espPlain c f.bytes l3 off with
          | (none, s) => .next (s.cipherDrop h Fld.CIPC_LEN_ERR_COUNT)
          | (some plain, s) =>
            match s.invoke c true with
            | (.number n, s) =>
              let (body, s) := s.espSeal c n plain
              let d := f.bytes.take off ++ natBE 4 (s.fget Fld.CIP_CTX_W1_SPI c) ++ natBE 4 n ++ body
              let d := match l3 with | some l3 => setL3 d l3 50 | none => d
              .next (s.setFrame h { f with bytes := d, stage := .admitting })
            | (_, s) => .next (s.dropFrame h)
    | _ => .next s

/-- The 64-bit sequence number of an inbound frame (RFC 4303 Appendix A with a window of 128). -/
def espSeq (esn : Bool) (highest low : Nat) : Nat :=
  if !esn then low
  else
    let th := highest / 2 ^ 32
    let tl := highest % 2 ^ 32
    let hi := if 127 ≤ tl then (if tl - 127 ≤ low then th else th + 1)
      else (if tl + 2 ^ 32 - 127 ≤ low then th + 2 ^ 32 - 1 else th)
    hi % 2 ^ 32 * 2 ^ 32 + low

/-- The replay bitmap of a context, bit k for HIGHEST − k. -/
def State.replayWindow (s : State) (c : Nat) : Nat := (s.rd Reg.CIP_CTX_W6 c).toNat + (s.rd Reg.CIP_CTX_W7 c).toNat * 2 ^ 64

/-- Whether the anti-replay check drops a sequence number (R181). -/
def State.replayed (s : State) (c seq : Nat) : Bool :=
  let hi := s.fget Fld.CIP_CTX_W5_HIGHEST c
  decide (seq + 127 < hi) || (decide (seq ≤ hi) && (s.replayWindow c).testBit (hi - seq))

/-- HIGHEST and WINDOW after a verified sequence number (R181). -/
def State.replayMark (s : State) (c seq : Nat) : State :=
  let hi := s.fget Fld.CIP_CTX_W5_HIGHEST c
  let w := s.replayWindow c
  let w' := if hi < seq then (if seq - hi < 128 then (w <<< (seq - hi)) % 2 ^ 128 else 0) ||| 1
    else if seq + 127 < hi then w else w ||| 2 ^ (hi - seq)
  ((s.fset Fld.CIP_CTX_W5_HIGHEST c (max hi seq)).wr Reg.CIP_CTX_W6 c (BitVec.ofNat 64 w')).wr Reg.CIP_CTX_W7 c
    (BitVec.ofNat 64 (w' / 2 ^ 64))

/-- ESP_INBOUND (R179, R181). -/
def execEspInbound (h : Nat) (s : State) : Out :=
  match s.frame? h with
  | none => .next s
  | some f =>
    match f.stage with
    | .cipher 1 c =>
      if !s.cipherTurn h 1 c then .next s
      else if s.noCipher then .next (s.cipherDrop h Fld.CIPC_KEYLESS_DROP_COUNT)
      else if !s.espFits 1 c f.inst then .next (s.cipherDrop h Fld.CIPC_CTX_MISMATCH_COUNT)
      else match f.layer 2 with
        | none => .next (s.cipherDrop h Fld.CIPC_LEN_ERR_COUNT)
        | some l4 =>
          let d := f.bytes
          let ivLen := if s.ctxAlg c ≤ 2 then 8 else 16
          let ctLen := d.length - (l4 + 8 + ivLen + 16)
          if ctLen = 0 || (if s.ctxAlg c ≤ 2 then decide (16383 < ctLen) else ctLen % 16 != 0) then
            .next (s.cipherDrop h Fld.CIPC_LEN_ERR_COUNT)
          else if w32 d l4 ≠ s.fget Fld.CIP_CTX_W1_SPI c then .next (s.cipherDrop h Fld.CIPC_SPI_MISMATCH_COUNT)
          else
            let seq := espSeq (s.fbit Fld.CIP_CTX_W0_ESN c) (s.fget Fld.CIP_CTX_W5_HIGHEST c) (w32 d (l4 + 4))
            if s.fbit Fld.CIP_CTX_W0_REPLAY_EN c && s.replayed c seq then .next (s.cipherDrop h Fld.CIPC_REPLAY_DROP_COUNT)
            else match s.invoke c false with
              | (.number _, s) =>
                let body := d.drop (l4 + 8)
                match s.espOpen c seq (body.take ivLen) ((body.drop ivLen).take ctLen) (body.drop (ivLen + ctLen)) with
                | none => .next (s.cipherDrop h Fld.CIPC_AUTH_FAIL_COUNT)
                | some p =>
                  let s := s.replayMark c seq
                  let pad := byteAt p (p.length - 2)
                  let d := d.take l4 ++ p.take (p.length - 2 - pad)
                  let d := match f.layer 1 with | some l3 => setL3 d l3 (byteAt p (p.length - 1)) | none => d
                  .next (s.setFrame h { f with bytes := d, stage := .admitting })
              | (_, s) => .next (s.dropFrame h)
    | _ => .next s

/-! ### csub (R182) -/

/-- The bytes a unit reads in DDR5 or shared memory: none at another address or on a poisoned line, which is counted and logged. -/
def State.unitRead (s : State) (a n : Nat) : Option (List Byte) × State :=
  if n = 0 then (some [], s)
  else match s.region a with
    | .ddr => s.ddrRead a n
    | .shared c =>
      if s.region (a + n - 1) = .shared c then
        (match s.memLoad a n with | some bs => (some bs, s) | none => (none, s))
      else (none, s)
    | _ => (none, s)

/-- Whether a unit may write `n` bytes in DDR5 or shared memory. -/
def State.unitMayWrite (s : State) (a n : Nat) : Bool :=
  n == 0 || (s.region a == s.region (a + n - 1) && (match s.region a with | .ddr => true | .shared _ => true | _ => false))

/-- The STATUS that the request's own fields decide, 0 where none: BAD_REQ, PERM, CTX_MISMATCH, LEN_ERR. -/
def State.csubCheck (s : State) (t : Nat) (ws : List Word) : Nat :=
  let w0 := ws.getD 0 0
  let op := bits w0 63 60
  let c := bits w0 47 32
  let len := bits w0 31 0
  let aad := bits (ws.getD 1 0) 63 48
  let xts := op = 3 ∨ op = 4
  if op = 0 ∨ 4 < op ∨ bits w0 59 48 ≠ 0 ∨ bits (ws.getD 2 0) 63 48 ≠ 0 ∨ (!xts ∧ 512 < aad) then 11
  else if !(s.fget Fld.CIP_CTX_W0_CSUB_CLU c).testBit (cluOf t) then 10
  else if xts then
    let du := if s.fbit Fld.CIP_CTX_W0_DU c then 4096 else 512
    if s.ctxAlg c ≠ 3 ∨ s.ctxUse c < 2 then 4
    else if len = 0 ∨ len % du ≠ 0 ∨ 2 ^ 24 < len then 1 else 0
  else if s.ctxUse c ≠ 3 ∨ (s.ctxAlg c ≠ 1 ∧ s.ctxAlg c ≠ 2) ∨ s.fget Fld.CIP_CTX_W0_DIR c ≠ op - 1 then 4
  else if 16383 < len ∨ (len = 0 ∧ aad = 0) then 1 else 0

/-- A csub request reaches the engine: it is judged, and takes its invocation number (R175, R182). -/
def State.csubAccept (s : State) (t ch cookie : Nat) (ws : List Word) : State :=
  let op := bits (ws.getD 0 0) 63 60
  let put (s : State) (status n : Nat) : State := { s with csubs := s.csubs ++ [⟨t, ch, cookie, ws, status, n⟩] }
  if s.noCipher then put (s.bump Fld.CIPC_KEYLESS_DROP_COUNT) 8 0
  else match s.csubCheck t ws with
    | 4 => put (s.bump Fld.CIPC_CTX_MISMATCH_COUNT) 4 0
    | 1 => put (s.bump Fld.CIPC_LEN_ERR_COUNT) 1 0
    | 0 =>
      match s.invoke (bits (ws.getD 0 0) 47 32) (op = 1) with
      | (.number n, s) => put s 0 n
      | (.empty, s) => put s 2 0
      | (.exhausted, s) => put s 3 0
    | e => put s e 0

/-- The work of an accepted request: its STATUS and the state with the result at DST (R182). -/
def State.csubRun (s : State) (j : CsubJob) : Nat × State :=
  let w0 := j.words.getD 0 0
  let w1 := j.words.getD 1 0
  let op := bits w0 63 60
  let c := j.ctx
  let len := bits w0 31 0
  let key := s.key c
  let src := bits w1 47 0
  let dst := bits (j.words.getD 2 0) 47 0
  let xts := op = 3 ∨ op = 4
  let aad := if xts then 0 else bits w1 63 48
  let inLen := aad + len + (if op = 2 then 16 else 0)
  let outLen := len + (if op = 1 then 16 else 0)
  match s.unitRead src inLen with
  | (none, s) => (9, s)
  | (some inp, s) =>
    if !s.unitMayWrite dst outLen then (9, s)
    else if xts then
      let du := if s.fbit Fld.CIP_CTX_W0_DU c then 4096 else 512
      (0, s.memStore dst (xtsCrypt (op = 3) key du (j.words.getD 3 0).toNat inp))
    else
      let klen := if s.ctxAlg c = 1 then 16 else 32
      let n := if op = 1 then j.n else (j.words.getD 3 0).toNat
      let nonce := (key.drop klen).take 4 ++ natBE 8 n
      let a := inp.take aad
      let data := (inp.drop aad).take len
      if op = 1 then
        let ct := gcmCrypt (key.take klen) nonce data
        (0, s.memStore dst (ct ++ gcmTag (key.take klen) nonce a ct))
      else if gcmTag (key.take klen) nonce a data = inp.drop (aad + len) then
        (0, s.memStore dst (gcmCrypt (key.take klen) nonce data))
      else (5, s.bump Fld.CIPC_AUTH_FAIL_COUNT)

/-- CSUB_COMPLETE (R40, R53, R182): the oldest request finishes; its result stands at DST before the reply. A request in the engine
when an alarm struck returns KEYLESS (R183). -/
def execCsubComplete (s : State) : Out :=
  match s.csubs with
  | [] => .next s
  | j :: rest =>
    let s := { s with csubs := rest }
    let (status, s) := if j.status ≠ 0 then (j.status, s) else if s.keyless then (8, s) else s.csubRun j
    let len := if status = 0 then bits (j.words.getD 0 0) 31 0 else 0
    let n := if bits (j.words.getD 0 0) 63 60 = 1 then j.n else 0
    .next (s.engReply j.t j.ch
      { src := 0xF050, words := [fieldAt j.cookie 48 ||| fieldAt status 40 ||| fieldAt len 0, BitVec.ofNat 64 n] })

/-! ### Alarms and self-tests (R183, R184, R403, R420, R426) -/

/-- Whether a frame is leaving through the cipher stage: its payload is an ESP one not wholly through before it started to leave, or
MACsec protects it on its way out. -/
def State.inCipher (s : State) (f : Frame) : Bool :=
  match f.stage with
  | .sending e => (f.cipher.isSome && !f.passed) || (decide (e < 32) && s.fget Fld.PRT_MAC_CFG_MACSEC e != 0)
  | .host _ => f.cipher.isSome && !f.passed
  | _ => false

/-- The frames that are leaving through the cipher stage are ended as frames that fail a late check (R114, R183). At a host egress the
completion is that of a failed ESP check (DESIGN CHOICE, log entry 76). -/
def State.endCipher (s : State) : State :=
  (s.frames.filter fun c => s.inCipher c.2).foldl (fun s c => s.endFrame c.1 c.2 0x13) s

/-- An alarm of Table 07-6: every key context, the KLW data, the memory key and the DICE keys are erased, the engine enters KEYLESS,
and Soundpost writes an ALARM record and notes the alarm in SP_TAMPER. A command in the KLW never completes. Frames leaving through the
cipher stage are ended. -/
def State.keyAlarm (s : State) (cause : Nat) : State :=
  let s := s.endCipher
  let s := (s.listed Reg.CIP_CTX_W0).foldl (fun s c => s.fset Fld.CIP_CTX_W0_STATE c 0) s
  let s := { s with keys := [], klwCmd := none, diceKeys := false }.klwZero
  let s := if s.keyless then s else s.irq 539
  let s := (s.fset Fld.CIP_ALARM_KEYLESS 0 1).fset Fld.CIP_ALARM_CAUSE 0 (s.fget Fld.CIP_ALARM_CAUSE 0 ||| 2 ^ cause)
  let s := s.fset Fld.MEM_STATUS_KEY_ERASED 0 1
  let s := (s.finc Fld.SP_TAMPER_ALARMS 0).fset Fld.SP_TAMPER_HISTORY 0 (s.fget Fld.SP_TAMPER_HISTORY 0 ||| 2 ^ cause)
  s.crashLog 2 0xFF cause 0 0

/-- KEY_ALARM (R183). -/
def execKeyAlarm (cause : Fin 6) (s : State) : Out := .next (s.keyAlarm cause)

/-- A write of CIP_SELFTEST (R184). -/
def State.selftestWrite (s : State) (v : Word) : State := if bit v 0 then s.fset Fld.CIP_SELFTEST_RUNNING 0 1 else s
/-- SELFTEST_RUN (R184). -/
def execSelftestRun (s : State) : Out := .next (s.selftestWrite 1)

/-- SELFTEST_COMPLETE (R184): a failed run raises the SELFTEST alarm. -/
def execSelftestComplete (pass : Bool) (s : State) : Out :=
  let s := ((s.fset Fld.CIP_SELFTEST_RUNNING 0 0).fset Fld.CIP_SELFTEST_READY 0 (b2n pass)).finc Fld.CIP_SELFTEST_RUNS 0
  .next (if pass then s else s.keyAlarm 5)

end Sys2Proof.Machine
end

