-- ==== Sys2Proof/Machine/Ports.lean ====
section
/-! DEFINITION. The MACs: receive checks (R191), MACsec (R192, R193), PTP stamps (R194 to R196), and a frame's arrival at the parser
(R12, R92, R153). -/

namespace Sys2Proof.Machine

/-! ### TIME (R194, R195, R379) -/

/-- A signed 32-bit correction. -/
def signed32 (n : Nat) : Int := (BitVec.ofNat 32 n).toInt
/-- TIME plus a signed correction, as a 64-bit count. -/
def State.stamp (s : State) (corr : Nat) : Nat := (((s.time : Int) + signed32 corr) % (2 ^ 64 : Int)).toNat

/-- A write of PRT_TOD_STEP (R195). -/
def State.todStep (s : State) (v : Word) : State := { s with time := (s.time + v.toNat) % 2 ^ 64 }
/-- TOD_STEP (R195): the signed step is added to TIME. -/
def execTodStep (value : Word) (s : State) : Out := .next (s.todStep value)

/-- One nanosecond of TIME: 4 units scaled by 1 + RATE × 2^−40. TIME holds whole units; the model rounds the count of elapsed units
of a nanosecond from the running total, so that no fraction is lost (R195, R379). -/
def State.timeTick (s : State) : State :=
  let rate := signed32 (s.fget Fld.PRT_TOD_ADJ_RATE 0)
  let total (n : Nat) : Int := 4 * (n : Int) + 4 * (n : Int) * rate / 2 ^ 40
  { s with ns := s.ns + 1, time := (((s.time : Int) + (total (s.ns + 1) - total s.ns)) % (2 ^ 64 : Int)).toNat }

/-! ### Arrival -/

/-- A frame with all checks made enters the packet path: it takes ingress cells (R153) and a place in its source's parser queue
(R92). -/
def State.arrive (s : State) (f : Frame) : State :=
  if !s.ingRoom f.lenFcs then s.bump Fld.TMC_ING_FULL_COUNT
  else if 64 ≤ s.srcQueue f.src then s.bump Fld.PARC_OVERRUN_COUNT f.src
  else (s.newFrame f).2

/-- The rate in Gb/s of a link by the MODE of its port (Table 08-1). -/
def portRate : Nat → Nat
  | 1 => 800 | 2 => 400 | 3 => 200 | _ => 1600
/-- The rate of an ingress source: a MAC's, or a Cuelrun port's. -/
def State.sourceRate (s : State) (src : Nat) : Nat := if src < 32 then portRate (s.fget Fld.PRT_PORT_CFG_MODE (src / 8)) else 1600

/-- A frame of a wire source. -/
def State.wireFrame (s : State) (src : Nat) (bytes : List Byte) (ts : Nat) (macsec : Bool) : Frame :=
  let inst := s.fget Fld.PAR_SRC_CFG_INSTANCE src
  { Frame.fresh bytes src inst (s.gen inst) (s.fget Fld.PAR_SRC_CFG_START src) with
    ts := ts, macsec := macsec, inRate := s.sourceRate src }

/-! ### MACsec -/

def etherType (d : List Byte) : Nat := w16 d 12

/-- The nonce of GCM-AES-XPN-256: (SSCI ‖ PN) xor salt (R176); the material is SAK 32, salt 12, SSCI 4. -/
def xpnNonce (key : List Byte) (pn : Nat) : List Byte := xorBytes ((key.drop 44).take 4 ++ natBE 8 pn) ((key.drop 32).take 12)

/-- What MACsec makes of a frame: it passes (changed or not), or it is dropped. -/
inductive SecResult where
  | pass (bytes : List Byte) (decrypted : Bool)
  | drop
  deriving DecidableEq, Repr

/-- The 64-bit packet number of a SecTAG, recovered from the lowest acceptable one (IEEE 802.1AE-2018; PRESUMED, log entry 24). -/
def xpnRecover (lowest pn : Nat) : Nat :=
  let hi := lowest / 2 ^ 32
  (if lowest.testBit 31 && !pn.testBit 31 then hi + 1 else hi) % 2 ^ 32 * 2 ^ 32 + pn

/-- MACsec on receive (R193). An SCI register is in network order: its first byte is its lowest-addressed one (R5). -/
def State.macsecRx (s : State) (m : Nat) (d : List Byte) : SecResult × State :=
  let mode := s.fget Fld.PRT_MAC_CFG_MACSEC m
  if mode = 0 || etherType d = 0x888E then (.pass d false, s)
  else if etherType d ≠ 0x88E5 then
    if mode = 1 then (.pass d false, s) else (.drop, s.bump Fld.PRTC_RX_UNTAGGED_COUNT m)
  else
    let tci := byteAt d 14
    let an := tci % 4
    let sc := tci.testBit 5
    let tag := if sc then 16 else 8
    let sci := leNat ((d.drop 20).take 8)
    let entry := (List.range 16).find? fun e =>
      let i := ix2 16 m e
      s.fbit Fld.PRT_MACSEC_RXSA_LO_VALID i && s.fget Fld.PRT_MACSEC_RXSA_LO_AN i == an &&
        (if sc then s.fget Fld.PRT_MACSEC_RXSA_HI_SCI i == sci else s.fbit Fld.PRT_MACSEC_RXSA_LO_DEFAULT i)
    match entry with
    | none => (.drop, s.bump Fld.PRTC_RX_NO_SA_COUNT m)
    | some e =>
      let i := ix2 16 m e
      let c := s.fget Fld.PRT_MACSEC_RXSA_LO_CTX i
      if !tci.testBit 3 || !tci.testBit 2 || d.length < 12 + tag + 16 then (.drop, s.bump Fld.PRTC_RX_NO_SA_COUNT m)
      else if s.noCipher then (.drop, s.bump Fld.CIPC_KEYLESS_DROP_COUNT)
      else if s.ctxUse c ≠ 1 || !s.fbit Fld.CIP_CTX_W0_DIR c || s.fget Fld.CIP_CTX_W0_INSTANCE c ≠ s.fget Fld.PAR_SRC_CFG_INSTANCE m then
        (.drop, s.bump Fld.CIPC_CTX_MISMATCH_COUNT)
      else
        let win := min 127 (s.fget Fld.PRT_MACSEC_RXSA_LO_REPLAY_WIN i)
        let hi := s.fget Fld.CIP_CTX_W5_HIGHEST c
        let pn := xpnRecover (hi - win) (w32 d 16)
        if pn + win < hi || (pn ≤ hi && (s.replayWindow c).testBit (hi - pn)) then (.drop, s.bump Fld.PRTC_RX_REPLAY_COUNT m)
        else match s.invoke c false with
          | (.number _, s) =>
            let key := s.key c
            let sl := byteAt d 15 % 64
            let rest := d.drop (12 + tag)
            let len := if sl = 0 then rest.length - 16 else min sl (rest.length - 16)
            let ct := rest.take len
            let nonce := xpnNonce key pn
            if gcmTag (key.take 32) nonce (d.take (12 + tag)) ct = (rest.drop len).take 16 then
              (.pass (d.take 12 ++ gcmCrypt (key.take 32) nonce ct) true, s.replayMark c pn)
            else (.drop, s.bump Fld.CIPC_AUTH_FAIL_COUNT)
          | (_, s) => (.drop, s)

/-- MACsec on transmit (R5, R192, R176, R177): every frame but EAPOL is protected under TX_AN. -/
def State.macsecTx (s : State) (m : Nat) (d : List Byte) : SecResult × State :=
  if s.fget Fld.PRT_MAC_CFG_MACSEC m = 0 || etherType d = 0x888E then (.pass d false, s)
  else
    let an := s.fget Fld.PRT_MAC_CFG_TX_AN m
    let c := bits (s.rd Reg.PRT_MACSEC_TXSA m) (16 * an + 15) (16 * an)
    if s.noCipher then (.drop, s.bump Fld.CIPC_KEYLESS_DROP_COUNT)
    else if s.ctxUse c ≠ 1 || s.fbit Fld.CIP_CTX_W0_DIR c then (.drop, s.bump Fld.CIPC_CTX_MISMATCH_COUNT)
    else match s.invoke c true with
      | (.number n, s) =>
        let key := s.key c
        let body := d.drop 12
        let sl := if body.length < 48 then body.length else 0
        let head := d.take 12 ++ natBE 2 0x88E5 ++ natBE 1 (0x2C + an) ++ natBE 1 sl ++ natBE 4 n ++
          wordBytesLE (s.rd Reg.PRT_MACSEC_SCI m)
        let nonce := xpnNonce key n
        let ct := gcmCrypt (key.take 32) nonce body
        (.pass (head ++ ct ++ gcmTag (key.take 32) nonce head ct) false, s)
      | (_, s) => (.drop, s)

/-! ### FRAME_RECEIVE -/

/-- The codewords that a port's links have corrected and found not correctable are counted (R197). -/
def State.fecCount (s : State) (port : Nat) (fec : FecNote) : State :=
  (s.fadd Fld.PRTC_FEC_CORR_COUNT port fec.corr).fadd Fld.PRTC_FEC_UNCORR_COUNT port fec.uncorr

/-- FRAME_RECEIVE (R12, R191, R193, R194). A failed FCS or an early end is known before the frame can leave, so the frame is
dropped (R114). A warm restart stops every MAC (R387). -/
def execFrameReceive (mac : Fin 32) (bytes : List Byte) (fcs : RxFcs) (early : Bool) (s : State) : Out :=
  let m := mac.val
  let s := s.fecCount (m / 8) fcs.fec
  let len := bytes.length + 4
  if s.dark || s.fget Fld.PRT_MAC_STATUS_STATE m ≠ 4 || s.fget Fld.PRT_PORT_CFG_MODE (m / 8) = 4 then .next s
  else if len < 64 then .next (s.bump Fld.PRTC_RX_RUNT_COUNT m)
  else if max 64 (s.fget Fld.PRT_MAC_CFG_MAX_FRAME m) < len then .next (s.bump Fld.PRTC_RX_OVERSIZE_COUNT m)
  else if early then .next s
  else if !fcs.ok then .next (s.bump Fld.PRTC_RX_FCS_ERR_COUNT m)
  else if etherType bytes = 0x8808 then .next (s.bump Fld.PRTC_RX_CTRL_COUNT m)
  else
    let s := (s.bump Fld.PRTC_RX_FRAMES_COUNT m).fadd Fld.PRTC_RX_BYTES_COUNT m len
    match s.macsecRx m bytes with
    | (.drop, s) => .next s
    | (.pass d dec, s) => .next (s.arrive (s.wireFrame m d (s.stamp (s.fget Fld.PRT_PTP_DELAY_RX m)) dec))

/-! ### PTP (R196) -/

/-- Where the PTP header of an event message stands in a frame. -/
def ptpHeader (d : List Byte) : Option Nat :=
  let at_ := if hasVlan d then 16 else 12
  let l3 := at_ + 2
  match w16 d at_ with
  | 0x88F7 => some l3
  | 0x0800 => if byteAt d l3 = 0x45 ∧ byteAt d (l3 + 9) = 17 ∧ w16 d (l3 + 22) = 319 then some (l3 + 28) else none
  | 0x86DD => if byteAt d l3 / 16 = 6 ∧ byteAt d (l3 + 6) = 17 ∧ w16 d (l3 + 42) = 319 then some (l3 + 48) else none
  | _ => none

/-- PRT_TS_HEAD and PRT_TS_TIME show the head of the FIFO. -/
def State.tsShow (s : State) (m : Nat) : State :=
  let (a, b) := (mget [] s.tsFifo m).headD (0, 0)
  (s.wr Reg.PRT_TS_HEAD m a).wr Reg.PRT_TS_TIME m b

/-- The transmit MAC captures the egress stamp of a PTP event message, before MACsec protects it (R196). -/
def State.ptpCapture (s : State) (m : Nat) (d : List Byte) : State :=
  if !s.fbit Fld.PRT_MAC_CFG_PTP_TX m then s
  else match ptpHeader d with
    | none => s
    | some p =>
      if d.length < p + 34 || 3 < byteAt d p % 16 then s
      else
        let q := mget [] s.tsFifo m
        if 64 ≤ q.length then s.bump Fld.PRTC_TS_LOST_COUNT m
        else
          let w := fieldAt 1 63 ||| fieldAt (byteAt d p % 16) 56 ||| fieldAt (byteAt d (p + 4)) 48 ||| fieldAt (w16 d (p + 30)) 32
          let st := BitVec.ofNat 64 (s.stamp (s.fget Fld.PRT_PTP_DELAY_TX m))
          { s with tsFifo := mset [] s.tsFifo m (q ++ [(w, st)]) }.tsShow m

/-- POP of PRT_TS_HEAD (R196). -/
def State.tsPop (s : State) (m : Nat) : State := { s with tsFifo := mset [] s.tsFifo m ((mget [] s.tsFifo m).drop 1) }.tsShow m
/-- TS_POP (R196). -/
def execTsPop (m : Fin 32) (s : State) : Out := .next (s.tsPop m)

end Sys2Proof.Machine
end

