-- ==== Sys2Proof/Machine/Cuelrun.lean ====
section
/-! DEFINITION. Ports and links (R186 to R190) and the Cuelrun link: retry, routing, deadlines, peer windows and READs (R198 to
R207). -/

namespace Sys2Proof.Machine

/-- STATE of a link: 0 DISABLED, 1 AN, 2 TRAINING, 3 ALIGN, 4 UP, 5 FAULT. -/
def State.linkSt (s : State) (m : Nat) : Nat := s.fget Fld.PRT_MAC_STATUS_STATE m
/-- MODE of the port of a link. -/
def State.modeOf (s : State) (m : Nat) : Nat := s.fget Fld.PRT_PORT_CFG_MODE (m / 8)
/-- A port is a Cuelrun port. -/
def State.isCue (s : State) (p : Nat) : Bool := s.fget Fld.PRT_PORT_CFG_MODE p == 4
/-- A Cuelrun port that is UP. -/
def State.cueUp (s : State) (p : Nat) : Bool := s.isCue p && s.linkSt (8 * p) == 4
/-- DEVICE_ID. -/
def State.devId (s : State) : Nat := s.fget Fld.CUE_CFG_DEVICE_ID 0

/-- Whether a link exists in its port's mode (Table 08-1). -/
def State.linkExists (s : State) (m : Nat) : Bool :=
  match s.modeOf m with
  | 0 => m % 8 == 0 | 1 => m % 4 == 0 | 2 => m % 2 == 0 | 3 => true | _ => m % 8 == 0

/-! ### Sending (R198 to R200, R202, R203) -/

/-- The bytes of a frame on the link: header, payload and CRC. -/
def cueSize (f : CueFrame) : Nat := f.payload.length + 20

/-- A LINK frame: 0 ACK, 1 NAK, 2 NAK_BUSY. -/
def linkFrame (status seq : Nat) : CueFrame :=
  { dst := 0, src := 0, hops := 0, cls := 0, type := 6, win := 0, wgen := 0, seq := seq, deadline := 0, tag := 0, wrapped := false,
    status := status, payload := [] }

/-- The queued frame that goes next: the highest CLASS, and within it transit and local output in turn (R204). -/
def CuePort.next (c : CuePort) : Option CueOut :=
  match (c.queue.map fun o => o.f.cls).max? with
  | none => none
  | some k =>
    let want := !c.lastTransit.contains k
    let ofK := c.queue.filter fun o => o.f.cls == k
    match ofK.find? fun o => o.transit == want with
    | some o => some o
    | none => ofK.head?

/-- Whether the window of unacknowledged frames lets a new frame out (R199). -/
def CuePort.open_ (c : CuePort) (f : CueFrame) : Bool :=
  decide (c.unacked.length < 256) && decide ((c.unacked.map cueSize).sum + cueSize f ≤ 4194304)

/-- An outstanding READ comes to nothing: its issuer has a bus error (R205). -/
def State.readFail (s : State) (tag : Nat) : State :=
  { s with cueReads := s.cueReads.map fun r => if r.tag = tag && r.st == .waiting then { r with st := .failed } else r }

/-- What a drop of a frame is answered with (R203): the RESP to a WRITE, READ or MSG, unless this adapter issued it, whose READ then
fails. -/
def State.dropReply (s : State) (f : CueFrame) (status : Nat) : Option CueFrame × State :=
  if f.type = 1 ∨ f.type = 2 ∨ f.type = 4 then
    if f.src = s.devId then (none, if f.type = 2 then s.readFail f.tag else s)
    else (some { f with
      dst := f.src, src := s.devId, hops := 0, type := 3, win := 0, wgen := 0, deadline := s.fget Fld.CUE_CFG_RESP_DEADLINE 0,
      wrapped := false, status := status, payload := [] }, s)
  else (none, s)

/-- The port a frame leaves on (R202): its port and WRAPPED bit, or a drop, counted in WRAP_DROP or NO_ROUTE. -/
def State.cueRoute (s : State) (ingress : Option Nat) (f : CueFrame) : Option (Nat × Bool) × State :=
  if f.wrapped then
    let a := s.fget Fld.CUE_CFG_RING_A 0
    let b := (List.range 4).find? fun p => p != a && s.fbit Fld.CUE_PORT_CFG_RING p
    let out := if ingress = some a then b else some a
    match out with
    | some p =>
      if s.fbit Fld.CUE_CFG_RING_EN 0 && s.cueUp p then (some (p, true), s) else (none, s.bump Fld.CUEC_WRAP_DROP_COUNT (ingress.getD p))
    | none => (none, s.bump Fld.CUEC_WRAP_DROP_COUNT (ingress.getD 0))
  else
    let port := s.fget Fld.CUE_ROUTE_PORT f.dst
    let alt := s.fget Fld.CUE_ROUTE_ALT_PORT f.dst
    if !s.fbit Fld.CUE_ROUTE_VALID f.dst then (none, s.bump Fld.CUEC_NO_ROUTE_COUNT)
    else if s.cueUp port then (some (port, false), s)
    else if s.fbit Fld.CUE_ROUTE_ALT_VALID f.dst && s.cueUp alt then (some (alt, true), s)
    else (none, s.bump Fld.CUEC_NO_ROUTE_COUNT)

/-- A frame is put in a port's queue; one of the TM is that port's to send from then on. -/
def State.cueEnq (s : State) (p : Nat) (o : CueOut) : State :=
  let c := s.cuePort p
  let s := s.setCue p { c with queue := c.queue ++ [o] }
  match o.h.bind fun h => (s.frame? h).map fun f => (h, f) with
  | some (h, f) => s.setFrame h { f with stage := .sending (32 + p) }
  | none => s

/-- The frame of the TM that a port was sending is away. -/
def State.cueAway (s : State) (p : Nat) : State :=
  let c := s.cuePort p
  match c.last with
  | some h => (s.setCue p { c with last := none }).freeFrame h
  | none => s

/-- A frame of the TM departs: a TS_REQ job learns of it (R244). -/
def State.cueDeparts (s : State) (h : Nat) : State :=
  match s.frame? h with
  | some f => (s.hostDeparts f).setFrame h { f with job := none }
  | none => s

/-- A frame leaves for the neighbour under the next SEQ, with its residence time taken from DEADLINE (R199, R203). -/
def State.cueSend (s : State) (p : Nat) (o : CueOut) : State :=
  let s := s.cueAway p
  let c := s.cuePort p
  let f := { o.f with seq := c.txSeq, deadline := o.f.deadline - (s.ns - o.arr), wrapped := o.wrap }
  let c := { c with
    txSeq := (c.txSeq + 1) % 65536, unacked := c.unacked ++ [f], last := o.h,
    lastTransit := if o.transit then f.cls :: c.lastTransit.erase f.cls else c.lastTransit.erase f.cls }
  let s := ((s.setCue p c).bump Fld.CUEC_TX_FRAMES_COUNT p).emit (.cueTx p f false)
  match o.h with | some h => s.cueDeparts h | none => s

/-- A frame that has been dropped on the Cuelrun path: its place in the buffer is freed, and it is answered where R203 answers it; the
answer is routed in its turn, or delivered where it is this adapter's own. -/
def State.cueDropped (s : State) (f : CueFrame) (h : Option Nat) (status : Nat) : State :=
  let s := match h with | some h => s.dropFrame h | none => s
  match s.dropReply f status with
  | (none, s) => s
  | (some r, s) =>
    match s.cueRoute none r with
    | (some (p, w), s) => s.cueEnq p ⟨false, none, s.ns, w, r, none⟩
    | (none, s) => s

/-- A port sends what it may, at most `fuel` frames; a frame whose DEADLINE has run out is dropped, and its answer is routed in its
turn (R199, R203, R204). -/
def State.cuePump : Nat → State → Nat → State
  | 0, s, _ => s
  | fuel + 1, s, p =>
    let c := s.cuePort p
    match c.next with
    | none => s
    | some o =>
      if !s.cueUp p || !c.open_ o.f then s
      else
        let s := s.setCue p { c with queue := c.queue.erase o }
        if o.f.deadline ≤ s.ns - o.arr then
          State.cuePump fuel ((s.bump Fld.CUEC_DEADLINE_DROP_COUNT).cueDropped o.f o.h 3) p
        else State.cuePump fuel (s.cueSend p o) p

/-- Every port sends what it may. -/
def State.cueKick (s : State) : State :=
  (List.range 8).foldl (fun s p => State.cuePump ((s.cuePort (p % 4)).queue.length + 1) s (p % 4)) s

/-- A frame is routed and queued, or dropped (R202, R203). A request or response for this adapter itself is delivered to it, and a
broadcast of another TYPE than DATA goes nowhere (R201). A broadcast copy whose port leaves UP is dropped: the tree's other ports have
theirs (DESIGN CHOICE, log entry 26). -/
def State.cueForward (s : State) (ingress : Option Nat) (transit : Bool) (arr : Nat) (f : CueFrame) (h : Option Nat) : State :=
  if f.dst = s.devId && f.type != 0 then { s with peerIn := s.peerIn ++ [(0, f)] }
  else if f.dst = 0xFFFF then if f.type = 0 && transit then s else (s.bump Fld.CUEC_NO_ROUTE_COUNT).cueDropped f h 4
  else match s.cueRoute ingress f with
    | (some (p, w), s) => s.cueEnq p ⟨transit, ingress, arr, w, f, h⟩
    | (none, s) => s.cueDropped f h 4

/-- Whether an outbound slot is disabled, so that each access to it fails at once (R205). -/
def State.slotOff (s : State) (slot : Nat) : Bool := s.fget Fld.CUE_OUT_DEADLINE slot == 0

/-- The frame of a request through an outbound slot (R205). Payload: the request word, then data. -/
def State.slotFrame (s : State) (slot type off len tag : Nat) (data : List Byte) : CueFrame :=
  { dst := s.fget Fld.CUE_OUT_DEST slot, src := s.devId, hops := 0, cls := s.fget Fld.CUE_OUT_CLASS slot,
    type := type, win := s.fget Fld.CUE_OUT_RWIN slot, wgen := s.fget Fld.CUE_OUT_RGEN slot, seq := 0,
    deadline := s.fget Fld.CUE_OUT_DEADLINE slot, tag := tag, wrapped := false, status := 0,
    payload := natBE 8 (off * 65536 + (len - 1) % 4096) ++ data }

/-- A request of this adapter through an outbound slot (R205): none where the slot is disabled. -/
def State.cueRequest (s : State) (slot type off len tag : Nat) (data : List Byte) : Option State :=
  if s.slotOff slot then none else some (s.cueForward none false s.ns (s.slotFrame slot type off len tag data) none).cueKick

/-- The READs that are outstanding (R205). -/
def State.readsOut (s : State) : Nat := s.cueReads.countP fun r => r.st == .waiting

/-- The next free READ tag; 0 is the tag of posted requests (DESIGN CHOICE, log entry 25). -/
def State.cueTag (s : State) : Nat × State :=
  let t := (List.range 65535).find? fun i => !s.cueReads.any fun r => r.tag == (s.cueTags + i) % 65535 + 1
  let k := (s.cueTags + t.getD 0) % 65535
  (k + 1, { s with cueTags := k + 1 })

/-! ### Links (Table 08-2) -/

/-- A link enters a state; a departure from UP is counted. -/
def State.setLink (s : State) (m st : Nat) : State :=
  let s := if s.linkSt m = 4 && st != 4 then s.finc Fld.PRT_MAC_STATUS_LINK_DOWNS m else s
  s.fset Fld.PRT_MAC_STATUS_STATE m st

/-- The frame being sent on a link that leaves UP is abandoned (R187), and on a Cuelrun link the frames that wait for an acknowledgement
are dropped and those not yet sent are routed again, in their order, as they came (R202). -/
def State.leaveUp (s : State) (m : Nat) : State :=
  if s.modeOf m = 4 then
    let p := m / 8
    let c := s.cuePort p
    let s := match c.last with | some h => (s.bump Fld.PRTC_TX_ABORT_COUNT m).dropFrame h | none => s
    let s := s.fadd Fld.CUEC_FAILOVER_DROP_COUNT p c.unacked.length
    let s := s.setCue p CuePort.init0
    (c.queue.foldl (fun s o => s.cueForward o.ingress o.transit o.arr o.f o.h) s).cueKick
  else
    (s.frames.filter fun c => c.2.stage == .sending m).foldl (fun s c => (s.bump Fld.PRTC_TX_ABORT_COUNT m).dropFrame c.1) s

/-- A link that is UP goes to another state. -/
def State.downLink (s : State) (m st : Nat) : State :=
  if s.linkSt m = 4 then (s.setLink m st).leaveUp m else s.setLink m st

/-- The lanes of a link by the MODE of its port (Table 08-1). -/
def linkLanes : Nat → Nat
  | 1 => 4 | 2 => 2 | 3 => 1 | _ => 8

/-- The lanes of a link take the polarity of PRT_LANE_CFG (R188). -/
def State.takePolarity (s : State) (m : Nat) : State :=
  { s with polarity := (List.range (linkLanes (s.modeOf m))).foldl (fun c k =>
      mset 0 c (m + k) (2 * s.fget Fld.PRT_LANE_CFG_RX_INV (m + k) + s.fget Fld.PRT_LANE_CFG_TX_INV (m + k))) s.polarity }

/-- Whether the adapter advertises the low-latency code (R189). -/
def State.fecOffer (s : State) (m : Nat) : Bool := s.fget Fld.PRT_PORT_CFG_FEC (m / 8) == 2

/-- A link starts: Clause 73 on an Ethernet link with AN_EN = 1, otherwise training. It advertises the rate of its mode and, with FEC = 2,
the low-latency code; its lanes take their polarity (R188 to R190). -/
def State.startLink (s : State) (m : Nat) : State :=
  let s := s.takePolarity m
  if s.modeOf m = 4 then (s.setCue (m / 8) { s.cuePort (m / 8) with init := false }).setLink m 2
  else if s.fbit Fld.PRT_PORT_CFG_AN_EN (m / 8) then (s.emit (.anPage m (portRate (s.modeOf m)) (s.fecOffer m))).setLink m 1
  else s.setLink m 2

/-- ENABLE as the links see it: each link of the mode starts or is taken to DISABLED. -/
def State.applyEnable (s : State) (p : Nat) : State :=
  (List.range 8).foldl (fun s k =>
    let m := 8 * p + k
    let want := s.linkExists m && (s.fget Fld.PRT_PORT_CFG_ENABLE p).testBit k
    if want && s.linkSt m == 0 then s.startLink m
    else if !want && s.linkSt m != 0 then s.downLink m 0
    else s) s

/-- A write of PRT_PORT_CFG (R3, R187, Table 08-2): a refused MODE leaves the old value and sets MODE_UNSUPPORTED; a changed MODE
takes every link of the port to DISABLED and restarts the enabled links under the new grouping. -/
def State.portCfgWrite (s : State) (p : Nat) (v : Word) : State :=
  let old := s.fget Fld.PRT_PORT_CFG_MODE p
  let new := Fld.PRT_PORT_CFG_MODE.of v
  let refused := decide (4 < new) || (new == 0 && Config.grade32)
  let w := writeFields false Reg.PRT_PORT_CFG (s.rd Reg.PRT_PORT_CFG p) v
  let w := if refused then Fld.PRT_PORT_CFG_MODE_UNSUPPORTED.ins (Fld.PRT_PORT_CFG_MODE.ins w old) 1 else w
  let s := if !refused && new != old then
      (List.range 8).foldl (fun s k => if s.linkSt (8 * p + k) = 0 then s else s.downLink (8 * p + k) 0) s
    else s
  (s.wr Reg.PRT_PORT_CFG p w).applyEnable p

/-- PORT_MODE_WRITE (R3, R187). -/
def execPortModeWrite (p : Fin 4) (value : Word) (s : State) : Out := .next (s.portCfgWrite p value)

/-- The value of PRT_PORT_CFG with one ENABLE bit set or cleared and nothing else written. -/
def State.enableValue (s : State) (m : Nat) (on : Bool) : Word :=
  let w := s.rd Reg.PRT_PORT_CFG (m / 8)
  let e := Fld.PRT_PORT_CFG_ENABLE.of w
  let e := if on then e ||| 2 ^ (m % 8) else e &&& (255 - 2 ^ (m % 8))
  Fld.PRT_PORT_CFG_MODE_UNSUPPORTED.ins (Fld.PRT_PORT_CFG_ENABLE.ins w e) 0

/-- LINK_ENABLE (Table 08-2). -/
def execLinkEnable (m : Fin 32) (s : State) : Out := .next (s.portCfgWrite (m / 8) (s.enableValue m true))
/-- LINK_DISABLE (Table 08-2). -/
def execLinkDisable (m : Fin 32) (s : State) : Out := .next (s.portCfgWrite (m / 8) (s.enableValue m false))

/-- FEC_ACTIVE by PRT_PORT_CFG.FEC and the partner's advertisement (R189). -/
def State.fecActive (s : State) (m : Nat) (low : Bool) : Nat :=
  match s.fget Fld.PRT_PORT_CFG_FEC (m / 8) with | 1 => 1 | 2 => b2n low | _ => 0

/-- AN_COMPLETE (R189, Table 08-2). -/
def execAnComplete (m : Fin 32) (common low : Bool) (s : State) : Out :=
  if s.linkSt m ≠ 1 then .next s
  else if common then .next ((s.fset Fld.PRT_MAC_STATUS_FEC_ACTIVE m (s.fecActive m low)).setLink m 2)
  else .next { s with anFail := mset 0 s.anFail m (mget 0 s.anFail m + 1) }

/-- TRAINING_COMPLETE (R189, R198, Table 08-2). A link without negotiation, whose partner advertises nothing before ALIGN, runs the FEC of
R189; a Cuelrun link sends its INIT frame, with its FEC advertisement. -/
def execTrainingComplete (m : Fin 32) (s : State) : Out :=
  if s.linkSt m ≠ 2 then .next s
  else
    let t := if s.modeOf m = 4 || !s.fbit Fld.PRT_PORT_CFG_AN_EN (m / 8) then
        s.fset Fld.PRT_MAC_STATUS_FEC_ACTIVE m (s.fecActive m false) else s
    let t := if s.modeOf m = 4 then t.emit (.cueInit (m / 8) s.devId (s.fecOffer m)) else t
    .next (t.setLink m 3)

/-- TRAINING_TIMEOUT (Table 08-2). -/
def execTrainingTimeout (m : Fin 32) (s : State) : Out := .next (if s.linkSt m = 2 then s.setLink m 5 else s)
/-- ALIGN_TIMEOUT (Table 08-2). -/
def execAlignTimeout (m : Fin 32) (s : State) : Out := .next (if s.linkSt m = 3 then s.setLink m 5 else s)

/-- LINK_ALIGNED (R190, R198, Table 08-2): a Cuelrun link also needs the INIT exchange and another ID than its own; both directions
then start at SEQ 0. -/
def execLinkAligned (m : Fin 32) (s : State) : Out :=
  if s.linkSt m ≠ 3 then .next s
  else if s.modeOf m = 4 then
    let p := m.val / 8
    let c := s.cuePort p
    if !c.init || s.fget Fld.CUE_PORT_STATUS_NEIGHBOUR p = s.devId then .next s
    else
      let s := s.setCue p { CuePort.init0 with init := true, low := c.low, queue := c.queue }
      .next (((s.setLink m 4).irq (526 + p)).cueKick)
  else .next ((s.setLink m 4).irq (526 + m / 8))

/-- A link that is UP faults (Table 08-2). -/
def State.linkFault (s : State) (m : Nat) : State := (s.downLink m 5).irq (526 + m / 8)

/-- LINK_LOSS (R197, Table 08-2), with the codewords counted since the last event of the port. -/
def execLinkLoss (l : LossNote) (s : State) : Out :=
  let m := l.mac.val
  let s := s.fecCount (m / 8) l.fec
  .next (if s.linkSt m = 4 then s.linkFault m else s)

/-- Every PLL that feeds a link has lock: keys 0 to 3 are the port PLLs, 4 + n the TX PLL of lane n (R375). -/
def State.pllOk (s : State) (m : Nat) : Bool :=
  !mget false s.portPll (m / 8) && (List.range 8).all fun k => !mget false s.portPll (4 + m / 8 * 8 + k)

/-- FAULT_RETRY (Table 08-2): a link stays in FAULT while its PLL has no lock (R375). -/
def execFaultRetry (m : Fin 32) (s : State) : Out :=
  .next (if s.linkSt m = 5 && s.pllOk m then s.startLink m else s)

/-- INIT_RECEIVED (R189, R190, R198): in ALIGN the neighbour's ID and FEC are recorded, LINK_DELAY is half the round trip rounded up,
and the INIT frame is sent back as it came; the adapter's own ID sets ID_CONFLICT and raises the port's source. -/
def execInitReceived (p : Fin 4) (id : BitVec 16) (low : Bool) (roundTrip : Nat) (s : State) : Out :=
  if !s.isCue p || s.linkSt (8 * p) ≠ 3 then .next s
  else
    let s := s.fset Fld.CUE_PORT_STATUS_NEIGHBOUR p id.toNat
    let s := s.fset Fld.CUE_PORT_STATUS_LINK_DELAY p (min 65535 ((roundTrip + 1) / 2))
    let s := s.fset Fld.PRT_MAC_STATUS_FEC_ACTIVE (8 * p) (s.fecActive (8 * p) low)
    let s := s.setCue p { s.cuePort p with init := true, low := low }
    let s := s.emit (.cueInit p id.toNat low)
    .next (if id.toNat = s.devId then (s.fset Fld.CUE_PORT_STATUS_ID_CONFLICT p 1).irq (526 + p) else s)

/-! ### Acknowledgement and replay (R199) -/

/-- A LINK ACK frees the frames up to the SEQ it carries; that is progress. -/
def State.cueAck (s : State) (p seq : Nat) : State :=
  let c := s.cuePort p
  match c.unacked.findIdx? fun f => f.seq == seq with
  | none => s
  | some i =>
    let s := s.setCue p { c with unacked := c.unacked.drop (i + 1), retries := 0 }
    (if c.unacked.length = i + 1 then s.cueAway p else s).cueKick

/-- A replay from frame number `i` of the buffer; RETRY_MAX replays without progress take the link to FAULT. -/
def State.cueReplay (s : State) (p i : Nat) : State :=
  let c := s.cuePort p
  if c.unacked.length ≤ i then s
  else
    let n := c.retries + 1
    let s := (s.setCue p { c with retries := n, busy := none }).bump Fld.CUEC_REPLAYS_COUNT p
    if max 1 (s.fget Fld.CUE_CFG_RETRY_MAX 0) ≤ n then s.linkFault (8 * p)
    else (c.unacked.drop i).foldl (fun s f => s.emit (.cueTx p f false)) s

/-- A replay from a SEQ. -/
def State.cueReplayFrom (s : State) (p seq : Nat) : State :=
  match (s.cuePort p).unacked.findIdx? fun f => f.seq == seq with
  | none => s
  | some i => s.cueReplay p i

/-- LINK_ACK (R199). -/
def execLinkAck (p : Fin 4) (seq : BitVec 16) (s : State) : Out := .next (if s.cueUp p then s.cueAck p seq.toNat else s)
/-- LINK_NAK (R199). -/
def execLinkNak (p : Fin 4) (seq : BitVec 16) (s : State) : Out := .next (if s.cueUp p then s.cueReplayFrom p seq.toNat else s)
/-- NAK_BUSY (R199): the replay waits 500 ns. -/
def execNakBusy (p : Fin 4) (seq : BitVec 16) (s : State) : Out :=
  .next (if s.cueUp p then s.setCue p { s.cuePort p with busy := some seq.toNat } else s)
/-- NAK_BUSY_REPLAY (R199). -/
def execNakBusyReplay (p : Fin 4) (s : State) : Out :=
  match (s.cuePort p).busy with
  | some q => .next (if s.cueUp p then (s.setCue p { s.cuePort p with busy := none }).cueReplayFrom p q else s)
  | none => .next s
/-- REPLAY_TIMEOUT (R199): the replay starts at the oldest unacknowledged frame. -/
def execReplayTimeout (p : Fin 4) (s : State) : Out := .next (if s.cueUp p then s.cueReplay p 0 else s)

/-! ### Receiving (R199 to R203) -/

/-- The bytes of transit traffic of an ingress port that wait in the adapter: a broadcast frame counts once, however many ports are to
send it (DESIGN CHOICE, log entry 26). -/
def State.transitHeld (s : State) (p : Nat) : Nat :=
  let held := ((List.range 4).map fun q => ((s.cuePort q).queue.filter fun o => o.transit && o.ingress == some p).map fun o => o.f).flatten
  ((held.eraseDups).map cueSize).sum

/-- The ports that forward a broadcast of a port (R201). -/
def State.treePorts (s : State) (p : Nat) : List Nat :=
  (List.range 4).filter fun q => q != p && s.cueUp q && s.fbit Fld.CUE_PORT_CFG_TREE q

/-- Whether a received frame needs the transit buffer of its port. -/
def State.inTransit (s : State) (p : Nat) (f : CueFrame) : Bool :=
  if f.dst = 0xFFFF then f.type == 0 && !(s.treePorts p).isEmpty else f.dst != s.devId

/-- One LINK NAK for the expected SEQ, then silence until it arrives. -/
def State.sendNak (s : State) (p : Nat) : State :=
  let c := s.cuePort p
  if c.nakSent then s else (s.setCue p { c with nakSent := true }).emit (.cueTx p (linkFrame 1 c.rxSeq) false)

/-- A frame for this adapter (R201): DATA enters at source 32 + p without its header; a WRITE, READ, MSG or RESP waits for its unit; one of
a reserved TYPE goes nowhere. -/
def State.cueLocal (s : State) (p : Nat) (f : CueFrame) : State :=
  if f.type = 0 then s.arrive (s.wireFrame (32 + p) f.payload (s.time % 2 ^ 64) false)
  else if f.type < 5 then { s with peerIn := s.peerIn ++ [(p, f)] }
  else s

/-- A frame accepted under its SEQ goes on (R201 to R203). -/
def State.cueAccept (s : State) (p : Nat) (f : CueFrame) : State :=
  let delay := s.fget Fld.CUE_PORT_STATUS_LINK_DELAY p
  let g := { f with deadline := f.deadline - delay }
  let t := { g with hops := min 255 (g.hops + 1) }
  if f.deadline ≤ delay then ((s.bump Fld.CUEC_DEADLINE_DROP_COUNT).cueDropped f none 3).cueKick
  else if f.dst = 0xFFFF ∧ f.type = 0 then
    ((s.treePorts p).foldl (fun s q => s.cueEnq q ⟨true, some p, s.ns, t.wrapped, t, none⟩) (s.cueLocal p g)).cueKick
  else if f.dst = s.devId then s.cueLocal p g
  else (s.cueForward (some p) true s.ns t none).cueKick

/-- The copies of a frame that were being forwarded as its bad CRC came are ended stomped (R200): each frees its SEQ again. A frame without
a route, or past its DEADLINE, was not being forwarded. -/
def State.stompCopies (s : State) (p : Nat) (f : CueFrame) : State :=
  let delay := s.fget Fld.CUE_PORT_STATUS_LINK_DELAY p
  let outs : List (Nat × Bool) :=
    if f.deadline ≤ delay || f.dst = s.devId then []
    else if f.dst = 0xFFFF then if f.type = 0 then (s.treePorts p).map fun q => (q, f.wrapped) else []
    else (s.cueRoute (some p) f).1.toList
  outs.foldl (fun s o => (s.bump Fld.CUEC_STOMP_TX_COUNT o.1).emit (.cueTx o.1
    { f with seq := (s.cuePort o.1).txSeq, wrapped := o.2, hops := min 255 (f.hops + 1), deadline := f.deadline - delay } true)) s

/-- A LINK frame (R199). -/
def State.cueLink (s : State) (p : Nat) (f : CueFrame) : State :=
  match f.status with
  | 0 => s.cueAck p f.seq
  | 1 => s.cueReplayFrom p f.seq
  | 2 => s.setCue p { s.cuePort p with busy := some f.seq }
  | _ => s

/-- CUELRUN_RECEIVE (R197, R199 to R203, R208): in ALIGN only a frame's CRC matters; a good INIT frame is INIT_RECEIVED's. -/
def execCuelrunReceive (p : Fin 4) (f : CueFrame) (crc : RxCrc) (s : State) : Out :=
  let s := s.fecCount p crc.fec
  let crc := crc.crc
  let c := s.cuePort p
  if !s.isCue p || (s.linkSt (8 * p) ≠ 3 && s.linkSt (8 * p) ≠ 4) then .next s
  else if crc = .stomped then .next (s.bump Fld.CUEC_STOMP_RX_COUNT p)
  else if crc ≠ .good then
    let s := s.bump Fld.CUEC_CRC_ERR_COUNT p
    if !s.cueUp p || 6 ≤ f.type then .next s
    else .next ((if crc = .badCut && f.seq == c.rxSeq then s.stompCopies p f else s).sendNak p)
  else if !s.cueUp p then .next s
  else if f.type = 6 then .next (s.cueLink p f)
  else if f.type = 7 then .next s
  else if f.seq ≠ c.rxSeq then .next (s.sendNak p)
  else
    if s.inTransit p f && decide (2097152 < s.transitHeld p + cueSize f) then
      .next (((s.setCue p { c with nakSent := false }).bump Fld.CUEC_TRANSIT_BUSY_COUNT p).emit (.cueTx p (linkFrame 2 c.rxSeq) false))
    else
      let s := s.setCue p { c with rxSeq := (c.rxSeq + 1) % 65536, nakSent := false }
      let s := (s.bump Fld.CUEC_RX_FRAMES_COUNT p).emit (.cueTx p (linkFrame 0 f.seq) false)
      .next (s.cueAccept p f)

/-! ### Peer windows (R206, R207) -/

/-- OFFSET and LEN of a request. -/
def cueOffset (f : CueFrame) : Nat := beNat (f.payload.take 8) / 65536
def cueLen (f : CueFrame) : Nat := beNat (f.payload.take 8) % 4096 + 1

/-- The check of a request against the active copy: 0 accepted, 1 WINDOW_STALE, 2 PERM (R206). -/
def State.winCheck (s : State) (f : CueFrame) : Nat :=
  let w := f.win
  let kind := s.fget Fld.CUE_WIN_AC_W2_KIND w
  let mask := s.fget Fld.CUE_WIN_AC_W3_SRC_MASK w
  if f.wgen ≠ s.fget Fld.CUE_WIN_CTL_GEN w then 1
  else
    let may := match f.type with
      | 1 => kind == 0 && s.fbit Fld.CUE_WIN_AC_W3_WRITE w
      | 2 => kind == 0 && s.fbit Fld.CUE_WIN_AC_W3_READ w
      | _ => kind == 1 && s.fbit Fld.CUE_WIN_AC_W3_WRITE w && cueLen f % 8 == 0 && decide (cueLen f ≤ 128)
    if s.fbit Fld.CUE_WIN_AC_W3_VALID w && (f.src &&& mask) == (s.fget Fld.CUE_WIN_AC_W3_SRC_ID w &&& mask) && may &&
        decide (cueOffset f + cueLen f - 1 ≤ s.fget Fld.CUE_WIN_AC_W1_LIMIT w) then 0 else 2

/-- The RESP to a request. -/
def State.respond (s : State) (f : CueFrame) (status : Nat) (data : List Byte) : State :=
  let r := { f with
    dst := f.src, src := s.devId, hops := 0, type := 3, win := 0, wgen := 0, deadline := s.fget Fld.CUE_CFG_RESP_DEADLINE 0,
    wrapped := false, status := status, payload := data }
  (s.cueForward none false s.ns r none).cueKick

/-- A refusal is counted (R206). -/
def State.winCount (s : State) (status : Nat) : State :=
  s.bump (if status = 1 then Fld.CUEC_WINDOW_STALE_COUNT else if status = 2 then Fld.CUEC_WINDOW_PERM_COUNT
    else Fld.CUEC_WINDOW_BUSY_COUNT)

/-- A refusal is counted and answered (R206). -/
def State.winRefuse (s : State) (f : CueFrame) (status : Nat) : State := (s.winCount status).respond f status []

/-- The request at the head of those delivered, where it is of one type. -/
def State.peerTake (s : State) (type : Nat) : Option (CueFrame × State) :=
  match s.peerIn with
  | (_, f) :: rest => if f.type = type then some (f, { s with peerIn := rest }) else none
  | [] => none

/-- PEER_WRITE (R206, R207). -/
def execPeerWrite (s : State) : Out :=
  match s.peerTake 1 with
  | none => .next s
  | some (f, s) =>
    match s.winCheck f with
    | 0 => .next (s.memStore (s.fget Fld.CUE_WIN_AC_W0_BASE f.win + cueOffset f) ((f.payload.drop 8).take (cueLen f)))
    | e => .next (s.winRefuse f e)

/-- What a window answers to a READ: its data, or the status of a refusal or of an uncorrectable error, with what these count. -/
def State.winRead (s : State) (f : CueFrame) : Except Nat (List Byte) × State :=
  match s.winCheck f with
  | 0 =>
    let a := s.fget Fld.CUE_WIN_AC_W0_BASE f.win + cueOffset f
    match s.memLoad a (cueLen f) with
    | some bs => (.ok bs, s)
    | none => (.error 6, s.noteUncorrs a (cueLen f))
  | e => (.error e, s.winCount e)

/-- PEER_READ (R206, R207): answered with data, or with the status of its failure. -/
def execPeerRead (s : State) : Out :=
  match s.peerTake 2 with
  | none => .next s
  | some (f, s) =>
    match s.winRead f with
    | (.ok bs, s) => .next (s.respond f 0 bs)
    | (.error e, s) => .next (s.respond f e [])

/-- PEER_MSG (R206, R73): one message of little-endian words (R5) to the window's channel; a full channel refuses it with BUSY. -/
def execPeerMsg (s : State) : Out :=
  match s.peerTake 4 with
  | none => .next s
  | some (f, s) =>
    match s.winCheck f with
    | 0 =>
      let ch := s.fget Fld.CUE_WIN_AC_W2_CH f.win
      let words := (List.range (cueLen f / 8)).map fun k => BitVec.ofNat 64 (leNat ((f.payload.drop (8 + 8 * k)).take 8))
      if ch < 0x4000 && s.chanEn ch && decide ((s.chan ch).room < words.length) then .next (s.winRefuse f 5)
      else .next (s.unitReply ch { src := 0xF060, words := words })
    | e => .next (s.winRefuse f e)

/-- PEER_RESP (R205): a RESP ends an outstanding READ, reports a posted request that failed, or is discarded as late: its READ has timed
out, or its TAG has been released. -/
def execPeerResp (s : State) : Out :=
  match s.peerTake 3 with
  | none => .next s
  | some (f, s) =>
    match s.cueReads.find? fun r => r.tag == f.tag && r.tag != 0 with
    | some r =>
      if r.st == .dead then .next ({ s with cueReads := s.cueReads.erase r }.bump Fld.CUEC_LATE_RESP_COUNT)
      else if r.st == .waiting then
        .next { s with cueReads := s.cueReads.map fun q =>
          if q = r then { q with st := if f.status = 0 then .data f.payload else .failed } else q }
      else .next s
    | none =>
      .next (if f.tag ≠ 0 then s.bump Fld.CUEC_LATE_RESP_COUNT else match f.status with
        | 1 => s.bump Fld.CUEC_WINDOW_STALE_COUNT
        | 2 => s.bump Fld.CUEC_WINDOW_PERM_COUNT
        | 3 => s.bump Fld.CUEC_DEADLINE_DROP_COUNT
        | 4 => s.bump Fld.CUEC_NO_ROUTE_COUNT
        | 5 => s.bump Fld.CUEC_WINDOW_BUSY_COUNT
        | _ => s)

/-- READ_TIMEOUT (R205): the READ fails and its tag stays unused. The issuer's failed entry stands beside the dead tag until the
issuer has taken it. -/
def execReadTimeout (tag : BitVec 16) (s : State) : Out :=
  match s.cueReads.find? fun r => r.tag == tag.toNat && r.st == .waiting with
  | none => .next s
  | some r => .next { s with cueReads := { r with tag := 0, st := .failed } :: s.cueReads.map fun q => if q = r then { q with st := .dead } else q }

/-- READ_TAG_RELEASE (R205). -/
def execReadTagRelease (tag : BitVec 16) (s : State) : Out :=
  .next { s with cueReads := s.cueReads.filter fun r => !(r.tag == tag.toNat && r.st == .dead) }

/-- A window may map a range: it lies wholly inside DDR5 or one on-chip SRAM window (R207). -/
def State.winRangeOk (s : State) (base limit : Nat) : Bool :=
  (s.region base).normal && s.region base == s.region (base + limit)

/-- COMMIT of a peer window (R207). -/
def State.winCommitOp (s : State) (w : Nat) : State :=
  let last := mget 0 s.winCommit w
  let early := last ≠ 0 ∧ s.ns + 1 < last + 100000
  let bad := s.fget Fld.CUE_WIN_SH_W2_KIND w = 0 ∧ !s.winRangeOk (s.fget Fld.CUE_WIN_SH_W0_BASE w) (s.fget Fld.CUE_WIN_SH_W1_LIMIT w)
  if early ∨ bad then s.fset Fld.CUE_WIN_CTL_COMMIT_REFUSED w 1
  else
    let s := s.wr Reg.CUE_WIN_AC_W0 w (s.rd Reg.CUE_WIN_SH_W0 w)
    let s := s.wr Reg.CUE_WIN_AC_W1 w (s.rd Reg.CUE_WIN_SH_W1 w)
    let s := s.wr Reg.CUE_WIN_AC_W2 w (s.rd Reg.CUE_WIN_SH_W2 w)
    let s := s.wr Reg.CUE_WIN_AC_W3 w (s.rd Reg.CUE_WIN_SH_W3 w)
    { s.finc Fld.CUE_WIN_CTL_GEN w with winCommit := mset 0 s.winCommit w (s.ns + 1) }

/-- WINDOW_COMMIT (R207). -/
def execWindowCommit (w : Fin 64) (s : State) : Out := .next (s.winCommitOp w)

/-- A write of CUE_CFG: DEVICE_ID changes only while every MODE 4 link is DISABLED, and never to 0xFFFF. -/
def State.cueCfgWrite (s : State) (v : Word) : State :=
  let id := Fld.CUE_CFG_DEVICE_ID.of v
  let free := (List.range 4).all fun p => !s.isCue p || s.linkSt (8 * p) == 0
  let w := writeFields false Reg.CUE_CFG (s.rd Reg.CUE_CFG 0) v
  s.wr Reg.CUE_CFG 0 (if free && id != 0xFFFF then w else Fld.CUE_CFG_DEVICE_ID.ins w s.devId)

end Sys2Proof.Machine
end

