-- ==== Sys2Proof/Machine/Icu.lean ====
section
/-! DEFINITION. The interrupt controller (chapter 15): edges, pending and active bits, routing, acceptance and the
running-priority stacks. -/

namespace Sys2Proof.Machine

/-- A listed source: 0 to 539, 1,024 to 2,047 (Table 15-1). -/
def icuListed (src : Nat) : Bool := src < 540 || (1024 ≤ src && src < 2048)

/-- A PSF source; its core is source − 2,032 (R357). -/
def icuPsf (src : Nat) : Bool := 2032 ≤ src && src < 2048

/-- EN of a source; always 1 for a PSF source (R357). -/
def State.icuEn (s : State) (src : Nat) : Bool := icuPsf src || s.fbit Fld.ICU_SRC_CFG_EN src
/-- PRIO of a source; always 0 for a PSF source (R357). -/
def State.icuPrio (s : State) (src : Nat) : Nat := if icuPsf src then 0 else s.fget Fld.ICU_SRC_CFG_PRIO src
/-- TARGET of a source; its own core for a PSF source (R357). -/
def State.icuTarget (s : State) (src : Nat) : Nat := if icuPsf src then src - 2032 else s.fget Fld.ICU_SRC_CFG_TARGET src
/-- FALLBACK of a source; its own core for a PSF source (R357). -/
def State.icuFallback (s : State) (src : Nat) : Nat := if icuPsf src then src - 2032 else s.fget Fld.ICU_SRC_CFG_FALLBACK src
/-- WAKE_EN of a source; always 1 for a PSF source (R357). -/
def State.icuWakeEn (s : State) (src : Nat) : Bool := icuPsf src || s.fbit Fld.ICU_SRC_CFG_WAKE_EN src

/-- The power domain of a control core: CORE0 to CORE7 hold two cores each (Table 16-1). -/
def coreDomain (k : Nat) : Nat := 14 + k / 2

/-- A core is awake when its power domain is at depth 0 (R352). -/
def State.coreAwake (s : State) (k : Nat) : Bool := s.fget Fld.PWR_DOM_STATUS_DEPTH (coreDomain k) == 0

/-- The routed core of a pending source (R352). -/
def State.icuRouted (s : State) (src : Nat) : Nat :=
  let t := s.icuTarget src
  if s.coreAwake t then t
  else if s.icuWakeEn src then t
  else if mget 0 s.icuHold src == 2 then s.icuFallback src
  else t

/-- A core's stack, top first. -/
def State.icuStackOf (s : State) (k : Nat) : List (Nat × Nat) := mget [] s.icuStack k

/-- A core's running priority: the PRIO on top of its stack, or 64 (R355). -/
def State.icuRunning (s : State) (k : Nat) : Nat := match s.icuStackOf k with | [] => 64 | (p, _) :: _ => p

/-- Whether a source is deliverable to core `k` (R353, R357). -/
def State.icuDeliverable (s : State) (src k : Nat) : Bool :=
  s.fbit Fld.ICU_SRC_STATE_PENDING src && !s.fbit Fld.ICU_SRC_STATE_ACTIVE src && s.icuEn src &&
    s.icuRouted src == k && s.coreAwake k &&
    (icuPsf src || (decide (s.icuPrio src < s.icuRunning k) && decide ((s.icuStackOf k).length < 16)))

/-- The sources whose state register is listed: every pending source is among them. -/
def State.icuSources (s : State) : List Nat :=
  s.regs.filterMap fun p =>
    if Reg.ICU_SRC_STATE.key 0 ≤ p.1 && p.1 < Reg.ICU_SRC_STATE.key 2048 then some (p.1 - Reg.ICU_SRC_STATE.key 0) else none

/-- An interrupt is pending for core `k` while a source is deliverable to it (R353, R46). -/
def State.intPending (s : State) (k : Nat) : Bool := s.icuSources.any fun src => s.icuDeliverable src k

/-- The best deliverable source: the lowest PRIO, then the lowest number (R355). -/
def State.icuBest (s : State) (k : Nat) : Option Nat :=
  s.icuSources.foldl (fun b src =>
    if s.icuDeliverable src k then
      match b with
      | none => some src
      | some c => if s.icuPrio src < s.icuPrio c || (s.icuPrio src == s.icuPrio c && src < c) then some src else some c
    else b) none

/-- What R352 starts for a pending source whose target sleeps: a wake with WAKE_EN = 1, the redirect hold otherwise. -/
def State.icuRoute (s : State) (src : Nat) : State :=
  let t := s.icuTarget src
  if !s.fbit Fld.ICU_SRC_STATE_PENDING src || s.coreAwake t then { s with icuHold := mset 0 s.icuHold src 0 }
  else if s.icuWakeEn src then ({ s with icuHold := mset 0 s.icuHold src 0 }.bump Fld.ICUC_WAKES_COUNT).requestWake (coreDomain t)
  else if mget 0 s.icuHold src == 0 then { s with icuHold := mset 0 s.icuHold src 1 }
  else s

/-- An event reaches the ICU: PENDING is set; with PENDING = 1 it merges with the pending event (R351). -/
def State.icuPend (s : State) (src : Nat) : State :=
  if icuListed src && !s.fbit Fld.ICU_SRC_STATE_PENDING src then (s.fset Fld.ICU_SRC_STATE_PENDING src 1).icuRoute src else s

/-- Whether a pending source was delivered to core `k` when it was awake: what R353 asks beside PENDING and the routing. -/
def State.icuHeld (s : State) (src k : Nat) : Bool :=
  !s.fbit Fld.ICU_SRC_STATE_ACTIVE src && s.icuEn src &&
    (icuPsf src || (decide (s.icuPrio src < s.icuRunning k) && decide ((s.icuStackOf k).length < 16)))

/-- What R352 starts for the pending source `src` when core `k` falls asleep: with TARGET = k the wake or the redirect hold; a source
routed to FALLBACK = k starts its hold again where it was delivered (R358), and otherwise asks for a wake of k. A delivered source is
retracted (R353). -/
def State.icuSleepSource (s : State) (k src : Nat) : State :=
  let r := if s.icuHeld src k then s.bump Fld.ICUC_RETRACTS_COUNT else s
  if s.icuTarget src = k then r.icuRoute src
  else if s.icuFallback src = k ∧ mget 0 s.icuHold src = 2 ∧ !s.icuWakeEn src ∧ !s.coreAwake (s.icuTarget src) then
    (if s.icuHeld src k then { r with icuHold := mset 0 r.icuHold src 1 }
    else (r.bump Fld.ICUC_WAKES_COUNT).requestWake (coreDomain k))
  else s

/-- The core domain of core `k` has fallen asleep (R352, R353, R358). -/
def State.icuAsleep (s : State) (k : Nat) : State :=
  s.icuSources.foldl (fun s src => if s.fbit Fld.ICU_SRC_STATE_PENDING src then s.icuSleepSource k src else s) s

/-- A control core is awake again: sources routed to FALLBACK return to it (R352). -/
def State.icuAwake (s : State) (k : Nat) : State :=
  { s with icuHold := s.icuHold.filter fun p => s.icuTarget p.1 != k }

/-- INTERRUPT_EDGE (R350): sources 0 to 1,023 latch their edge in Soundpost; a PSF source becomes pending at once (R356). -/
def execInterruptEdge (src : Fin 2048) (s : State) : Out :=
  .next (if src.val < 1024 then (if icuListed src then s.irq src else s) else if icuPsf src then s.icuPend src else s)

/-- ICU_SET (R351): SET raises a source exactly as an edge does. -/
def execIcuSet (src : Fin 2048) (s : State) : Out := .next (s.icuPend src)

/-- ICU_PENDING_CLEAR (R351): a write of PENDING = 1 clears the bit. -/
def execIcuPendingClear (src : Fin 2048) (s : State) : Out :=
  .next (if icuListed src then { (s.fset Fld.ICU_SRC_STATE_PENDING src 0) with icuHold := mset 0 s.icuHold src 0 } else s)

/-- ICU_SRC_CFG_WRITE (R353, R354, R357): a delivered source is retracted by a write that ends its delivery; a write of TARGET,
FALLBACK or WAKE_EN restarts the redirect hold. -/
def execIcuSrcCfgWrite (src : Fin 2048) (value : Word) (s : State) : Out :=
  if !icuListed src || icuPsf src then .next s
  else
    let k := s.icuRouted src
    let was := s.icuDeliverable src k
    let t := s.wr Reg.ICU_SRC_CFG src (writeFields false Reg.ICU_SRC_CFG (s.rd Reg.ICU_SRC_CFG src) value)
    let t := { t with icuHold := mset 0 t.icuHold src 0 }.icuRoute src
    .next (if was && !t.icuDeliverable src k then t.bump Fld.ICUC_RETRACTS_COUNT else t)

/-- What an acceptance answers: source and PRIO (ICU_CLAIM). -/
def claimWord (src prio : Nat) : Word := fieldAt prio 24 ||| fieldAt src 0

/-- ICU_CLAIM read by requester `req` (R355, R357): the best deliverable source is accepted, or NONE is answered, which SPURIOUS
counts (Table 15-3). The answer is the second component. -/
def State.icuClaimOp (s : State) (req k : Nat) : State × Word :=
  if req ≠ 0xE000 + k then (s.bump Fld.ICUC_SPURIOUS_COUNT, fieldAt 1 31)
  else match s.icuBest k with
    | none => (s.bump Fld.ICUC_SPURIOUS_COUNT, fieldAt 1 31)
    | some src =>
      let prio := s.icuPrio src
      let t := s.fset Fld.ICU_SRC_STATE_PENDING src 0
      let t := { t with icuHold := mset 0 t.icuHold src 0 }
      let t := if icuPsf src then t
        else { (t.fset Fld.ICU_SRC_STATE_ACTIVE src 1).fset Fld.ICU_SRC_STATE_ROUTED src k with
          icuStack := mset [] t.icuStack k ((prio, src) :: t.icuStackOf k) }
      (t.bump Fld.ICUC_CLAIMS_COUNT, claimWord src prio)

/-- ICU_CLAIM (R355). -/
def execIcuClaim (req : Nat) (k : Fin 16) (s : State) : Out :=
  let (t, w) := s.icuClaimOp req k
  .next (t.emit (.readAnswer req w))

/-- ICU_EOI (R356): pops the stack where the named source is on top; otherwise PRIORITY_STACK_FAULT. -/
def execIcuEoi (req : Nat) (k : Fin 16) (src : Fin 2048) (s : State) : Out :=
  if req ≠ 0xE000 + k.val then .next s
  else if icuPsf src then .next s
  else match s.icuStackOf k with
    | (_, top) :: rest =>
      if top = src.val then
        .next { (s.fset Fld.ICU_SRC_STATE_ACTIVE src 0) with icuStack := mset [] s.icuStack k rest }
      else
        let s := ((s.fset Fld.ICU_CORE_STATUS_PSF k 1).fset Fld.ICU_CORE_STATUS_PSF_EOI k src).bump Fld.ICUC_PSF_COUNT
        let s := s.crashLog 5 2 k (BitVec.ofNat 64 top) (BitVec.ofNat 64 src)
        .next (s.icuPend (2032 + k))
    | [] =>
      let s := ((s.fset Fld.ICU_CORE_STATUS_PSF k 1).fset Fld.ICU_CORE_STATUS_PSF_EOI k src).bump Fld.ICUC_PSF_COUNT
      let s := s.crashLog 5 2 k 0 (BitVec.ofNat 64 src)
      .next (s.icuPend (2032 + k))

/-- REDIRECT_HOLD_EXPIRY (R352): the source goes to FALLBACK, whose domain is woken where it sleeps. -/
def execRedirectHoldExpiry (src : Fin 2048) (s : State) : Out :=
  if mget 0 s.icuHold src = 1 && !s.coreAwake (s.icuTarget src) then
    let t := { s with icuHold := mset 0 s.icuHold src 2 }.bump Fld.ICUC_REDIRECTS_COUNT
    let fb := t.icuFallback src
    .next (if t.coreAwake fb then t else (t.bump Fld.ICUC_WAKES_COUNT).requestWake (coreDomain fb))
  else .next s

end Sys2Proof.Machine
end

