-- ==== Sys2Proof/Machine/P384.lean ====
section
/-! DEFINITION. SHA-384 and HMAC-SHA-384 (FIPS 180-4, FIPS 198-1), and the verification of ECDSA signatures on P-384 (FIPS 186-5), as Table
00-6 names their editions (R10). -/

namespace Sys2Proof.Machine

/-! ### SHA-384 and HMAC -/

/-- The round constants, the first in the most significant 64 bits. -/
def sha512Table : Nat :=
  0x428A2F98D728AE227137449123EF65CDB5C0FBCFEC4D3B2FE9B5DBA58189DBBC3956C25BF348B538 <<< 4800 +
  0x59F111F1B605D019923F82A4AF194F9BAB1C5ED5DA6D8118D807AA98A303024212835B0145706FBE <<< 4480 +
  0x243185BE4EE4B28C550C7DC3D5FFB4E272BE5D74F27B896F80DEB1FE3B1696B19BDC06A725C71235 <<< 4160 +
  0xC19BF174CF692694E49B69C19EF14AD2EFBE4786384F25E30FC19DC68B8CD5B5240CA1CC77AC9C65 <<< 3840 +
  0x2DE92C6F592B02754A7484AA6EA6E4835CB0A9DCBD41FBD476F988DA831153B5983E5152EE66DFAB <<< 3520 +
  0xA831C66D2DB43210B00327C898FB213FBF597FC7BEEF0EE4C6E00BF33DA88FC2D5A79147930AA725 <<< 3200 +
  0x06CA6351E003826F142929670A0E6E7027B70A8546D22FFC2E1B21385C26C9264D2C6DFC5AC42AED <<< 2880 +
  0x53380D139D95B3DF650A73548BAF63DE766A0ABB3C77B2A881C2C92E47EDAEE692722C851482353B <<< 2560 +
  0xA2BFE8A14CF10364A81A664BBC423001C24B8B70D0F89791C76C51A30654BE30D192E819D6EF5218 <<< 2240 +
  0xD69906245565A910F40E35855771202A106AA07032BBD1B819A4C116B8D2D0C81E376C085141AB53 <<< 1920 +
  0x2748774CDF8EEB9934B0BCB5E19B48A8391C0CB3C5C95A634ED8AA4AE3418ACB5B9CCA4F7763E373 <<< 1600 +
  0x682E6FF3D6B2B8A3748F82EE5DEFB2FC78A5636F43172F6084C87814A1F0AB728CC702081A6439EC <<< 1280 +
  0x90BEFFFA23631E28A4506CEBDE82BDE9BEF9A3F7B2C67915C67178F2E372532BCA273ECEEA26619C <<< 960 +
  0xD186B8C721C0C207EADA7DD6CDE0EB1EF57D4F7FEE6ED17806F067AA72176FBA0A637DC5A2C898A6 <<< 640 +
  0x113F9804BEF90DAE1B710B35131C471B28DB77F523047D8432CAAB7B40C724933C9EBE0A15C9BEBC <<< 320 +
  0x431D67C49C100D4C4CC5D4BECB3E42B6597F299CFC657E2A5FCB6FAB3AD6FAEC6C44198C4A475817 <<< 0
def sha512K (i : Nat) : BitVec 64 := BitVec.ofNat 64 (sha512Table >>> (64 * (79 - i)))
/-- The next word of the message schedule, from the words so far (newest first). -/
def sha512Next (ws : List Word) : Word :=
  let a := ws.getD 14 0
  let b := ws.getD 1 0
  (b.rotateRight 19 ^^^ b.rotateRight 61 ^^^ (b >>> 6)) + ws.getD 6 0 + (a.rotateRight 1 ^^^ a.rotateRight 8 ^^^ (a >>> 7)) + ws.getD 15 0
/-- One round on the eight working variables. -/
def sha512Round (v : List Word) (k w : Word) : List Word :=
  match v with
  | [a, b, c, d, e, f, g, h] =>
    let t1 := h + (e.rotateRight 14 ^^^ e.rotateRight 18 ^^^ e.rotateRight 41) + ((e &&& f) ^^^ (~~~e &&& g)) + k + w
    let t2 := (a.rotateRight 28 ^^^ a.rotateRight 34 ^^^ a.rotateRight 39) + ((a &&& b) ^^^ (a &&& c) ^^^ (b &&& c))
    [t1 + t2, a, b, c, d + t1, e, f, g]
  | _ => v
/-- One 128-byte block. -/
def sha512Block (h : List Word) (b : List Byte) : List Word :=
  let w0 := ((chunks 8 16 b).map fun c => BitVec.ofNat 64 (beNat c)).reverse
  let ws := ((List.range 64).foldl (fun ws _ => sha512Next ws :: ws) w0).reverse
  List.zipWith (· + ·) h ((List.range 80).foldl (fun v i => sha512Round v (sha512K i) (ws.getD i 0)) h)
/-- The SHA-384 digest of a message, 48 bytes. -/
def sha384 (m : List Byte) : List Byte :=
  let p := m ++ [0x80] ++ List.replicate ((239 - m.length % 128) % 128) 0 ++ natBE 16 (8 * m.length)
  let iv : List Word := [0xCBBB9D5DC1059ED8, 0x629A292A367CD507, 0x9159015A3070DD17, 0x152FECD8F70E5939,
    0x67332667FFC00B31, 0x8EB44A8768581511, 0xDB0C2E0D64F98FA7, 0x47B5481DBEFA4FA4]
  ((((chunks 128 (p.length / 128) p).foldl sha512Block iv).map fun w => natBE 8 w.toNat).flatten).take 48
/-- HMAC-SHA-384 under a key of at most 128 bytes. -/
def hmacSha384 (key m : List Byte) : List Byte :=
  let k := key ++ List.replicate (128 - key.length) 0
  sha384 (k.map (· ^^^ 0x5C) ++ sha384 (k.map (· ^^^ 0x36) ++ m))

/-! ### ECDSA on P-384 -/

/-- The prime of the field, the order of the group, the coefficient b, and the base point. -/
def p384P : Nat := 2 ^ 384 - 2 ^ 128 - 2 ^ 96 + 2 ^ 32 - 1
def p384N : Nat := 0xFFFFFFFFFFFFFFFFFFFFFFFFFFFFFFFFFFFFFFFFFFFFFFFFC7634D81F4372DDF581A0DB248B0A77AECEC196ACCC52973
def p384B : Nat := 0xB3312FA7E23EE7E4988E056BE3F82D19181D9C6EFE8141120314088F5013875AC656398D8A2ED19D2A85C8EDD3EC2AEF
def p384G : Nat × Nat :=
  (0xAA87CA22BE8B05378EB1C71EF320AD746E1D3B628BA79B9859F741E082542A385502F25DBF55296C3A545E3872760AB7,
   0x3617DE4A96262C6F5D9E98BF9292DC29F8F41DBD289A147CE9DA3113B5F0B8C00A60B1CE1D7E819D7A431D7C90EA0E5F)

/-- Powers modulo `m`, by the bits of an exponent below 2^384. -/
def powMod (m x e : Nat) : Nat :=
  (List.range 384).foldl (fun a i => let a := a * a % m; if e.testBit (383 - i) then a * x % m else a) 1
/-- The inverse modulo a prime. -/
def invMod (m x : Nat) : Nat := powMod m (x % m) (m - 2)

/-- The sum of two points; none is the point at infinity. -/
def p384Add : Option (Nat × Nat) → Option (Nat × Nat) → Option (Nat × Nat)
  | none, q => q
  | q, none => q
  | some (x1, y1), some (x2, y2) =>
    let p := p384P
    if x1 = x2 ∧ (y1 + y2) % p = 0 then none
    else
      let l := if x1 = x2 then (3 * x1 * x1 + p - 3) * invMod p (2 * y1) % p else (y2 + p - y1) * invMod p (x2 + p - x1) % p
      let x := (l * l + 2 * p - x1 - x2) % p
      some (x, (l * (x1 + p - x) + p - y1) % p)
/-- A multiple of a point. -/
def p384Mul (k : Nat) (q : Option (Nat × Nat)) : Option (Nat × Nat) :=
  (List.range 384).foldl (fun a i => let a := p384Add a a; if k.testBit (383 - i) then p384Add a q else a) none
/-- A point of the curve y² = x³ − 3x + b. -/
def onP384 (q : Nat × Nat) : Bool :=
  decide (q.1 < p384P) && decide (q.2 < p384P) && (q.2 * q.2 + 3 * q.1) % p384P == (q.1 * q.1 * q.1 + p384B) % p384P

/-- Whether a signature r ‖ s, each of 48 bytes with the most significant first (PRESUMED, log entry 78), verifies over the SHA-384 of a
message against a public key. -/
def ecdsaVerify (q : Nat × Nat) (m sig : List Byte) : Bool :=
  let r := beNat (sig.take 48)
  let t := beNat ((sig.drop 48).take 48)
  let n := p384N
  if sig.length ≠ 96 ∨ r = 0 ∨ n ≤ r ∨ t = 0 ∨ n ≤ t ∨ !onP384 q then false
  else
    let w := invMod n t
    match p384Add (p384Mul (beNat (sha384 m) * w % n) (some p384G)) (p384Mul (r * w % n) (some q)) with
    | none => false
    | some (x, _) => x % n == r
/-- Whether a signature verifies against the key of a slot (R267, R381, R423). -/
def signed (slot : Nat) (m sig : List Byte) : Bool := ecdsaVerify (Config.publicKey slot) m sig

/-! ### DICE (R425) -/

/-- The key that the DeviceID key pair comes from, and the CDI of an image: its digest D, SVN in 4 bytes, KEY_SLOT and the debug state in one
byte each, as Table 17-5 places them (DESIGN CHOICE, log entry 68). -/
def deviceSeed : List Byte := hmacSha384 Config.uds Config.romDigest
def diceCdi (d : List Byte) (svn slot : Nat) (debug : Bool) : List Byte :=
  hmacSha384 Config.uds (d ++ natLE 4 svn ++ natLE 1 slot ++ natLE 1 (b2n debug))

end Sys2Proof.Machine
end

