-- ==== Sys2Proof/Machine/RegMap.lean ====
section
/-! DEFINITION. From an address to the register array and element that stands there (R7, R395). -/

namespace Sys2Proof.Machine

/-- The element that holds byte `o` of an array of some dimensions (outermost first), and the byte within it. -/
def elemAt : List (Nat × Nat) → Nat → Option (Nat × Nat)
  | [], o => if o < 8 then some (0, o) else none
  | (st, ct) :: ds, o =>
    if ct * st ≤ o ∧ st ≠ 0 then none
    else
      let i := if st = 0 then 0 else o / st
      (elemAt ds (o - i * st)).map fun p => (i * (ds.foldl (fun a d => a * d.2) 1) + p.1, p.2)

/-- The array and element whose bits stand at a DPA, and the byte within it. -/
def RegDesc.at? (r : RegDesc) (a : Nat) : Option (Nat × Nat) :=
  if a < r.base then none
  else match elemAt r.dims (a - r.base) with
    | some (i, b) => if b < r.width / 8 then some (i, b) else none
    | none => none

/-- The register at a DPA: its array, the element and the byte within the element. -/
def regAt (a : Nat) : Option (RegDesc × Nat × Nat) :=
  Reg.all.findSome? fun r => (r.at? a).map fun p => (r, p.1, p.2)

end Sys2Proof.Machine
end

