-- ==== Sys2Proof/Machine/Rings.lean ====
section
/-! DEFINITION. The rings of the HQE: vectors and the Fuller, errors, completions and the holding area, descriptor fetch, doorbells
and the ledger, element and map writes, drains (R232 to R243, R246 to R252, R287, R304, R305). -/

namespace Sys2Proof.Machine

/-! ### Vectors and errors -/

/-- A CQ sends its vector (R250, R251). -/
def State.sendVector (s : State) (n : Nat) : State :=
  (s.bump Fld.HQEC_VECTORS_COUNT).msix (s.ringX 2 n).inst (s.fget Fld.HQE_CQ_W0_VECTOR n)

/-- An SQ or RQ enters ERROR (R251, R252): its fetches in flight are discarded and its CQ's vector is sent; a
recovered error (R432). -/
def State.ringErr1 (s : State) (k n cause : Nat) : State :=
  if s.ringSt k n != 1 then s
  else
    let s := ((s.fset (rState k) n 3).fset (rCause k) n cause).bump Fld.HQEC_RING_ERRORS_COUNT
    let s := s.dropReads fun r => match r.who with | .fetch k' n' _ => k' == k && n' == n | _ => false
    let s := s.setRingX k n { s.ringX k n with fetches := [], next := s.fget (rLo k) n }
    let cq := s.fget (rCq k) n
    ((if s.ringSt 2 cq == 0 then s else s.sendVector cq).irq 530).errReport 2 5 cause (BitVec.ofNat 64 n)

/-- A ring enters ERROR. A CQ takes every ACTIVE ring that names it along, with CQ_ERR (R249, R252). -/
def State.ringError (s : State) (k n cause : Nat) : State :=
  if k < 2 then s.ringErr1 k n cause
  else if s.ringSt 2 n = 1 ∨ s.ringSt 2 n = 2 then
    let s := ((s.fset (rState 2) n 3).fset (rCause 2) n cause).bump Fld.HQEC_RING_ERRORS_COUNT
    let s := if cause = 8 then s.bump Fld.HQEC_CQ_TIMEOUT_COUNT else s
    let s := ((s.sendVector n).irq 530).errReport 2 5 cause (BitVec.ofNat 64 n)
    let hit (s : State) (k : Nat) : State :=
      ((s.liveRings k).filter fun m => s.fget (rCq k) m == n).foldl (fun s m => s.ringErr1 k m 7) s
    hit (hit s 0) 1
  else s

/-- The owners of refused writes learn of it: a ring enters ERROR with ACCESS (R274). -/
def State.ringRefused (s : State) (os : List WriteOwner) : State :=
  os.foldl (fun s o => match o with | .ring k n => s.ringError k n 9 | _ => s) s

/-! ### The Fuller (R250) -/

/-- A Fuller decision for a CQ. -/
def State.fuller (s : State) (n : Nat) : State :=
  let occ := s.ringOcc 2 n
  let t := mget 0 s.fullerT n
  if s.ringSt 2 n == 0 || !s.fbit Fld.HQE_CQ_W2_ARMED n || occ == 0 then s
  else if max 1 (s.fget Fld.HQE_CQ_W3_COUNT n) ≤ occ ∨ s.fget Fld.HQE_CQ_W3_TIME n = 0 ∨ t = 2 then
    { s.fset Fld.HQE_CQ_W2_ARMED n 0 with fullerT := mset 0 s.fullerT n 0 }.sendVector n
  else if t = 0 then { s with fullerT := mset 0 s.fullerT n 1 }
  else s

/-- FULLER_TIMER: TIME has passed since the CQ was first both armed and non-empty. -/
def execFullerTimer (n : Fin 65536) (s : State) : Out :=
  .next (if mget 0 s.fullerT n = 1 then { s with fullerT := mset 0 s.fullerT n 2 }.fuller n else s)

/-! ### Descriptor fetch (R241) -/

/-- The bytes of an entry: 32, or 64 in NVMe personality (R305). -/
def State.entrySize (s : State) (k n : Nat) : Nat := if k = 0 ∧ s.ringNvme k n then 64 else 32

/-- An ACTIVE SQ or RQ asks for the entries its doorbell allows: up to 16 a read, never past P or the end of the ring, with at most 4
reads out and 64 entries on chip. -/
def State.fetchGo (s : State) (k n : Nat) : Nat → State
  | 0 => s
  | fuel + 1 =>
    let r := s.ringX k n
    let size := s.ringSize k n
    let room := 64 - s.onChip k n - (r.fetches.map fun f => f.2).sum
    let cnt := min (min 16 room) (min (ringDist (s.fget (rHi k) n) r.next) (size - r.next % size))
    if s.dark || s.ringSt k n != 1 || !s.usable r.inst || 4 ≤ r.fetches.length || cnt == 0 then s
    else
      let t := s.setRingX k n { r with fetches := r.fetches ++ [(r.next, cnt)], next := (r.next + cnt) % 65536 }
      let esz := s.entrySize k n
      (t.hostRead (.fetch k n r.next) r.inst (s.fget (rBase k) n * 4096 + esz * (r.next % size)) (esz * cnt)
        (s.fbit (rAts k) n)).fetchGo k n fuel

/-- A ring fetches as far as it may. -/
def State.fetch (s : State) (k n : Nat) : State := s.fetchGo k n 4

/-! ### Completions (R236, R246 to R249, Table 10-7, R305) -/

/-- The occupancy at which a CQ is full: its size, or one less in NVMe personality. -/
def State.cqLimit (s : State) (n : Nat) : Nat := s.ringSize 2 n - (if s.ringNvme 2 n then 1 else 0)

def State.heldOf (s : State) (n : Nat) : List CplRec := mget [] s.held n
def State.stalledOf (s : State) (n : Nat) : List CplRec := mget [] s.stalled n
def State.setStalled (s : State) (n : Nat) (l : List CplRec) : State := { s with stalled := mset [] s.stalled n l }
/-- The holding area of a CQ; HELD counts it. The area's DDR5 bytes are the adapter's own and undefined to others (log entry 33). -/
def State.setHeld (s : State) (n : Nat) (l : List CplRec) : State :=
  { s with held := mset [] s.held n l }.fset Fld.HQE_CQ_W2_HELD n l.length

/-- The bytes of a completion entry at index `t` of a CQ. -/
def State.cplBytes (s : State) (n t : Nat) (c : CplRec) : List Byte :=
  let ph := phaseOf (s.fget (rLog 2) n) t
  let cons := s.fget (rLo c.kind) c.n
  match c.nvme with
  | some (a, b) =>
    wordBytesLE a ++ wordBytesLE (b ||| fieldAt (cons % s.ringSize c.kind c.n) 0 ||| fieldAt ph 48)
  | none =>
    wordBytesLE (fieldAt ph 63 ||| fieldAt (c.status % 128) 56 ||| fieldAt (c.loc % 256) 48 ||| fieldAt c.kind 47 |||
      fieldAt (c.nbuf % 128) 40 ||| fieldAt (c.tag % 65536) 16 ||| fieldAt cons 0) ++ wordBytesLE c.result

/-- A written NVMe completion is counted, one with a status other than 0 twice (R322). -/
def State.cplCount (s : State) (c : CplRec) : State :=
  match c.nvme with
  | some (_, b) =>
    let s := s.bump Fld.STOC_CMDS_DONE_COUNT
    if bits b 63 49 = 0 then s else s.bump Fld.STOC_CMD_ERR_COUNT
  | none => s

/-- Completions are written for consecutive slots, in requests that cross neither a 64-byte boundary nor the end of the ring. -/
def State.writeCpls (s : State) (n : Nat) : Nat → List CplRec → State
  | 0, _ => s
  | _, [] => s
  | fuel + 1, cs =>
    let t := s.fget (rHi 2) n
    let slot := t % s.ringSize 2 n
    let grp := cs.take (4 - slot % 4)
    let bytes := (grp.mapIdx fun i c => s.cplBytes n (t + i) c).flatten
    let inst := (s.ringX 2 n).inst
    let (u, refused) := (s.fset (rHi 2) n (t + grp.length)).hostWrite inst (s.gen inst) (s.fget (rBase 2) n * 4096 + 16 * slot) bytes
      (s.fbit (rAts 2) n) false false (.ring 2 n) (.cpls n t grp)
    let u := grp.foldl (fun u c => u.cplCount c) u
    (if refused then u.ringError 2 n 9 else u).writeCpls n fuel (cs.drop grp.length)

/-- A completion finds its place: written, or held while the CQ is full or holds others (R248). -/
def State.placeCpl (s : State) (n : Nat) (c : CplRec) : State :=
  let held := s.heldOf n
  if held.isEmpty && decide (s.ringOcc 2 n < s.cqLimit n) then (s.writeCpls n 1 [c]).fuller n
  else
    let base := s.fget Fld.HQE_CFG_HOLD_BASE 0 * 2 ^ 22 + 1024 * n
    let s := (s.setHeld n (held ++ [c])).loseRange base (base + 1024) true
    if s.ringSt 2 n = 1 then (s.fset (rState 2) n 2).bump Fld.HQEC_CQ_FULL_COUNT else s

/-- A completion becomes ready, under the local number its ring has then. That of an older generation, or for a CQ that is DISABLED, is never written (R282); while the holding
area is full it waits, and its job stays on chip (R248). -/
def State.postCpl (s : State) (c : CplRec) : State :=
  let n := s.fget (rCq c.kind) c.n
  let c := { c with loc := (s.ringX c.kind c.n).locN }
  if c.gen != s.gen c.inst || s.ringSt 2 n == 0 then s
  else if !(s.stalledOf n).isEmpty || 64 ≤ (s.heldOf n).length then s.setStalled n (s.stalledOf n ++ [c])
  else s.placeCpl n c

/-- Stalled completions move into the holding area while it has room; their jobs retire and their rings fetch on. -/
def State.unstall (s : State) (n : Nat) : Nat → State
  | 0 => s
  | fuel + 1 =>
    match s.stalledOf n with
    | [] => s
    | c :: cs =>
      if 64 ≤ (s.heldOf n).length then s
      else (((s.setStalled n cs).placeCpl n c).fetch c.kind c.n).unstall n fuel

/-- A head doorbell has freed slots: held completions are written in order, then stalled ones move up; a FULL CQ that holds nothing any
longer is ACTIVE. -/
def State.headMoved (s : State) (n : Nat) : State :=
  let room := s.cqLimit n - s.ringOcc 2 n
  let held := s.heldOf n
  let s := (s.setHeld n (held.drop room)).writeCpls n (room + 1) (held.take room)
  let s := s.unstall n ((s.stalledOf n).length + 1)
  if s.ringSt 2 n = 2 ∧ (s.heldOf n).isEmpty then s.fset (rState 2) n 1 else s

/-- FULL_TIMEOUT (R249). -/
def execFullTimeout (n : Fin 65536) (s : State) : Out :=
  .next (if (s.heldOf n).isEmpty then s else s.ringError 2 n 8)

/-- The status field of an NVMe completion: SC, SCT and DNR (Table 13-8). -/
def nvmeStatus (sct sc : Nat) (dnr : Bool) : Nat := sc + 256 * sct + (if dnr then 2 ^ 14 else 0)

/-- The completion of an NVMe command of an SQ: DW0 and DW1 zero or as given, the SQ identifier, the CID and the status (R305). -/
def State.nvmeCpl (s : State) (n gen cid status : Nat) (dw0 : Nat) : CplRec :=
  let x := s.ringX 0 n
  { kind := 0, n := n, inst := x.inst, gen := gen, status := 0, nbuf := 0, tag := 0, result := 0, ents := 1,
    nvme := some (fieldAt dw0 0, fieldAt (x.locN + 1) 16 ||| fieldAt (cid % 65536) 32 ||| fieldAt (status % 32768) 49) }

/-! ### Doorbells (R237 to R240, R304) -/

/-- A slot number as an index at or after `i` (R304). -/
def slotIndex (size i v : Nat) : Nat := (i + (v + size - i % size) % size) % 65536

/-- An SQ or RQ doorbell is tested against C and P (R237). -/
def State.sqDb (s : State) (k n v : Nat) : State :=
  if s.ringSt k n != 1 then s.bump Fld.HQEC_DB_IGNORED_COUNT
  else
    let size := s.ringSize k n
    let c := s.fget (rLo k) n
    let p := s.fget (rHi k) n
    if s.ringNvme k n && size ≤ v then ((s.bump Fld.HQEC_OVERRUN_COUNT).ringError k n 1).irq 533
    else
      let d := if s.ringNvme k n then slotIndex size c v else v
      if size < ringDist d c then (s.bump Fld.HQEC_OVERRUN_COUNT).ringError k n 1
      else if ringDist d c < ringDist p c then s.bump Fld.HQEC_DB_STALE_COUNT
      else (s.fset (rHi k) n d).fetch k n

/-- A CQ doorbell is tested against T and H (R238). -/
def State.cqDb (s : State) (n v : Nat) (arm : Bool) : State :=
  if s.ringSt 2 n == 0 then s.bump Fld.HQEC_DB_IGNORED_COUNT
  else
    let size := s.ringSize 2 n
    let t := s.fget (rHi 2) n
    let h := s.fget (rLo 2) n
    if s.ringNvme 2 n && size ≤ v then ((s.bump Fld.HQEC_OVERRUN_COUNT).ringError 2 n 1).irq 533
    else
      let d := if s.ringNvme 2 n then slotIndex size h v else v
      if size < ringDist t d then (s.bump Fld.HQEC_OVERRUN_COUNT).ringError 2 n 1
      else
        let arm := arm || s.ringNvme 2 n
        let s := if arm && !s.fbit Fld.HQE_CQ_W2_ARMED n then
          { s.fset Fld.HQE_CQ_W2_ARMED n 1 with fullerT := mset 0 s.fullerT n 0 } else s
        let s := if ringDist t h < ringDist t d then s.bump Fld.HQEC_DB_STALE_COUNT
          else (s.fset (rLo 2) n d).headMoved n
        s.fuller n

/-- A doorbell is applied to its ring, and goes to the lane of the ring, where it joins the ring's doorbell queue (R255). -/
def State.applyDb (s : State) (k n v : Nat) (arm : Bool) : State :=
  let s := if s.ringSt k n = 0 then s else
    { s with ucDoorbells := mset [] s.ucDoorbells (ringKey k n) (mget [] s.ucDoorbells (ringKey k n) ++ [fieldAt v 0]) }
  if k < 2 then s.sqDb k n v else s.cqDb n v arm

/-- The DPA of a doorbell ledger slot (R287). -/
def State.ledgerAddr (s : State) (i k r : Nat) : Nat := s.fget Fld.CAPO_CFG_WORK_BASE 0 * 2 ^ 26 + 8192 * i + 8 * (256 * k + r)

/-- A doorbell goes to the ledger (R287). -/
def State.ledgerPut (s : State) (i k r v : Nat) (arm : Bool) : State :=
  let a := s.ledgerAddr i k r
  let old := s.mem64 a
  let cnt := min 65535 (bits old 47 32 + 1)
  (s.bump Fld.CAPOC_LEDGER_DB_COUNT).storeBytes a
    (wordBytesLE (fieldAt 1 63 ||| fieldAt (b2n (bit old 62 || (k == 2 && arm))) 62 ||| fieldAt cnt 32 ||| fieldAt v 0))

/-- Whether the instance is under Capo freeze: its doorbells go to the ledger (R287). -/
def State.frozen (s : State) (i : Nat) : Bool := decide (3 ≤ s.instState i)

/-- A doorbell for local ring `r` of an instance. In the dark period its last value is kept (R229). -/
def State.doorbell (s : State) (i k r : Nat) (v : Nat) (arm : Bool) : State :=
  match s.ringGlobal i k r with
  | none =>
    let s := s.bump Fld.HQEC_DB_UNMAPPED_COUNT
    if s.fbit Fld.STO_CTRL_W0_NVME i then s.irq 533 else s
  | some n =>
    if s.dark then
      { s.bumpPci Fld.PCIC_DB_HELD_COUNT i with
        darkDb := mput s.darkDb (i * 768 + 256 * k + r) (fieldAt (b2n arm) 31 ||| fieldAt v 0) }
    else if s.frozen i then s.ledgerPut i k r v arm
    else s.applyDb k n v arm

/-- SQ_RQ_DOORBELL (R237). -/
def execSqRqDoorbell (inst : Fin 4096) (rq : Bool) (r : Fin 256) (value : BitVec 16) (s : State) : Out :=
  .next (s.doorbell inst (b2n rq) r value.toNat false)
/-- CQ_DOORBELL (R238). -/
def execCqDoorbell (inst : Fin 4096) (r : Fin 256) (value : BitVec 16) (arm : Bool) (s : State) : Out :=
  .next (s.doorbell inst 2 r value.toNat arm)

/-- What a read of a doorbell returns (R239); a ring that does not exist reads as zero. -/
def State.doorbellWord (s : State) (i k r : Nat) : Word :=
  match s.ringGlobal i k r with
  | none => 0
  | some n =>
    fieldAt (s.ringSt k n) 28 ||| fieldAt (s.fget (rCause k) n) 24 |||
      (if k = 2 then fieldAt (s.fget Fld.HQE_CQ_W2_HELD n) 16 ||| fieldAt (s.fget (rHi 2) n) 0 else fieldAt (s.fget (rLo k) n) 0)
/-- DOORBELL_READ (R239). In the dark period BAR reads return zero (R229). -/
def execDoorbellRead (inst : Fin 4096) (kind : Fin 3) (r : Fin 256) (s : State) : Out :=
  .next (s.emit (.barAnswer inst (some (if s.dark then 0 else s.doorbellWord inst kind r))))

/-! ### Elements and the map (R232 to R234, R252) -/

/-- Whether a write of word 0 with EN = 1 may enable a ring (R234, R299). -/
def State.mayEnable (s : State) (k n : Nat) (v : Word) : Bool :=
  match s.ringOwner k n with
  | none => false
  | some (i, _) =>
    let lg := bits v 55 52
    let nvme := s.fbit Fld.STO_CTRL_W0_NVME i
    let cq := bits v 15 0
    decide (6 ≤ lg) && decide (lg ≤ 15) && bit v 62 == nvme && !(k == 1 && nvme) &&
      (k == 2 || (s.ringSt 2 cq != 0 && (s.ringX 2 cq).inst == i)) &&
      (k != 1 || !(s.liveRings 1).any fun m => s.fget Fld.HQE_RQ_W0_TM_QUEUE m == bits v 49 32)

/-- Word 0 as it is stored: the reserved bits clear, and a FULL_TO of 0 stored as 10. -/
def ringWord0 (k : Nat) (v : Word) : Word :=
  let w := writeFields false (ringReg k 0) 0 v
  if k = 2 ∧ bits w 31 16 = 0 then w ||| fieldAt 10 16 else w

/-- A write of EN = 1 to a DISABLED ring (R234). -/
def State.ringEnable (s : State) (k n : Nat) (v : Word) : State :=
  if s.mayEnable k n v then
    let (i, l) := (s.ringOwner k n).getD (0, 0)
    let s := (s.wr (ringReg k 0) n (ringWord0 k v)).wr (ringReg k 2) n (fieldAt 1 60)
    { s.setRingX k n { RingX.init with inst := i, locN := l } with
      held := if k = 2 then mset [] s.held n [] else s.held,
      fullerT := if k = 2 then mset 0 s.fullerT n 0 else s.fullerT }
  else ((s.fset Fld.HQE_STATUS_ENABLE_REFUSED 0 1).fset Fld.HQE_STATUS_LAST_KIND 0 k).fset Fld.HQE_STATUS_LAST_RING 0 n

/-- A ring becomes DISABLED: nothing of it stays. -/
def State.ringOff (s : State) (k n : Nat) : State :=
  let s := (s.fset (rEn k) n 0).wr (ringReg k 2) n 0
  let s := s.dropReads fun r => match r.who with | .fetch k' n' _ => k' == k && n' == n | _ => false
  let s := { s.setRingX k n RingX.init with ucDoorbells := mset [] s.ucDoorbells (ringKey k n) [] }
  if k = 2 then (s.setHeld n []).setStalled n [] else s

/-- The completions of fetched jobs that were not started when their ring left ACTIVE: RQ buffers, and NVMe commands whose CapsuleCmd has
not been sent (Table 10-9, Table 13-8). An open chain of an SQ is no job. -/
def State.abortRecs (s : State) (k n : Nat) : List CplRec :=
  let x := s.ringX k n
  if k = 0 then
    if s.ringNvme 0 n then
      (s.stoCmds.filter fun c => c.2.n == n && !c.2.detached && c.2.stage != .sent).map fun c =>
        s.nvmeCpl n c.2.gen (bits (c.2.ent.words.getD 0 0) 31 16) (nvmeStatus 0 8 false) 0
    else []
  else x.chip.map fun e =>
    { kind := 1, n := n, inst := x.inst, gen := s.gen x.inst, status := 4, nbuf := 0, tag := bits (e.words.getD 0 0) 31 16,
      result := 0, ents := 1, nvme := none }

/-- The NVMe commands of an SQ that have not been sent leave the adapter, with their reads. -/
def State.dropUnsent (s : State) (n : Nat) : State :=
  let gone := (s.stoCmds.filter fun c => c.2.n == n && !c.2.detached && c.2.stage != .sent).map fun c => c.1
  { s.dropReads fun r => match r.who with | .storage c _ => gone.contains c | _ => false with
    stoCmds := s.stoCmds.filter fun c => !gone.contains c.1 }

/-- EN := 0 of an SQ or RQ: it drains (R252). -/
def State.ringDrain (s : State) (k n : Nat) : State :=
  if s.ringSt k n = 1 ∨ s.ringSt k n = 3 then
    let recs := s.abortRecs k n
    let s := (((s.fset (rState k) n 4).fset (rCause k) n 0).fset (rEn k) n 0).dropReads fun r =>
      match r.who with | .fetch k' n' _ => k' == k && n' == n | _ => false
    let s := s.setRingX k n { s.ringX k n with fetches := [], chip := [] }
    let s := if k = 0 then s.dropUnsent n else s
    recs.foldl (fun s c => s.postCpl c) s
  else s

/-- EN := 0 of a CQ (R233, R252). -/
def State.cqOff (s : State) (n : Nat) : State :=
  let named := [0, 1].any fun k => (s.liveRings k).any fun m => s.fget (rCq k) m == n
  if !named && (s.ringSt 2 n == 1 || s.ringSt 2 n == 3) then s.ringOff 2 n else s.bump Fld.HQEC_CFG_REFUSED_COUNT

/-- A write of one word of a ring element (R233, R234). -/
def State.ringWrite (s : State) (k n word : Nat) (v : Word) : State :=
  match word with
  | 0 =>
    if s.ringSt k n = 0 then
      if bit v 63 then s.ringEnable k n v else s.wr (ringReg k 0) n (ringWord0 k v)
    else if bit v 63 then s.bump Fld.HQEC_CFG_REFUSED_COUNT
    else if k = 2 then s.cqOff n else s.ringDrain k n
  | 1 =>
    if s.ringSt k n = 0 then s.wr (ringReg k 1) n (writeFields false (ringReg k 1) 0 v) else s.bump Fld.HQEC_CFG_REFUSED_COUNT
  | 3 => if k = 2 then (s.wr (ringReg 2 3) n (writeFields false (ringReg 2 3) 0 v)).fuller n else s
  | _ => s

/-- RING_ENABLE (R234): word 0 written with EN = 1. -/
def execRingEnable (kind : Fin 3) (n : Fin 65536) (value : Word) (s : State) : Out :=
  .next (s.ringWrite kind n 0 (value ||| fieldAt 1 63))
/-- RING_DISABLE (R233): word 0 written with EN = 0. -/
def execRingDisable (kind : Fin 3) (n : Fin 65536) (s : State) : Out :=
  .next (s.ringWrite kind n 0 (s.rd (ringReg kind 0) n &&& ~~~(fieldAt 1 63)))
/-- RING_ELEMENT_WRITE (R233). -/
def execRingElementWrite (kind : Fin 3) (n : Fin 65536) (word : Fin 4) (value : Word) (s : State) : Out :=
  .next (s.ringWrite kind n word value)

/-- RING_DRAIN_COMPLETE (R252): the last started job of a DRAINING ring has completed. -/
def execRingDrainComplete (rq : Bool) (n : Fin 65536) (s : State) : Out :=
  let k := b2n rq
  .next (if s.ringSt k n = 4 ∧ s.onChip k n = 0 then s.ringOff k n else s)

/-- A write of HQE_INST_RINGS (R232). -/
def State.ringMapWrite (s : State) (i k : Nat) (v : Word) : State :=
  let x := ix2 3 i k
  let base := Fld.HQE_INST_RINGS_BASE.of v
  let cnt := min 256 (Fld.HQE_INST_RINGS_COUNT.of v)
  let (ob, oc) := s.ringBlock i k
  let overlap := ((s.listed Reg.HQE_INST_RINGS).filter fun y => y % 3 == k && y / 3 != i).any fun y =>
    let (b, c) := s.ringBlock (y / 3) k
    decide (0 < c) && decide (0 < cnt) && decide (b < base + cnt) && decide (base < b + c)
  let busy := (s.liveRings k).any fun n => decide (ob ≤ n) && decide (n < ob + oc)
  if 65536 < base + cnt ∨ overlap ∨ (busy ∧ (base, cnt) ≠ (ob, oc)) then s.fset Fld.HQE_STATUS_MAP_REFUSED 0 1
  else s.wr Reg.HQE_INST_RINGS x (writeFields false Reg.HQE_INST_RINGS 0 v)
/-- RING_MAP_WRITE (R232). -/
def execRingMapWrite (inst : Fin 4096) (kind : Fin 3) (value : Word) (s : State) : Out := .next (s.ringMapWrite inst kind value)

end Sys2Proof.Machine
end

