-- ==== Sys2Proof/Machine/Jobs.lean ====
section
/-! DEFINITION. Descriptors and jobs: fetched entries and their checks, chains, transmit jobs and their departure, and receive jobs
(R106, R241 to R245, R306, Tables 10-5, 10-6, 10-9). -/

namespace Sys2Proof.Machine

/-! ### Transmit jobs (R243, R244) -/

/-- The fields of the FIRST entry of a job. -/
def TxJob.first (j : TxJob) : Word := ((j.ents.head?.map fun e => e.words.getD 0 0).getD 0)
def TxJob.tsReq (j : TxJob) : Bool := bit j.first 56

/-- The completion of a transmit job. -/
def State.txCpl (s : State) (j : TxJob) (status : Nat) (result : Word) : State :=
  s.postCpl { kind := 0, n := j.n, inst := j.inst, gen := j.gen, status := status, nbuf := j.ents.length, tag := bits j.first 31 16,
              result := result, ents := j.ents.length, nvme := none }

/-- A job starts: a no-op and a frame whose length is outside 14 to 16,379 complete at once; otherwise its buffers are read. -/
def State.startJob (s : State) (n : Nat) (ents : List RingEntry) : State :=
  let x := s.ringX 0 n
  let j : TxJob := ⟨n, x.inst, s.gen x.inst, ents, false⟩
  let lens := ents.map fun e => bits (e.words.getD 0 0) 15 0
  if bits j.first 60 58 = 1 then s.txCpl j 0 0
  else if lens.sum < 14 ∨ 16379 < lens.sum then s.txCpl j 2 0
  else
    let job := s.txCount
    let s := { s with txCount := s.txCount + 1, txJobs := mput s.txJobs job j }
    (ents.zipIdx).foldl (fun s (e : RingEntry × Nat) =>
      s.hostRead (.payload job e.2) x.inst (e.1.words.getD 1 0).toNat (bits (e.1.words.getD 0 0) 15 0) (s.fbit (rAts 0) n)) s

/-! ### Fetched entries (R241 to R243, R306) -/

/-- What the check of an entry finds: nothing, or the cause of the ring's error. `open_` is the length of the open chain of an SQ. -/
def entryCheck (k lg idx open_ : Nat) (ws : List Word) : Nat :=
  let w := ws.getD 0 0
  let tail := (ws.drop 2).any fun v => v != 0
  if b2n (bit w 63) ≠ phaseOf lg idx then 4
  else if k = 0 then
    let len := bits w 15 0
    if 1 < bits w 60 58 ∨ bits w 35 32 ≠ 0 ∨ tail ∨ len = 0 ∨ 16379 < len then 6
    else if bit w 62 != (open_ == 0) then 5
    else if 33 ≤ open_ + 1 ∧ !bit w 61 then 5
    else 0
  else if bits w 62 32 ≠ 0 ∨ tail ∨ bits w 15 0 < 256 then 6
  else 0

/-- The words of entry `i` of fetched data. -/
def entryWords (esz i : Nat) (bs : List Byte) : List Word :=
  (List.range (esz / 8)).map fun k => BitVec.ofNat 64 (leNat ((bs.drop (i * esz + 8 * k)).take 8))

/-- An NVMe submission entry is fetched: its opcode is checked, and the command keeps the values of its namespace element (R306, R307).
An entry of another opcode completes at once. -/
def State.nvmeFetched (s : State) (n idx : Nat) (ws : List Word) : State :=
  let x := s.ringX 0 n
  let w0 := ws.getD 0 0
  if [0, 1, 2, 8, 9].contains (bits w0 7 0) then
    let el := 16 * x.inst + (bits w0 63 32 - 1) % 16
    let ns := [s.rd Reg.STO_NS_W0 el, s.rd Reg.STO_NS_W1 el, s.rd Reg.STO_NS_W2 el, s.rd Reg.STO_NS_W3 el]
    let conn := (bits (ns.getD 1 0) 61 48 + x.locN % 2 ^ min 6 (bits (ns.getD 0 0) 59 57)) % 16384
    let c : StoCmd := { n := n, inst := x.inst, gen := s.gen x.inst, ent := ⟨idx, ws⟩, ns := ns, conn := conn, slot := none, pages := [],
                        prps := [], list := none, data := [], digestBad := false, dataBad := false, waited := false, stage := .fetched, detached := false }
    { s with stoCount := s.stoCount + 1, stoCmds := mput s.stoCmds s.stoCount c }
  else s.postCpl (s.nvmeCpl n (s.gen x.inst) (bits w0 31 16) (nvmeStatus 0 1 true) 0)

/-- How many of some entries pass their checks, from index `idx` on, and the cause the next one raises (0 for none). -/
def checkEntries (k lg : Nat) : Nat → Nat → List (List Word) → Nat × Nat
  | _, _, [] => (0, 0)
  | idx, open_, ws :: rest =>
    let e := entryCheck k lg idx open_ ws
    if e ≠ 0 then (0, e)
    else
      let (n, e) := checkEntries k lg (idx + 1) (if bit (ws.getD 0 0) 61 then 0 else open_ + 1) rest
      (n + 1, e)

/-- An entry that has passed its checks is taken: it joins the chip, and the LAST entry of an SQ starts its job. -/
def State.takeEntry1 (s : State) (k n idx : Nat) (ws : List Word) : State :=
  if k = 0 ∧ s.ringNvme 0 n then s.nvmeFetched n idx ws
  else
    let x := s.ringX k n
    let chip := x.chip ++ [⟨idx, ws⟩]
    if k = 0 ∧ bit (ws.getD 0 0) 61 then (s.setRingX k n { x with chip := [] }).startJob n chip
    else s.setRingX k n { x with chip := chip }

/-- Fetched entries are taken in index order: C moves past those that pass their checks, which are processed; at the first that does not
the ring enters ERROR. -/
def State.takeEntries (s : State) (k n : Nat) (ents : List (List Word)) : State :=
  let idx := s.fget (rLo k) n
  let (good, err) := if k = 0 ∧ s.ringNvme 0 n then (ents.length, 0)
    else checkEntries k (s.fget (rLog k) n) idx (s.ringX k n).chip.length ents
  let s := (ents.take good).zipIdx.foldl (fun s (e : List Word × Nat) => s.takeEntry1 k n ((idx + e.2) % 65536) e.1)
    (s.fset (rLo k) n (idx + good))
  if err = 0 then s else s.ringError k n err

/-- DESCRIPTOR_DATA (R241, R242): the oldest fetch of a ring has ended. -/
def execDescriptorData (rq : Bool) (n : Fin 65536) (s : State) : Out :=
  let k := b2n rq
  let x := s.ringX k n
  match x.fetches with
  | [] => .next s
  | (first, cnt) :: rest =>
    match s.takeRead (.fetch k n first) with
    | none => .next s
    | some (res, s) =>
      let s := s.setRingX k n { x with fetches := rest }
      .next (match res with
        | .ok bs => (s.takeEntries k n ((List.range cnt).map fun i => entryWords (s.entrySize k n) i bs)).fetch k n
        | .fail => s.ringError k n 2
        | .poison => s.ringError k n 3
        | .refused => s.ringError k n 9)

/-! ### The frame of a transmit job (R106, R244) -/

/-- A frame with a flow handle: its slot where the handle may be used, and whether it is stale (R106). A TO_THREAD entry whose key has a
pending entry is counted as stale (DESIGN CHOICE, log entry 75). -/
def State.flowHandle (s : State) (inst fh : Nat) : Option Nat × Bool :=
  let c := s.slot fh
  let key := s.slotKey fh
  if s.isCont fh || !fcValid c.w0 || keyInst key != inst || s.keyPending key then (none, true)
  else if fcToThread c.w0 then (none, false)
  else (some fh, false)

/-- Whether a frame of the same ring that entered earlier may still be classified under a key: a frame with a usable flow handle goes
behind it (R13; DESIGN CHOICE, log entry 75). -/
def State.ringAhead (s : State) (j : TxJob) (key : List Byte) : Bool :=
  s.frames.any fun c => decide (36 ≤ c.2.src) && c.2.tx.isSome && c.2.ring == j.n &&
    (match c.2.stage with | .parse _ | .classify _ => true | .ddr => c.2.key == key | _ => false)

/-- Whether a job's frame must wait for an earlier frame of its ring. -/
def State.handleWaits (s : State) (j : TxJob) : Bool :=
  bit j.first 57 && (match s.flowHandle j.inst (bits j.first 55 36) with | (some i, _) => s.ringAhead j (s.slotKey i) | _ => false)

/-- The frame of a job enters: by its flow handle straight to the action engine, or to the parser. No parser ran on a frame with a usable
handle, so all its layer slots are absent and a SET, TTL, NAT or CSUM at a layer is LIST_ERR (DESIGN CHOICE, log entry 75). A host
frame counts as entering at 1.6 Tb/s (R113). -/
def State.txFrame (s : State) (job : Nat) (j : TxJob) (bytes : List Byte) : State :=
  let src := 36 + ctlOf j.inst
  let f : Frame := { Frame.fresh bytes src j.inst j.gen (s.fget Fld.PAR_SRC_CFG_START src) with
    ring := j.n, ts := s.time, job := if j.tsReq then some job else none, tx := some job }
  let gone (s : State) : State := if j.tsReq then { s with txGone := s.txGone ++ [(job, none)] } else s
  let parse (s : State) : State :=
    if 64 ≤ s.srcQueue src then gone (s.bump Fld.PARC_OVERRUN_COUNT src) else (s.newFrame f).2
  if !s.ingRoom f.lenFcs then gone (s.bump Fld.TMC_ING_FULL_COUNT)
  else if bit j.first 57 then
    match s.flowHandle j.inst (bits j.first 55 36) with
    | (none, stale) => parse (if stale then s.bump Fld.PARC_FH_STALE_COUNT src else s)
    | (some i, _) =>
      let key := s.slotKey i
      let p := keyProfile key
      let f := { f with profile := p, key := key, hash := s.flowHash p key,
                        hv := metadata f { off := 0, hv := hvBlank, chk := 0 } none p }
      let (h, s) := (s.fcHit i).newFrame f
      s.toAction h f (some (fcList (s.slot i).w0)) []
  else parse s

/-- The result of a job's payload reads, all taken: none while one is still out. -/
def State.payload (s : State) (job : Nat) : Nat → Option (List ReadRes × State)
  | 0 => some ([], s)
  | k + 1 =>
    match s.payload job k with
    | none => none
    | some (rs, s) => (s.takeRead (.payload job k)).map fun (r, s) => (rs ++ [r], s)

/-- A frame of the host is ended for its payload: a job that is still open completes with TX_PAYLOAD_ERR (R244). -/
def State.txPoison (s : State) (f : Frame) : State :=
  match f.tx.bind fun job => (mfind s.txJobs job).map fun j => (job, j) with
  | some (job, j) =>
    ({ s with txJobs := merase s.txJobs job, txGone := s.txGone.filter fun g => g.1 != job }.txCpl j 1 0).fetch 0 j.n
  | none => s

/-- TX_PAYLOAD_DONE (R244): the last payload byte of a job has been read. Its frame enters then; a payload read that fails after the
frame has entered is LATE_CHECK_FAIL's (DESIGN CHOICE, log entry 76). -/
def execTxPayloadDone (job : Nat) (s : State) : Out :=
  match mfind s.txJobs job with
  | none => .next s
  | some j =>
    if j.handed || s.handleWaits j then .next s
    else match s.payload job j.ents.length with
      | none => .next s
      | some (rs, s) =>
        let done (s : State) : State := { s with txJobs := merase s.txJobs job }
        let s := if rs.contains .refused then s.ringError 0 j.n 9 else s
        .next (if rs.all fun r => match r with | .ok _ => true | _ => false then
            let bytes := (rs.map fun r => match r with | .ok bs => bs | _ => []).flatten
            if j.tsReq then { s with txJobs := mput s.txJobs job { j with handed := true } }.txFrame job j bytes
            else (((done s).txCpl j 0 0).fetch 0 j.n).txFrame job j bytes
          else ((done s).txCpl j 1 0).fetch 0 j.n)

/-- TX_DEPARTURE (R244): the frame of a TS_REQ job has left, or has been dropped. -/
def execTxDeparture (job : Nat) (s : State) : Out :=
  match s.txGone.find? fun g => g.1 == job, mfind s.txJobs job with
  | some (_, stamp), some j =>
    let s := { s with txGone := s.txGone.filter (fun g => g.1 != job), txJobs := merase s.txJobs job }
    .next ((match stamp with | some t => s.txCpl j 0 t | none => s.txCpl j 3 0).fetch 0 j.n)
  | some _, none => .next { s with txGone := s.txGone.filter fun g => g.1 != job }
  | none, _ => .next s

/-! ### Receive jobs (R245) -/

/-- The buffers a frame takes, in index order: each with the bytes that go into it; and the bytes left over. -/
def fillBuffers : List RingEntry → List Byte → List (RingEntry × List Byte) × List Byte
  | [], bs => ([], bs)
  | e :: es, bs =>
    if bs.isEmpty then ([], [])
    else
      let n := bits (e.words.getD 0 0) 15 0
      let (l, r) := fillBuffers es (bs.drop n)
      ((e, bs.take n) :: l, r)

/-- A frame is written into the buffers it has taken, and its completion becomes ready. -/
def State.deliver (s : State) (n : Nat) (f : Frame) (bufs : List (RingEntry × List Byte)) (short : Bool) : State :=
  let x := s.ringX 1 n
  let len := (bufs.map fun b => b.2.length).sum
  let wr (a : State × Bool) (b : RingEntry × List Byte) : State × Bool :=
    let (t, r) := a.1.hostWrite x.inst (a.1.gen x.inst) (b.1.words.getD 1 0).toNat b.2 (a.1.fbit (rAts 1) n)
      (a.1.fbit Fld.HQE_RQ_W0_RO_EN n) (f.late == 0x12) (.ring 1 n)
      (.job n (bufs.map fun b => b.1))
    (t, a.2 || r)
  let (s, refused) := bufs.foldl wr (s.setRingX 1 n { x with chip := x.chip.drop bufs.length }, false)
  let info := if s.fbit Fld.HQE_RQ_W0_COMP_META n then f.ts % 2 ^ 48 else bits f.hash 47 0
  let c : CplRec :=
    { kind := 1, n := n, inst := x.inst, gen := s.gen x.inst, nbuf := bufs.length, ents := bufs.length, nvme := none,
      status := if f.late ≠ 0 then f.late else if short then 0x14 else 0,
      tag := ((bufs.head?.map fun b => bits (b.1.words.getD 0 0) 31 16).getD 0), result := fieldAt len 50 ||| fieldAt info 0 }
  let s := s.postCpl c
  let s := if refused then s.ringError 1 n 9 else s
  s.fetch 1 n

/-- RX_FRAME (R245, R282): a frame that the TM has handed to a host controller, the first of its queue, is written. It waits while its ring
has buffers posted that have not been fetched, or takes no buffers (R248). The writes of an orphaned frame are suppressed, and it takes no
buffer. -/
def execRxFrame (h : Nat) (s : State) : Out :=
  match s.frame? h with
  | none => .next s
  | some f =>
    match f.stage with
    | .host q =>
      let ahead := s.hostOut.takeWhile fun g => g != h
      if !s.hostOut.contains h || ahead.any fun g => (match s.frame? g with | some x => x.stage == .host q | none => false) then .next s
      else if s.frameOrphan f then .next ((s.hostDeparts f).freeFrame h)
      else match s.rqOf q with
        | none => .next ((s.hostDeparts f).freeFrame h)
        | some n =>
          let x := s.ringX 1 n
          let st := s.ringSt 1 n
          let stall := (s.stalledOf (s.fget (rCq 1) n)).any fun c => c.kind == 1 && c.n == n
          let (bufs, rest) := fillBuffers x.chip f.bytes
          if stall || st == 5 then .next s
          else if !rest.isEmpty && st == 1 && s.ringOcc 1 n != 0 then .next s
          else
            let t := (s.hostDeparts f).freeFrame h
            .next (if bufs.isEmpty || !t.usable x.inst || st != 1 then t else t.deliver n f bufs (!rest.isEmpty))
    | _ => .next s

end Sys2Proof.Machine
end

