-- ==== Sys2Proof/Machine/StoBase.lean ====
section
/-! DEFINITION. NVMe I/O commands: their fields and checks, PRPs, staging and slots, and the PDUs that carry them to a target
(R305 to R308, R314 to R318, Tables 13-3, 13-8). -/

namespace Sys2Proof.Machine

/-! ### Commands -/

/-- The fields of a submission entry. -/
def StoCmd.w (c : StoCmd) (k : Nat) : Word := c.ent.words.getD k 0
def StoCmd.op (c : StoCmd) : Nat := bits (c.w 0) 7 0
def StoCmd.cid (c : StoCmd) : Nat := bits (c.w 0) 31 16
def StoCmd.nsid (c : StoCmd) : Nat := bits (c.w 0) 63 32
def StoCmd.slba (c : StoCmd) : Nat := (c.w 5).toNat
def StoCmd.blocks (c : StoCmd) : Nat := bits (c.w 6) 15 0 + 1
/-- The fields of the namespace element the command took (Table 13-3). -/
def StoCmd.nsBit (c : StoCmd) (k : Nat) : Bool := bit (c.ns.getD 0 0) k
def StoCmd.blk (c : StoCmd) : Nat := if c.nsBit 60 then 4096 else 512
def StoCmd.baseLba (c : StoCmd) : Nat := (c.ns.getD 2 0).toNat
def StoCmd.xtsCtx (c : StoCmd) : Nat := bits (c.ns.getD 0 0) 47 32
/-- Whether a Read or Write passes through XTS. -/
def StoCmd.xts (c : StoCmd) : Bool := c.nsBit 61 && (c.op == 1 || c.op == 2)
/-- The bytes of guest memory the command moves: the data of a Write or Read, the ranges of a Dataset Management. -/
def StoCmd.len (c : StoCmd) : Nat :=
  if c.op = 1 ∨ c.op = 2 then c.blocks * c.blk else if c.op = 9 then 16 * (bits (c.w 5) 7 0 + 1) else 0
/-- Whether its data are staged: a Write's, and the ranges of a Dataset Management (log entry 44). -/
def StoCmd.stages (c : StoCmd) : Bool := c.op == 1 || c.op == 9

/-- A reserved field of the entry is not zero (NVMe base and NVM command set 2.0; PRESUMED, log entry 41). -/
def StoCmd.reserved (c : StoCmd) : Bool :=
  bits (c.w 0) 13 10 != 0 || c.w 1 != 0 ||
    (match c.op with
     | 0 => c.w 5 != 0 || c.w 6 != 0 || c.w 7 != 0
     | 1 => bit (c.w 6) 25 || bits (c.w 6) 19 16 != 0 || bits (c.w 6) 47 40 != 0
     | 2 => bit (c.w 6) 25 || bits (c.w 6) 23 16 != 0 || bits (c.w 6) 63 40 != 0
     | 8 => bits (c.w 6) 23 16 != 0 || bits (c.w 6) 63 32 != 0
     | _ => bits (c.w 5) 31 8 != 0 || bits (c.w 5) 63 35 != 0 || c.w 6 != 0 || c.w 7 != 0)

/-- The first PRP's bytes up to the end of its page, and whether an offset of the PRPs is invalid. -/
def StoCmd.prp1Len (c : StoCmd) : Nat := min c.len (4096 - (c.w 3).toNat % 4096)
def StoCmd.prpBad (c : StoCmd) : Bool :=
  let rest := c.len - c.prp1Len
  c.len != 0 && ((c.w 3).toNat % 4 != 0 || (rest != 0 && (c.w 4).toNat % (if rest ≤ 4096 then 4096 else 8) != 0))

/-- The data unit of a key context, in bytes. -/
def State.dataUnit (s : State) (ctx : Nat) : Nat := if s.fbit Fld.CIP_CTX_W0_DU ctx then 4096 else 512

/-- The checks of Table 13-8 at the fetch, in its order: SCT, SC and DNR of the first that fails. -/
def State.nvmeCheck (s : State) (c : StoCmd) : Option (Nat × Nat × Bool) :=
  let x := c.xtsCtx
  if c.nsBit 61 && (c.op == 8 || c.op == 9) then some (0, 0x01, true)
  else if bits (c.w 0) 9 8 != 0 || bits (c.w 0) 15 14 != 0 || decide (1048576 < c.len) || c.reserved then some (0, 0x02, true)
  else if c.prpBad then some (0, 0x13, true)
  else if c.nsid == 0 || decide (16 < c.nsid) || !c.nsBit 63 then some (0, 0x0B, true)
  else if c.op ≠ 0 ∧ c.op ≠ 9 ∧ bits (c.ns.getD 1 0) 47 0 < c.slba + c.blocks then some (0, 0x80, true)
  else if c.nsBit 62 && (c.op == 1 || c.op == 8 || c.op == 9) then some (0, 0x20, true)
  else if c.xts then
    if s.noCipher || s.ctxAlg x != 3 || s.ctxUse x != 2 || s.fget Fld.CIP_CTX_W0_INSTANCE x != c.inst || decide (c.blk < s.dataUnit x) then
      some (0, 0x06, true)
    else if s.ctxState x = 0 ∨ s.ctxState x = 3 then some (0, 0x82, false)
    else none
  else none

/-- A refused use of an XTS context is counted: with status Namespace Not Ready one of an EMPTY or ERASING context (R177), with Internal
Error one while the engine is KEYLESS or before READY (R183, R184). -/
def State.xtsCounted (s : State) (sc : Nat) : State :=
  if sc = 0x82 then s.bump Fld.CIPC_CTX_EMPTY_DROP_COUNT
  else if sc = 0x06 ∧ s.noCipher then s.bump Fld.CIPC_KEYLESS_DROP_COUNT else s

/-- An XTS operation on a command's context: the state after it, or its refusal, counted, with SC and DNR (Table 13-8, R183, R184). -/
def State.xtsUse (s : State) (ctx : Nat) : State × Option (Nat × Bool) :=
  if s.noCipher then (s.bump Fld.CIPC_KEYLESS_DROP_COUNT, some (0x06, true))
  else match s.invoke ctx false with
    | (.number _, s) => (s, none)
    | (_, s) => (s, some (0x82, false))

/-! ### The commands the adapter holds -/

def State.setCmd (s : State) (id : Nat) (c : StoCmd) : State := { s with stoCmds := mput s.stoCmds id c }
/-- The commands a connection holds: checked, and not finished. -/
def State.connCmds (s : State) (k : Nat) : List (Nat × StoCmd) := s.stoCmds.filter fun c => c.2.conn == k && c.2.stage != .fetched
/-- The commands that CMDS counts: those that have a slot (R309, R314). -/
def State.slotCmds (s : State) (k : Nat) : List (Nat × StoCmd) := (s.connCmds k).filter fun c => c.2.stage != .waiting
/-- STAGED of a connection. -/
def State.staged (s : State) (k : Nat) : Nat := ((s.connCmds k).map fun c => if c.2.pages.isEmpty then 0 else c.2.len).sum

def State.connSt (s : State) (k : Nat) : Nat := s.fget Fld.STO_CONN_W0_STATE k
def State.connX (s : State) (k : Nat) : ConnX := mget ConnX.init s.connx k
def State.setConnX (s : State) (k : Nat) (x : ConnX) : State := { s with connx := mset ConnX.init s.connx k x }

/-- A command leaves the adapter with a status: its slot, its pages and its reads go with it, and an attached one completes. -/
def State.endCmd (s : State) (id : Nat) (c : StoCmd) (status dw0 : Nat) : State :=
  let s := { s.dropReads fun r => match r.who with | .storage k _ => k == id | _ => false with stoCmds := merase s.stoCmds id }
  if c.detached then s else (s.postCpl (s.nvmeCpl c.n c.gen c.cid status dw0)).fetch 0 c.n

/-! ### Staging (R315) -/

/-- The pages of the pool that no command holds. -/
def State.stageFree (s : State) : List Nat :=
  let lg := s.fget Fld.STO_CFG_STAGE_LOG2 0
  let held := (s.stoCmds.map fun c => c.2.pages).flatten
  if 10 ≤ lg ∧ lg ≤ 20 then (List.range (2 ^ lg)).filter fun p => !held.contains p else []

/-- Some pages are taken; which ones the spec does not say (log entry 26). -/
def takePages : Nat → State → List Nat → List Nat × State
  | 0, s, _ => ([], s)
  | k + 1, s, free =>
    match s.pick free with
    | none => ([], s)
    | some (p, s) =>
      let (ps, s) := takePages k s (free.erase p)
      (p :: ps, s)

/-- The DPA of a staging page. -/
def State.stageAddr (s : State) (p : Nat) : Nat := s.fget Fld.STO_CFG_STAGE_BASE 0 * 2 ^ 30 + 4096 * p

/-- Data are written to staging pages. -/
def State.stagePut (s : State) : List Nat → List Byte → State
  | [], _ => s
  | p :: ps, bs => (s.memStore (s.stageAddr p) (bs.take 4096)).stagePut ps (bs.drop 4096)

/-- Staged bytes: none where they are uncorrectable. -/
def State.stageGet (s : State) (c : StoCmd) (off n : Nat) : Option (List Byte) × State :=
  (pieces 4096 (n + 1) off n).foldl (fun (a : Option (List Byte) × State) p =>
    let (bs, s) := a.2.ddrRead (a.2.stageAddr (c.pages.getD (p.1 / 4096) 0) + p.1 % 4096) p.2
    ((a.1.bind fun x => bs.map fun b => x ++ b), s)) (some [], s)

/-! ### PDUs (R314 to R316; formats of NVMe/TCP 1.0, PRESUMED, log entry 42) -/

/-- A PDU: its type and flags, the header after the common header, and its data, with the digests a connection uses. -/
def pdu (hd dd : Bool) (type flags : Nat) (hdr data : List Byte) : List Byte :=
  let hlen := 8 + hdr.length
  let hdl := if hd then 4 else 0
  let ddl := if dd && !data.isEmpty then 4 else 0
  let h := natLE 1 type ++ natLE 1 (flags + b2n hd + 2 * b2n (ddl != 0)) ++ natLE 1 hlen ++ natLE 1 (if data.isEmpty then 0 else hlen + hdl) ++
    natLE 4 (hlen + hdl + data.length + ddl) ++ hdr
  h ++ (if hd then natLE 4 (crc32c h) else []) ++ data ++ (if ddl = 0 then [] else natLE 4 (crc32c data))

/-- A PDU with the digests of a connection. -/
def State.connPdu (s : State) (k : Nat) (type flags : Nat) (hdr data : List Byte) : List Byte :=
  pdu (s.fbit Fld.STO_CONN_W0_HDGST k) (s.fbit Fld.STO_CONN_W0_DDGST k) type flags hdr data

/-- A PDU joins the send stream of a connection. -/
def State.sendPdu (s : State) (k : Nat) (bytes : List Byte) (part : Option StagePart) : State :=
  let x := s.connX k
  s.setConnX k { x with snd := x.snd ++ [⟨bytes, part⟩] }

/-- The H2CData PDU of a staged range (R315). -/
def State.h2cPdu (s : State) (k : Nat) (p : StagePart) (data : List Byte) : List Byte :=
  s.connPdu k 6 (if p.last then 4 else 0) (natLE 2 p.slot ++ natLE 2 p.ttag ++ natLE 4 p.off ++ natLE 4 data.length ++ natLE 4 0) data

/-- The submission entry that goes to the target: the slot as CID, the target's NSID and LBA, and a Transport SGL Data Block. -/
def StoCmd.capsule (c : StoCmd) : List Byte :=
  let dw0 : Word := fieldAt c.op 0 ||| fieldAt 1 14 ||| fieldAt (c.slot.getD 0) 16
  let w5 : Word := if c.op = 0 ∨ c.op = 9 then c.w 5 else BitVec.ofNat 64 (c.slba + c.baseLba)
  wordBytesLE (dw0 ||| fieldAt (bits (c.ns.getD 0 0) 31 0) 32) ++ wordBytesLE (c.w 1) ++ natLE 8 0 ++
    (natLE 8 0 ++ natLE 4 c.len ++ natLE 3 0 ++ natLE 1 0x5A) ++ wordBytesLE w5 ++ wordBytesLE (c.w 6) ++ wordBytesLE (c.w 7)

/-- A command goes out whole, from its CapsuleCmd (R314, R317). -/
def State.issueCmd (s : State) (id : Nat) (c : StoCmd) : State :=
  (s.setCmd id { c with stage := .sent, data := [], digestBad := false, dataBad := false }).sendPdu c.conn
    (s.connPdu c.conn 4 0 c.capsule []) none

/-- A command that has not started is issued, if its connection is LIVE and its ring still starts jobs (Table 10-11). -/
def State.sendCmd (s : State) (id : Nat) (c : StoCmd) : State :=
  if s.connSt c.conn = 2 ∧ s.ringSt 0 c.n = 1 then s.issueCmd id c else s.setCmd id { c with stage := .staged }

/-! ### PRPs -/

/-- The read of the next piece of a PRP list: as many entries as are needed, up to the end of its page. -/
def State.readList (s : State) (id : Nat) (c : StoCmd) (addr rest : Nat) : State :=
  let n := min ((rest + 4095) / 4096) ((4096 - addr % 4096) / 8)
  (s.setCmd id { c with stage := .prpList, list := some (addr, rest) }).hostRead (.storage id 0) c.inst addr (8 * n) (s.fbit (rAts 0) c.n)

/-- A command whose PRPs are known goes on: one with data to stage reads them, the others are sent. -/
def State.prpsKnown (s : State) (id : Nat) (c : StoCmd) : State :=
  if c.stages then
    c.prps.zipIdx.foldl (fun s (p : (Nat × Nat) × Nat) =>
      s.hostRead (.storage id p.2) c.inst p.1.1 p.1.2 (s.fbit (rAts 0) c.n)) (s.setCmd id { c with stage := .reading, list := none })
  else s.sendCmd id { c with list := none }

/-- A command that holds its slot and staging finds its PRPs. -/
def State.startCmd (s : State) (id : Nat) (c : StoCmd) : State :=
  let n1 := c.prp1Len
  let rest := c.len - n1
  let p2 := (c.w 4).toNat
  if c.len = 0 then s.prpsKnown id c
  else if rest = 0 then s.prpsKnown id { c with prps := [((c.w 3).toNat, n1)] }
  else if rest ≤ 4096 then s.prpsKnown id { c with prps := [((c.w 3).toNat, n1), (p2, rest)] }
  else s.readList id { c with prps := [((c.w 3).toNat, n1)] } p2 rest

/-- The entries of a PRP list that have been read: the pieces they name, and none where one has an offset. -/
def listPieces : Nat → List Nat → Option (List (Nat × Nat))
  | _, [] => some []
  | rest, a :: as => if a % 4096 ≠ 0 then none else (listPieces (rest - 4096) as).map fun ps => (a, min 4096 rest) :: ps

/-- A piece of a PRP list has arrived; none where an entry is not valid. -/
def State.listRead (s : State) (id : Nat) (c : StoCmd) (addr rest : Nat) (bs : List Byte) : Option State :=
  let ents := (List.range (bs.length / 8)).map fun i => leNat ((bs.drop (8 * i)).take 8)
  let more := decide ((4096 - addr % 4096) / 8 < (rest + 4095) / 4096)
  match listPieces rest (if more then ents.dropLast else ents) with
  | none => none
  | some ps =>
    let c := { c with prps := c.prps ++ ps }
    if more then
      let next := ents.getLast?.getD 0
      if next % 8 ≠ 0 then none else some (s.readList id c next (rest - (ps.map fun p => p.2).sum))
    else some (s.prpsKnown id c)

/-! ### Slots (R314, R315) -/

/-- The slots of a connection that no command holds. -/
def State.slotsFree (s : State) (k : Nat) : List Nat :=
  let held := (s.connCmds k).filterMap fun c => c.2.slot
  (List.range (s.fget Fld.STO_CONN_W1_QDEPTHM1 k + 1)).filter fun t => !held.contains t

/-- What a command at the head of its connection's order does: it goes on with its slot and pages, or waits. -/
def State.admitCmd (s : State) (id : Nat) (c : StoCmd) : Option State × State :=
  match s.pick (s.slotsFree c.conn) with
  | none => (none, s)
  | some (slot, t) =>
    if c.stages then
      let need := (c.len + 4095) / 4096
      let free := s.stageFree
      if free.length < need ∨ s.fget Fld.STO_CONN_W7_STAGE_CAP c.conn < s.staged c.conn + c.len then
        (none, if c.waited then s else (s.setCmd id { c with waited := true }).bump Fld.STOC_STAGE_WAIT_COUNT)
      else
        let (ps, t) := takePages need t free
        (some (t.startCmd id { c with slot := some slot, pages := ps }), s)
    else (some (t.startCmd id { c with slot := some slot }), s)

/-- The commands of a LIVE connection go on, in order: those that are ready are sent, and those that wait take slots. -/
def State.pumpConn (s : State) (k : Nat) : Nat → State
  | 0 => s
  | fuel + 1 =>
    if s.connSt k ≠ 2 then s
    else
      let live := (s.connCmds k).filter fun c => s.ringSt 0 c.2.n == 1 && !c.2.detached
      match live.find? fun c => c.2.stage == .staged with
      | some (id, c) => (s.sendCmd id c).pumpConn k fuel
      | none =>
        match live.find? fun c => c.2.stage == .waiting with
        | none => s
        | some (id, c) =>
          match s.admitCmd id c with
          | (some t, _) => t.pumpConn k fuel
          | (none, t) => t
def State.connGo (s : State) (k : Nat) : State := s.pumpConn k (2 * (s.connCmds k).length + 1)

/-- Every connection with commands that wait goes on, the one with the oldest first: what one command gives up, a slot or pages of the pool,
another may take (R314, R315; DESIGN CHOICE, log entry 77: the order of the connections). -/
def State.storageGo (s : State) : State :=
  let ks := (s.stoCmds.filter fun c => c.2.stage == .waiting || c.2.stage == .staged).map fun c => c.2.conn
  ks.eraseDups.foldl (fun s k => s.connGo k) s

/-- A command ends, and those that wait go on. -/
def State.finishCmd (s : State) (id : Nat) (c : StoCmd) (status dw0 : Nat) : State := (s.endCmd id c status dw0).storageGo

/-! ### The rows of the commands (R306) -/

/-- The oldest fetched command of an SQ, if it has an opcode: it is checked, and completes at once or joins its connection's order. -/
def State.takeCmd (s : State) (n op : Nat) : State :=
  match s.stoCmds.find? fun c => c.2.n == n && c.2.stage == .fetched && !c.2.detached with
  | none => s
  | some (id, c) =>
    if c.op ≠ op ∨ s.ringSt 0 n ≠ 1 then s
    else match s.nvmeCheck c with
      | some (sct, sc, dnr) => (s.xtsCounted sc).endCmd id c (nvmeStatus sct sc dnr) 0
      | none => (s.setCmd id { c with stage := .waiting }).connGo c.conn

/-- NVME_FLUSH (R306). -/
def execNvmeFlush (n : Fin 65536) (s : State) : Out := .next (s.takeCmd n 0)
/-- NVME_WRITE (R306, R315). -/
def execNvmeWrite (n : Fin 65536) (s : State) : Out := .next (s.takeCmd n 1)
/-- NVME_READ (R306, R314). -/
def execNvmeRead (n : Fin 65536) (s : State) : Out := .next (s.takeCmd n 2)
/-- NVME_WRITE_ZEROES (R306). -/
def execNvmeWriteZeroes (n : Fin 65536) (s : State) : Out := .next (s.takeCmd n 8)
/-- NVME_DSM (R306). -/
def execNvmeDsm (n : Fin 65536) (s : State) : Out := .next (s.takeCmd n 9)

/-- The ranges of a Dataset Management with BASE_LBA added to each Starting LBA. -/
def rebase (base : Nat) : Nat → List Byte → List Byte
  | 0, _ => []
  | k + 1, bs => bs.take 8 ++ natLE 8 (leNat ((bs.drop 8).take 8) + base) ++ rebase base k (bs.drop 16)

/-- The data of a command have arrived: they are encrypted under XTS where the namespace is, and staged. -/
def State.stageCmd (s : State) (id : Nat) (c : StoCmd) (bs : List Byte) : State :=
  if c.xts then
    match s.xtsUse c.xtsCtx with
    | (s, none) =>
      let du := s.dataUnit c.xtsCtx
      let unit := (c.ns.getD 3 0).toNat + c.slba * (c.blk / du)
      ((s.stagePut c.pages (xtsCrypt true (s.key c.xtsCtx) du unit bs)).sendCmd id c)
    | (s, some (sc, dnr)) => s.finishCmd id c (nvmeStatus 0 sc dnr) 0
  else (s.stagePut c.pages (if c.op = 9 then rebase c.baseLba (bs.length / 16) bs else bs)).sendCmd id c

/-- The results of a command's data reads, all taken: none while one is still out. -/
def State.storageReads (s : State) (id : Nat) : Nat → Option (List ReadRes × State)
  | 0 => some ([], s)
  | k + 1 =>
    match s.storageReads id k with
    | none => none
    | some (rs, s) => (s.takeRead (.storage id k)).map fun (r, s) => (rs ++ [r], s)

/-- A read of a command's guest memory has failed: Data Transfer Error, and ACCESS for its ring where the Hatband refused it. -/
def State.guestFail (s : State) (id : Nat) (c : StoCmd) (refused : Bool) : State :=
  let s := s.finishCmd id c (nvmeStatus 0 0x04 false) 0
  if refused then s.ringError 0 c.n 9 else s

/-- STAGING_DONE (R315): what a command reads of guest memory has arrived, its PRP list or the data to stage. -/
def execStagingDone (cmd : Nat) (s : State) : Out :=
  match mfind s.stoCmds cmd with
  | none => .next s
  | some c =>
    match c.stage, c.list with
    | .prpList, some (addr, rest) =>
      match s.takeRead (.storage cmd 0) with
      | none => .next s
      | some (.ok bs, s) => .next ((s.listRead cmd c addr rest bs).getD (s.finishCmd cmd c (nvmeStatus 0 0x13 true) 0))
      | some (r, s) => .next (s.guestFail cmd c (r == .refused))
    | .reading, _ =>
      match s.storageReads cmd c.prps.length with
      | none => .next s
      | some (rs, s) =>
        .next (if rs.all fun r => match r with | .ok _ => true | _ => false then
            s.stageCmd cmd c (rs.map fun r => match r with | .ok bs => bs | _ => []).flatten
          else s.guestFail cmd c (rs.contains .refused))
    | _, _ => .next s

end Sys2Proof.Machine
end

