-- ==== Sys2Proof/Machine/Uc.lean ====
section
/-! DEFINITION. The HQE's microcode: contexts and safe points, microwords and their operations, regimes, patches and debug
(R254 to R270). -/

namespace Sys2Proof.Machine

/-! ### Contexts -/

def State.ucCtx (s : State) (x : Nat) : UcCtx := mget UcCtx.init s.uc x
def State.setUc (s : State) (x : Nat) (c : UcCtx) : State := { s with uc := mset UcCtx.init s.uc x c }
/-- STATE of a context: 0 IDLE, 1 RUN, 2 WAIT, 3 HELD, 4 FAULTED, 5 DEBUG. -/
def State.ucSt (s : State) (x : Nat) : Nat := s.fget Fld.HQE_UC_CTX_STATUS_STATE x
def State.setUcSt (s : State) (x st : Nat) : State := s.fset Fld.HQE_UC_CTX_STATUS_STATE x st
def State.ucPc (s : State) (x : Nat) : Nat := s.fget Fld.HQE_UC_CTX_STATUS_PC x
def State.setUcPc (s : State) (x pc : Nat) : State := s.fset Fld.HQE_UC_CTX_STATUS_PC x pc

/-- PENDING of a context; bit 0 ASYNC_FAULT, 1 ORPHAN, 2 QUIESCE, 3 FREEZE, 4 MODE (R262). -/
def State.ucPending (s : State) (x k : Nat) : Bool := (s.fget Fld.HQE_UC_CTX_STATUS_PENDING x).testBit k
def State.setUcPending (s : State) (x k : Nat) (b : Bool) : State :=
  let p := s.fget Fld.HQE_UC_CTX_STATUS_PENDING x
  s.fset Fld.HQE_UC_CTX_STATUS_PENDING x (if b then p ||| 2 ^ k else p - (if p.testBit k then 2 ^ k else 0))

/-- REGIME takes the value written, and MODE_PENDING ends, once every context has changed; STARTED is set when REGIME first becomes RUN
(R261, Table 11-7; that REGIME reads as before until then is DEDUCED from the table, log entry 47). -/
def State.modeSettle (s : State) : State :=
  if (List.range 256).any fun x => s.ucPending x 4 then s
  else
    let s := (s.fset Fld.HQE_MODE_MODE_PENDING 0 0).fset Fld.HQE_MODE_REGIME 0 s.ucRegime
    if s.ucRegime = 0 then s.fset Fld.HQE_MODE_STARTED 0 1 else s
/-- A context takes the regime written. -/
def State.ucMode (s : State) (x : Nat) : State :=
  (s.setUcPending x 4 false).setUc x { s.ucCtx x with stretch := s.ucRegime != 0 }

/-- A fault is logged, and the microcode fault source raised (R263, R265): a recovered error of the HQE, and a fatal one where it is
UC_STUCK (R432). -/
def State.ucFault (s : State) (code x pc : Nat) (info : Nat) : State :=
  let s := if s.fbit Fld.HQE_UC_FAULT_VALID 0 then s.fset Fld.HQE_UC_FAULT_OVERRUN 0 1
    else s.wr Reg.HQE_UC_FAULT 0 ((s.rd Reg.HQE_UC_FAULT 0 &&& fieldAt 1 62) ||| fieldAt 1 63 ||| fieldAt (code % 64) 56 |||
      fieldAt (x % 256) 48 ||| fieldAt (pc % 2 ^ 15) 32 ||| fieldAt (info % 2 ^ 32) 0)
  (s.irq 531).errReport (if code = 6 then 3 else 2) 5 code (BitVec.ofNat 64 x)

/-- The events a context takes at a SAFEPT word, once its checkpoint stands (R263): MODE; then ASYNC_FAULT, which holds it; otherwise
ORPHAN, QUIESCE or FREEZE, which roll the routine forward. True when one of these ends the word's own sequencing. -/
def State.ucTake (s : State) (x : Nat) : Bool × State :=
  let s := if s.ucPending x 4 then (s.ucMode x).modeSettle else s
  if s.ucPending x 0 then
    let (info, s) := s.drawNat
    (true, (((s.setUcPending x 0 false).setUcSt x 3).bump Fld.HQEC_UC_ASYNC_COUNT).ucFault 0x10 x
      (s.fget Fld.HQE_UC_CTX_STATUS_SP_PC x) info)
  else if s.fbit Fld.HQE_UC_CTX_STATUS_ROLLFWD_ACTIVE x then (false, s)
  else match [1, 2, 3].find? fun k => s.ucPending x k with
    | some k =>
      (true, ((((s.setUcPending x k false).setUcSt x 1).setUcPc x (s.ucCtx x).target).fset Fld.HQE_UC_CTX_STATUS_ROLLFWD_ACTIVE x 1).bump
        Fld.HQEC_UC_ROLLFWD_COUNT)
    | none => (false, s)

/-- An event becomes pending for a context that is not IDLE; one that waits at a safe point takes it at once (R262). -/
def State.ucPend (s : State) (x k : Nat) : State :=
  if s.ucSt x = 0 then s
  else
    let s := s.setUcPending x k true
    if s.ucSt x = 2 ∧ (s.ucCtx x).waitSafe then (s.ucTake x).2 else s

/-- The contexts bound to an instance. -/
def State.ucBound (s : State) (i : Nat) : List Nat :=
  (s.uc.filter fun c => match c.2.bind with | some (j, _) => j == i | none => false).map fun c => c.1
/-- An event for every context bound to an instance. -/
def State.ucPendInst (s : State) (i k : Nat) : State := (s.ucBound i).foldl (fun s x => s.ucPend x k) s

/-- A unit refuses an operation of a context, or a write of it fails: COND 5 reports it, and ASYNC_FAULT is pending until a word tests
COND 5 (R260, R262). -/
def State.ucFails (s : State) (x : Nat) : State :=
  if s.ucSt x = 0 then s else (s.setUc x { s.ucCtx x with err := true }).setUcPending x 0 true
/-- The contexts whose writes have been refused since learn of it; one that waits at a safe point takes the fault at once (R262). -/
def State.ucRefused (s : State) (os : List WriteOwner) : State :=
  os.foldl (fun s o => match o with | .uc x => (s.ucFails x).ucPend x 0 | _ => s) s

/-! ### Microwords (Table 11-1) -/

/-- A microword. -/
structure Micro where
  w0 : Word
  w1 : Word
  w2 : Word
  imm : Word
  deriving DecidableEq, Repr

def Micro.safept (m : Micro) : Bool := bit m.w0 63
def Micro.seqop (m : Micro) : Nat := bits m.w0 58 56
def Micro.cond (m : Micro) : Nat := bits m.w0 55 50
def Micro.target (m : Micro) : Nat := bits m.w0 48 34
def Micro.dwidth (m : Micro) : Nat := bits m.w0 33 30
def Micro.waitev (m : Micro) : Nat := bits m.w0 29 24
def Micro.aluop (m : Micro) : Nat := bits m.w1 63 58
def Micro.dst (m : Micro) : Nat := bits m.w1 57 53
def Micro.uop (m : Micro) : Nat := bits m.w2 63 59
def Micro.areg (m : Micro) : Nat := bits m.w2 58 54
def Micro.dreg (m : Micro) : Nat := bits m.w2 53 49
def Micro.len (m : Micro) : Nat := bits m.w2 47 36 + 1

/-- Where a fetch goes: a ROM address that a valid match register names is fetched from patch RAM (R268). -/
def State.ucFetchAddr (s : State) (pc : Nat) : Nat :=
  if pc < 0x4000 then
    match (List.range 64).find? fun k => s.fbit Fld.HQE_PATCH_MATCH_VALID k && s.fget Fld.HQE_PATCH_MATCH_ROM_ADDR k == pc with
    | some k => 0x4000 + s.fget Fld.HQE_PATCH_MATCH_PATCH_ADDR k
    | none => pc
  else pc

/-- The word at a microaddress; none where the address is reserved (R256). -/
def State.ucWord (s : State) (a : Nat) : Option Micro :=
  if a < 0x4000 then some ⟨Config.ucRom a 0, Config.ucRom a 1, Config.ucRom a 2, Config.ucRom a 3⟩
  else if a < 0x5000 then
    let ws := mget [] s.ucPatch (a - 0x4000)
    some ⟨ws.getD 0 0, ws.getD 1 0, ws.getD 2 0, ws.getD 3 0⟩
  else none

/-- A word whose fields or encodings the tables do not allow (R258, R264). -/
def Micro.illegal (m : Micro) : Bool :=
  bits m.w0 23 0 != 0 || bits m.w1 40 0 != 0 || bits m.w2 35 0 != 0 || decide (7 < m.cond) || decide (7 < m.waitev) ||
    decide (0xE < m.aluop) || decide (0xF < m.uop) || (m.safept && m.seqop != 0 && m.seqop != 6) ||
    (m.seqop == 5 && (m.dwidth == 0 || decide (8 < m.dwidth))) || (m.seqop == 6 && decide (2 ≤ m.waitev) && !m.safept)

/-! ### The ALU (Table 11-4) -/

def UcRegs.get (r : UcRegs) (k : Nat) : Word := if k = 0 then 0 else (r.cr[k]?).getD 0
def UcRegs.set (r : UcRegs) (k : Nat) (v : Word) : UcRegs :=
  if h : k < 32 then (if k = 0 then r else { r with cr := r.cr.set k v h }) else r

/-- The result of an ALU operation, and its carry and overflow where the spec's operation has them. An extract or insert that reaches past
bit 63 has no stated result. -/
def aluResult (op : Nat) (a b d imm : Word) : Option Word × Option Bool × Option Bool :=
  let pos := bits imm 13 8
  let len := bits imm 5 0 + 1
  let mask : Word := BitVec.allOnes 64 >>> (64 - len)
  match op with
  | 1 => (some (a + b), some (decide (2 ^ 64 ≤ a.toNat + b.toNat)), some (a.msb == b.msb && (a + b).msb != a.msb))
  | 2 => (some (a - b), none, some (a.msb != b.msb && (a - b).msb != a.msb))
  | 3 => (some (a &&& b), none, none)
  | 4 => (some (a ||| b), none, none)
  | 5 => (some (a ^^^ b), none, none)
  | 6 => (some (a <<< bits b 5 0), none, none)
  | 7 => (some (a >>> bits b 5 0), none, none)
  | 8 => (some (a.sshiftRight (bits b 5 0)), none, none)
  | 9 => (if 64 < pos + len then none else some ((a >>> pos) &&& mask), none, none)
  | 10 => (if 64 < pos + len then none else some ((d &&& ~~~(mask <<< pos)) ||| ((a &&& mask) <<< pos)), none, none)
  | 11 => (some (fieldAt (ringDist (bits a 15 0) (bits b 15 0)) 0), none, none)
  | 12 => (some (if a.toNat ≤ b.toNat then a else b), none, none)
  | 13 => (some (if a.toNat ≤ b.toNat then b else a), none, none)
  | _ => (some a, none, none)

/-- The ALU part of a word: its result, and the flags. A flag or result that the spec does not state is free (log entry 3). -/
def State.ucAlu (s : State) (m : Micro) (r : UcRegs) : UcRegs × State :=
  if m.aluop = 0 then (r, s)
  else
    let b := if bit m.w1 42 then m.imm else r.get (bits m.w1 47 43)
    let (res, c, v) := aluResult m.aluop (r.get (bits m.w1 52 48)) b (r.get m.dst) m.imm
    let (fw, s) := s.drawWord
    let (fc, s) := s.drawBool
    let (fv, s) := s.drawBool
    let w := res.getD fw
    let r' := r.set m.dst w
    (if bit m.w1 41 then { r' with z := w == 0, n := w.msb, c := c.getD fc, v := v.getD fv } else r', s)

/-! ### Unit operations (Table 11-5, R260)

AREG holds the address and DREG the data, as Table 11-1 says; for transfers of several bytes DREG holds the scratch address. What the
table's one line leaves open of an operation's operands is log entry 46. -/

/-- The scratch address of an operation, where all its bytes lie in the context's window; lane-relative. -/
def ucScratchAt (x a n : Nat) : Option Nat :=
  let lo := 2048 * (x % 8)
  if lo ≤ a ∧ a + n ≤ lo + 2048 then some (x / 8 * 16384 + a) else none

/-- The scratch bytes an operation uses: the address and the count, none for an operation without them. -/
def Micro.scratch (m : Micro) (r : UcRegs) : Option (Nat × Nat) :=
  match m.uop with
  | 3 | 4 | 5 | 6 => some ((r.get m.dreg).toNat, m.len)
  | 7 | 8 => some ((r.get m.areg).toNat, 8)
  | _ => none

/-- What a unit operation leaves: a value for DREG, and whether it reported an error. -/
structure UcUnit where
  s : State
  put : Option Word
  err : Bool

/-- The DPA of block HQE's registers. -/
def hqeBase : Nat := 0x020005000000

/-- The unit operation of a word, with the registers as they stood before it. -/
def State.ucUnit (s : State) (x : Nat) (m : Micro) (r : UcRegs) : UcUnit :=
  let c := s.ucCtx x
  let (inst, gen) := c.bind.getD (0, 0)
  let (kind, n) := c.ring.getD (0, 0)
  let a := r.get m.areg
  let d := r.get m.dreg
  let sc := match m.scratch r with | some (p, k) => (ucScratchAt x p k).getD 0 | none => 0
  match m.uop with
  | 1 =>
    match regAt (hqeBase + a.toNat / 8 * 8 % 2 ^ 24) with
    | some (reg, i, _) => ⟨s, some (s.rd reg i), false⟩
    | none => ⟨s, none, true⟩
  | 2 =>
    match regAt (hqeBase + a.toNat / 8 * 8 % 2 ^ 24) with
    | some (reg, i, _) => ⟨s.wr reg i (reg.fields.foldl (fun v f => v ||| (d &&& f.mask)) 0), none, false⟩
    | none => ⟨s, none, true⟩
  | 3 => ⟨s.hostReadGen (.uc x sc) inst gen a.toNat m.len false, none, false⟩
  | 4 =>
    let (s, refused) := s.hostWrite inst gen a.toNat (mrdBytes s.ucScratch sc m.len) false false false (.uc x)
    ⟨s, none, refused⟩
  | 5 =>
    match s.ddrRead a.toNat m.len with
    | (some bs, s) => ⟨{ s with ucScratch := mwrBytes s.ucScratch sc bs }, none, false⟩
    | (none, s) => ⟨s, none, true⟩
  | 6 =>
    if s.ddrCapacity < a.toNat + m.len then ⟨s, none, true⟩
    else ⟨s.memStore a.toNat (mrdBytes s.ucScratch sc m.len), none, false⟩
  | 7 => ⟨s, some (BitVec.ofNat 64 (leNat (mrdBytes s.ucScratch sc 8))), false⟩
  | 8 => ⟨{ s with ucScratch := mwrBytes s.ucScratch sc (wordBytesLE d) }, none, false⟩
  | 9 =>
    match execTxPayloadDone a.toNat s with
    | .next t => ⟨t, none, (mfind s.txJobs a.toNat).isNone⟩
    | _ => ⟨s, none, true⟩
  | 10 =>
    let q := s.fget Fld.HQE_RQ_W0_TM_QUEUE n
    match s.hostOut.find? fun h => match s.frame? h with | some f => f.stage == .host q | none => false with
    | none => ⟨s, none, true⟩
    | some h =>
      match execRxFrame h s with
      | .next t => ⟨t, some (fieldAt h 0), false⟩
      | _ => ⟨s, none, true⟩
  | 11 =>
    match s.stoCmds.find? fun k => k.2.n == n && k.2.stage == .fetched && !k.2.detached with
    | some (_, k) => ⟨s.takeCmd n k.op, none, false⟩
    | none => ⟨s, none, true⟩
  | 12 =>
    if kind < 2 then
      ⟨s.postCpl { kind := kind, n := n, inst := inst, gen := gen, status := bits d 62 56, nbuf := bits d 46 40, tag := bits d 31 16,
                   result := a, ents := 0, nvme := none }, none, false⟩
    else ⟨s, none, true⟩
  | 13 =>
    match mget [] s.ucDoorbells (ringKey kind n) with
    | [] => ⟨s, none, true⟩
    | v :: vs => ⟨{ s with ucDoorbells := mset [] s.ucDoorbells (ringKey kind n) vs }, some v, false⟩
  | 14 => ⟨s, some (fieldAt (s.fget Fld.CAPO_INST_STATUS_GEN inst) 0), false⟩
  | 15 =>
    if gen ≠ s.gen inst then ⟨s, none, true⟩
    else if bit m.imm 0 then ⟨s.logPage inst (a.toNat / 4096), none, false⟩
    else ⟨s.ledgerPut inst kind (s.ringX kind n).locN (bits d 15 0) (bit d 31), none, false⟩
  | _ => ⟨s, none, c.err⟩

/-! ### Issue (R257 to R265) -/

/-- Whether a condition holds (Table 11-2). -/
def State.ucCond (s : State) (x k : Nat) (r : UcRegs) : Bool :=
  let c := s.ucCtx x
  match k with
  | 0 => true
  | 1 => r.z | 2 => r.n | 3 => r.c | 4 => r.v
  | 5 => c.err
  | 6 => s.fget Fld.HQE_UC_CTX_STATUS_PENDING x != 0
  | _ => match c.bind with | some (i, g) => g != s.gen i | none => false

/-- A synchronous fault: the word has no effect, and the context is FAULTED; a fourth at one checkpoint logs UC_STUCK (R265). -/
def State.ucSync (s : State) (x code pc info : Nat) : State :=
  ((s.setUcSt x 4).bump Fld.HQEC_UC_FAULTS_COUNT).ucFault (if s.fget Fld.HQE_UC_CTX_STATUS_RESTARTS x = 3 then 6 else code) x pc
    (if s.fget Fld.HQE_UC_CTX_STATUS_RESTARTS x = 3 then 0 else info)

/-- Where a word sends its context: the next pc and call stack; none raises UC_STACK. -/
def Micro.next (m : Micro) (pc : Nat) (taken : Bool) (r : UcRegs) : Option (Nat × List Nat) :=
  match m.seqop with
  | 1 => some (m.target, r.stack)
  | 2 => some (if taken then m.target else (pc + 1) % 2 ^ 15, r.stack)
  | 3 => if 8 ≤ r.stack.length then none else some (m.target, (pc + 1) % 2 ^ 15 :: r.stack)
  | 4 => match r.stack with | [] => none | t :: ts => some (t, ts)
  | 5 => some ((m.target + bits (r.get (bits m.w1 52 48)) 7 0 % 2 ^ m.dwidth) % 2 ^ 15, r.stack)
  | _ => some ((pc + 1) % 2 ^ 15, r.stack)

/-- The host reads of a context. -/
def ucRead (x : Nat) (r : HostRead) : Bool := match r.who with | .uc c _ => c == x | _ => false

/-- END: the context is IDLE and unbound; what was pending, and its host reads, go with it (R259, R263). -/
def State.ucEnds (s : State) (x : Nat) : State :=
  let s := ((s.ucMode x).fset Fld.HQE_UC_CTX_STATUS_PENDING x 0).dropReads (ucRead x)
  let s := (s.fset Fld.HQE_UC_CTX_STATUS_ROLLFWD_ACTIVE x 0).setUcSt x 0
  (s.setUc x { s.ucCtx x with bind := none, ring := none, err := false }).modeSettle

/-- The checkpoint of a SAFEPT word (R263). One that a RESTART issues again is the same checkpoint, and its RESTARTS stay (R265). -/
def State.ucCheckpoint (s : State) (x pc : Nat) (m : Micro) : State :=
  let c := s.ucCtx x
  let s := (s.fset Fld.HQE_UC_CTX_STATUS_SP_PC x pc).fset Fld.HQE_UC_CTX_STATUS_SEG_COUNT x 0
  (if c.again then s else s.fset Fld.HQE_UC_CTX_STATUS_RESTARTS x 0).setUc x { c with chk := c.r, target := m.target, again := false }

/-- A legal word of a context runs: its checkpoint where it is a safe point, its ALU and unit operations on the registers as they stood,
then its sequencing. `dbg`: DEBUG runs it, and held events stay pending (R269). A word that branches on COND 5 has tested the last unit
operation, and what that one reported is no ASYNC_FAULT any more (R262). -/
def State.ucRun (s : State) (x pc : Nat) (m : Micro) (nxt : Nat) (stack : List Nat) (dbg : Bool) : State :=
  let r := (s.ucCtx x).r
  let s := if m.safept then s.ucCheckpoint x pc m
    else s.fset Fld.HQE_UC_CTX_STATUS_SEG_COUNT x (s.fget Fld.HQE_UC_CTX_STATUS_SEG_COUNT x + 1)
  let s := if m.seqop = 2 ∧ m.cond = 5 then s.setUcPending x 0 false else s
  let (r1, s) := s.ucAlu m r
  let u := s.ucUnit x m r
  let (clash, s) := u.s.drawWord
  let r2 := match u.put with
    | some v => r1.set m.dreg (if m.aluop ≠ 0 ∧ m.dst = m.dreg then clash else v)
    | none => r1
  let s := s.setUc x { s.ucCtx x with r := { r2 with stack := stack }, err := u.err }
  let fails (s : State) : State := if m.uop ≠ 0 ∧ u.err then s.ucFails x else s
  let (ended, s) := if m.safept && !dbg then s.ucTake x else (false, s)
  if ended then fails (if s.ucSt x = 3 then s.setUcPc x ((pc + 1) % 2 ^ 15) else s)
  else if m.seqop = 6 then
    fails ((s.setUc x { s.ucCtx x with waitEv := m.waitev, waitSafe := m.safept }).setUcSt x 2)
  else if m.seqop = 7 then s.ucEnds x
  else fails (s.setUcPc x nxt)

/-- The copy of a word in a replica. -/
def ucCopy (g a : Nat) : Nat := g % 8 * 32768 + a

/-- The word at a microaddress is fetched from a lane's replica (R256, R257): a corrected word is counted; a bad copy is served from the
next replica, and rewritten from it in patch RAM; with both bad the fetch fails. `ecc` is what happens to the copies now. -/
def State.ucFetch (s : State) (lane a : Nat) (ecc : UcEcc) : Bool × State :=
  let g := lane / 4
  let bad (s : State) (g : Nat) (b : Bool) : State := { s with ucBad := mset false s.ucBad (ucCopy g a) b }
  let s := match ecc with
    | .replica => bad s g true
    | .both => bad (bad s g true) (g + 1) true
    | _ => s
  if mget false s.ucBad (ucCopy g a) then
    let s := (s.bump Fld.HQEC_UC_ECC_REPLICA_COUNT).errReport 2 5 2 (BitVec.ofNat 64 a)
    if mget false s.ucBad (ucCopy (g + 1) a) then (false, s) else (true, if a < 0x4000 then s else bad s g false)
  else (true, if ecc = .corrected then (s.bump Fld.HQEC_UC_ECC_CORR_COUNT).errReport 0 5 0 (BitVec.ofNat 64 a) else s)

/-- A word waits for FENCE: an earlier write of its context has not left (R258). -/
def State.ucFenced (s : State) (x : Nat) : Bool :=
  match s.ucWord (s.ucFetchAddr (s.ucPc x)) with
  | some m => bit m.w2 48 && m.uop != 0 && s.hwq.any fun q => q.2.any fun w => w.owner == .uc x
  | none => false

/-- A context issues the word at its pc, if the word's SEQOP is the one wanted (`none`: any). `ecc` is what its fetch meets. -/
def State.ucIssue (s : State) (x : Nat) (ecc : UcEcc) (want : Option Nat) (dbg : Bool) : State :=
  let pc := s.ucFetchAddr (s.ucPc x)
  let lane := x / 8
  let go (s : State) : State := (s.setUcPc x pc).setUc x { s.ucCtx x with skip := false }
  match s.ucWord pc with
  | none => (go s).ucSync x 1 pc 0
  | some m =>
    if want.isSome ∧ want ≠ some m.seqop then s
    else
      let (ok, s) := { go s with ucLast := mput s.ucLast lane (x % 8) }.ucFetch lane pc ecc
      let r := (s.ucCtx x).r
      if !ok then s.ucSync x 2 pc 0
      else if m.illegal then s.ucSync x 1 pc 0
      else if !m.safept ∧ 512 ≤ s.fget Fld.HQE_UC_CTX_STATUS_SEG_COUNT x then s.ucSync x 5 pc 0
      else match m.next pc (s.ucCond x m.cond r != bit m.w0 49) r with
        | none => s.ucSync x 3 pc 0
        | some (nxt, stack) =>
          match m.scratch r with
          | some (p, k) => if (ucScratchAt x p k).isNone then s.ucSync x 4 pc p else s.ucRun x pc m nxt stack dbg
          | none => s.ucRun x pc m nxt stack dbg

/-- The ready context of a lane whose turn it is: round robin, from the one after the context that issued last (R254); one whose next word
waits for FENCE is not ready (R258). -/
def State.ucTurn (s : State) (lane : Nat) : Option Nat :=
  let last := mget 7 s.ucLast lane
  ((List.range 8).map fun i => 8 * lane + (last + 1 + i) % 8).find? fun x => s.ucSt x == 1 && !s.ucFenced x

/-- Whether a context stands at its lane's breakpoint (R269). -/
def State.ucBreak (s : State) (x : Nat) : Bool :=
  let lane := x / 8
  let b := s.fget Fld.HQE_UC_DBG_BREAK_ADDR lane
  (s.ucCtx x).stretch && s.fbit Fld.HQE_MODE_DEBUG_EN 0 && s.fbit Fld.HQE_UC_DBG_BREAK_EN lane &&
    s.fget Fld.HQE_UC_DBG_CTX lane == x % 8 && !(s.ucCtx x).skip && (b == s.ucPc x || b == s.ucFetchAddr (s.ucPc x))

/-- A context enters DEBUG before its next word. -/
def State.ucHalt (s : State) (x : Nat) : State :=
  if s.ucSt x = 1 ∨ s.ucSt x = 2 then (s.setUc x { s.ucCtx x with prev := s.ucSt x }).setUcSt x 5 else s

/-- A lane's turn: its context enters DEBUG at a breakpoint, or issues. -/
def State.ucLane (s : State) (lane : Nat) (ecc : UcEcc) (want : Nat) : State :=
  match s.ucTurn lane with
  | none => s
  | some x => if s.ucBreak x then s.ucHalt x else s.ucIssue x ecc (some want) false

/-- UC_NEXT (R259). -/
def execUcNext (lane : Fin 32) (ecc : UcEcc) (s : State) : Out := .next (s.ucLane lane ecc 0)
/-- UC_JUMP (R259). -/
def execUcJump (lane : Fin 32) (ecc : UcEcc) (s : State) : Out := .next (s.ucLane lane ecc 1)
/-- UC_BRANCH (R259). -/
def execUcBranch (lane : Fin 32) (ecc : UcEcc) (s : State) : Out := .next (s.ucLane lane ecc 2)
/-- UC_CALL (R259). -/
def execUcCall (lane : Fin 32) (ecc : UcEcc) (s : State) : Out := .next (s.ucLane lane ecc 3)
/-- UC_RETURN (R259). -/
def execUcReturn (lane : Fin 32) (ecc : UcEcc) (s : State) : Out := .next (s.ucLane lane ecc 4)
/-- UC_DISPATCH (R259). -/
def execUcDispatch (lane : Fin 32) (ecc : UcEcc) (s : State) : Out := .next (s.ucLane lane ecc 5)
/-- UC_WAIT (R259). -/
def execUcWait (lane : Fin 32) (ecc : UcEcc) (s : State) : Out := .next (s.ucLane lane ecc 6)
/-- UC_END (R259). -/
def execUcEnd (lane : Fin 32) (ecc : UcEcc) (s : State) : Out := .next (s.ucLane lane ecc 7)

/-- UC_JOB_DISPATCH (R254, R255): a free context of the lane takes the job, bound to its instance and generation. -/
def execUcJobDispatch (entry : Fin 64) (job : UcJob) (s : State) : Out :=
  let (lane, inst, ring) : Nat × Option Nat × Option (Nat × Nat) := match job with
    | .ring k n => (n.val % 32, if s.ringSt k n = 0 then none else some (s.ringX k n).inst, some (k.val, n.val))
    | .routine i => (i.val % 32, some i.val, none)
  match inst, s.pick (((List.range 8).map fun i => 8 * lane + i).filter fun x => s.ucSt x == 0) with
  | some i, some (x, s) =>
    let c := s.ucCtx x
    let s := s.setUc x { c with
      bind := some (i, s.gen i), ring := ring, chk := { c.r with stack := [] }, r := { c.r with stack := [] }, err := false, target := 0,
      skip := false, stretch := s.ucRegime != 0, again := false }
    .next (s.wr Reg.HQE_UC_CTX_STATUS x (fieldAt 1 60 ||| fieldAt entry 32 ||| fieldAt entry 16))
  | _, _ => .next s

/-- Whether the event that a waiting context waits for has come, with the state after it (Table 11-3). Host read data goes to the scratch
address its read named; that of an older generation is discarded, which is a failure to its context (R260, Table 12-4). What comes from outside the
context (a storage reply, the passing of time, a free slot) has come when the command says so. -/
def State.ucEvent (s : State) (x : Nat) : Option State :=
  let c := s.ucCtx x
  let (kind, n) := c.ring.getD (0, 0)
  match c.waitEv with
  | 2 =>
    match s.hreads.find? fun r => ucRead x r && r.res.isSome with
    | none => none
    | some r =>
      let s := { s with hreads := s.hreads.filter fun y => y.id != r.id }
      match r.who, r.res, r.gen == s.gen r.inst with
      | .uc _ dst, some (.ok bs), true => some ({ s with ucScratch := mwrBytes s.ucScratch dst bs }.setUc x { s.ucCtx x with err := false })
      | _, _, _ => some (s.ucFails x)
  | 3 => if (mget [] s.ucDoorbells (ringKey kind n)).isEmpty then none else some s
  | 4 =>
    let q := s.fget Fld.HQE_RQ_W0_TM_QUEUE n
    if s.hostOut.any fun h => match s.frame? h with | some f => f.stage == .host q | none => false then some s else none
  | _ => some s

/-- UC_WAIT_EVENT (R259): the event of a waiting context arrives. -/
def execUcWaitEvent (ctx : Fin 256) (s : State) : Out :=
  let x := ctx.val
  if s.ucSt x ≠ 2 then .next s
  else match s.ucEvent x with
    | none => .next s
    | some s => .next ((s.setUcSt x 1).setUcPc x ((s.ucPc x + 1) % 2 ^ 15))

/-! ### Recovery (R263, R265) -/

/-- RESUME: a HELD context goes on at the next word. -/
def State.ucResume (s : State) (x : Nat) : State :=
  if s.ucSt x = 3 then (s.setUcSt x 1).setUcPc x ((s.fget Fld.HQE_UC_CTX_STATUS_SP_PC x + 1) % 2 ^ 15) else s
/-- ROLLFWD: a HELD context goes on at the roll-forward entry. -/
def State.ucRollfwd (s : State) (x : Nat) : State :=
  if s.ucSt x = 3 then
    ((s.setUcSt x 1).setUcPc x (s.ucCtx x).target |>.fset Fld.HQE_UC_CTX_STATUS_ROLLFWD_ACTIVE x 1).bump Fld.HQEC_UC_ROLLFWD_COUNT
  else s
/-- RESTART: a FAULTED context runs again from its checkpoint, at most 3 times. -/
def State.ucRestart (s : State) (x : Nat) : State :=
  let k := s.fget Fld.HQE_UC_CTX_STATUS_RESTARTS x
  if s.ucSt x ≠ 4 ∨ 3 ≤ k then s
  else
    let s := (s.setUcSt x 1).setUcPc x (s.fget Fld.HQE_UC_CTX_STATUS_SP_PC x)
    let s := (s.fset Fld.HQE_UC_CTX_STATUS_RESTARTS x (k + 1)).fset Fld.HQE_UC_CTX_STATUS_SEG_COUNT x 0
    (s.setUc x { s.ucCtx x with r := (s.ucCtx x).chk, again := true }).bump Fld.HQEC_UC_RESTARTS_COUNT
/-- A write of HQE_UC_CTX_CTL acts on the highest bit set. -/
def State.ucCtlWrite (s : State) (x : Nat) (v : Word) : State :=
  if bit v 2 then s.ucRestart x else if bit v 1 then s.ucRollfwd x else if bit v 0 then s.ucResume x else s

/-- UC_RESUME (R263). -/
def execUcResume (ctx : Fin 256) (s : State) : Out := .next (s.ucResume ctx)
/-- UC_ROLLFWD (R263). -/
def execUcRollfwd (ctx : Fin 256) (s : State) : Out := .next (s.ucRollfwd ctx)
/-- UC_RESTART (R265). -/
def execUcRestart (ctx : Fin 256) (s : State) : Out := .next (s.ucRestart ctx)

/-! ### Regimes and debug (R261, R269) -/

/-- A write of HQE_MODE (R261): contexts that are IDLE or wait at a safe point change at once, the others at their next safe point. -/
def State.hqeModeWrite (s : State) (v : Word) : State :=
  let old := s.rd Reg.HQE_MODE 0
  let new := writeFields false Reg.HQE_MODE old v
  let s' := s.wr Reg.HQE_MODE 0 ((new &&& ~~~(fieldAt 3 0)) ||| fieldAt (bits old 1 0) 0)
  if s.fbit Fld.HQE_MODE_MODE_PENDING 0 || s.fbit Fld.HQE_PATCH_STATUS_BUSY 0 then s'
  else
    let s := { s' with ucRegime := bits v 1 0 }
    let late (x : Nat) : Bool := s.ucSt x != 0 && !(s.ucSt x == 2 && (s.ucCtx x).waitSafe)
    let s := s.uc.foldl (fun s c => if late c.1 then s.setUcPending c.1 4 true else s.ucMode c.1) s
    (s.fset Fld.HQE_MODE_MODE_PENDING 0 1).modeSettle

/-- One word of a DEBUG context; it is in DEBUG again after it, unless it has ended or faulted. Its held events stay pending. -/
def State.ucStep (s : State) (x : Nat) (ecc : UcEcc) : State :=
  if s.ucSt x ≠ 5 ∨ (s.ucCtx x).prev ≠ 1 ∨ s.ucFenced x then s
  else
    let t := (s.setUcSt x 1).ucIssue x ecc none true
    if t.ucSt x = 1 ∨ t.ucSt x = 2 then (t.setUc x { t.ucCtx x with prev := t.ucSt x }).setUcSt x 5 else t

/-- A context leaves DEBUG: its breakpoint is passed, and one that waited at a safe point takes what is pending. -/
def State.ucGo (s : State) (x : Nat) : State :=
  if s.ucSt x ≠ 5 then s
  else
    let c := s.ucCtx x
    let s := (s.setUc x { c with skip := true }).setUcSt x c.prev
    if c.prev = 2 ∧ c.waitSafe then (s.ucTake x).2 else s

/-- A write of HQE_UC_DBG. -/
def State.ucDbgWrite (s : State) (lane : Nat) (v : Word) (ecc : UcEcc) : State :=
  if s.fget Fld.HQE_MODE_REGIME 0 = 0 ∨ !s.fbit Fld.HQE_MODE_DEBUG_EN 0 then s.fset Fld.HQE_MODE_DBG_REFUSED 0 1
  else
    let s := s.wr Reg.HQE_UC_DBG lane (writeFields false Reg.HQE_UC_DBG (s.rd Reg.HQE_UC_DBG lane) v &&& ~~~(fieldAt 7 29))
    let x := 8 * lane + bits v 18 16
    if bit v 31 then s.ucHalt x else if bit v 30 then s.ucStep x ecc else if bit v 29 then s.ucGo x else s
/-- UC_DBG_HALT (R269). -/
def execUcDbgHalt (lane : Fin 32) (value : Word) (s : State) : Out := .next (s.ucDbgWrite lane (value ||| fieldAt 1 31) .clean)
/-- UC_DBG_STEP (R269). -/
def execUcDbgStep (lane : Fin 32) (value : Word) (ecc : UcEcc) (s : State) : Out :=
  .next (s.ucDbgWrite lane ((value ||| fieldAt 1 30) &&& ~~~(fieldAt 1 31)) ecc)
/-- UC_DBG_RUN (R269). -/
def execUcDbgRun (lane : Fin 32) (value : Word) (s : State) : Out :=
  .next (s.ucDbgWrite lane ((value ||| fieldAt 1 29) &&& ~~~(fieldAt 3 30)) .clean)

/-! ### Patches (R266, R267) -/

/-- A write of HQE_PATCH_LOAD: GO starts a load with the address and HQE_PATCH_STATUS.LEN as they are then, which is refused unless every
context is IDLE and nothing has been started. While a load runs GO is ignored. -/
def State.patchWrite (s : State) (v : Word) : State :=
  let s := s.fset Fld.HQE_PATCH_LOAD_ADDR 0 (bits v 47 0)
  if !bit v 63 || s.fbit Fld.HQE_PATCH_STATUS_BUSY 0 then s
  else if s.fbit Fld.HQE_MODE_STARTED 0 || (List.range 256).any fun x => s.ucSt x != 0 then s.fset Fld.HQE_PATCH_STATUS_RESULT 0 7
  else { s.fset Fld.HQE_PATCH_STATUS_BUSY 0 1 with patchJob := (bits v 47 0, s.fget Fld.HQE_PATCH_STATUS_LEN 0) }
/-- PATCH_LOAD (R267). -/
def execPatchLoad (value : Word) (s : State) : Out := .next (s.patchWrite (value ||| fieldAt 1 63))

/-- Word `k` of an image. -/
def imgWord (img : List Byte) (k : Nat) : Word := BitVec.ofNat 64 (leNat ((img.drop (8 * k)).take 8))

/-- The checks of R267 in order, on an image: the RESULT of the first that fails, or the plaintext body. -/
def patchCheck (img : List Byte) : Except Nat (List Byte) :=
  let w := imgWord img
  let words := bits (w 2) 63 48
  let matches_ := bits (w 2) 47 40
  let slot := bits (w 2) 39 32
  let body := (w 3).toNat
  let hdrOk := w 0 == fieldAt 0x51504348 32 ||| fieldAt 1 16 ||| fieldAt 16 0 && bits (w 2) 31 0 == 0 && bits (w 5) 31 0 == 0 &&
    ((List.range 8).all fun k => w (8 + k) == 0)
  let sizes := decide (1 ≤ words) && decide (words ≤ 4096) && decide (matches_ ≤ 64) && body == 8 * matches_ + 32 * words &&
    img.length == 128 + body + 96
  let ct := (img.drop 128).take body
  let sealed := (img.take 128) ++ ct
  let iv := wordBytesBE (w 4) ++ (wordBytesBE (w 5)).take 4
  let key := (List.range 32).map Config.patchKey
  let aad := img.take 32
  let plain := gcmCrypt key iv ct
  let recs := (List.range matches_).map fun k => imgWord plain k
  let recOk (r : Word) : Bool := bit r 63 && bits r 62 46 == 0 && bits r 31 12 == 0 && decide (bits r 11 0 < words)
  let addrs := recs.map fun r => bits r 45 32
  if !hdrOk then .error 1
  else if bits (w 1) 63 32 ≠ Config.romId.toNat then .error 2
  else if bits (w 1) 31 0 < Config.svnMin 0 then .error 3
  else if !sizes || decide (1 < slot) || !Config.enrolled slot then .error 1
  else if !signed slot sealed (img.drop (128 + body)) then .error 4
  else if gcmTag key iv aad ct != wordBytesBE (w 6) ++ wordBytesBE (w 7) then .error 5
  else if !(recs.all recOk) || decide (addrs.eraseDups.length < addrs.length) then .error 6
  else .ok plain

/-- PATCH_LOAD_DONE (R267): the load ends; one that passes every check fills patch RAM in all replicas, and the match registers. -/
def execPatchLoadDone (s : State) : Out :=
  if !s.fbit Fld.HQE_PATCH_STATUS_BUSY 0 then .next s
  else
    let done (s : State) (r : Nat) : State := (s.fset Fld.HQE_PATCH_STATUS_BUSY 0 0).fset Fld.HQE_PATCH_STATUS_RESULT 0 r
    match s.ddrRead s.patchJob.1 s.patchJob.2 with
    | (none, s) => .next (done s 8)
    | (some img, s) =>
      match patchCheck img with
      | .error r => .next (done s r)
      | .ok plain =>
        let m := bits (imgWord img 2) 47 40
        let n := bits (imgWord img 2) 63 48
        let s := (List.range 64).foldl (fun s k => s.wr Reg.HQE_PATCH_MATCH k (if k < m then imgWord plain k else 0)) s
        let ram := (List.range n).map fun i => (i, (List.range 4).map fun j => imgWord plain (m + 4 * i + j))
        .next ((done { s with ucPatch := ram, ucBad := s.romBad } 0).fset Fld.HQE_PATCH_STATUS_LOADED 0 1)

end Sys2Proof.Machine
end

