-- ==== Sys2Proof/Machine/Reset.lean ====
section
/-! DEFINITION. What resets and power-off leave: the whole die (R380, R411), one power domain (R361), and what holds the die in reset
(R380, R412, R439, R441). -/

namespace Sys2Proof.Machine

/-! ### Which registers stand where -/

/-- The register array of a key of the register store. -/
def regOf (k : Nat) : Option RegDesc := Reg.all.find? fun r => r.rid == k / 2 ^ 40
/-- The index in the outermost dimension of a register array. -/
def outerIx (r : RegDesc) (i : Nat) : Nat := i / ((r.dims.drop 1).foldl (fun a d => a * d.2) 1)
/-- The count of the outermost dimension, 1 for a single register. -/
def outerCount (r : RegDesc) : Nat := match r.dims with | d :: _ => d.2 | [] => 1

/-- The registers of block PCI that are indexed by a segment (R377). -/
def pciSegRegs : List Nat :=
  [Reg.PCI_SEG_STATUS, Reg.PCIC_CTO, Reg.PCIC_LATE_CPL, Reg.PCIC_UNEXP_CPL, Reg.PCIC_CPL_ERR, Reg.PCIC_POISON_RX, Reg.PCIC_POISON_TX,
    Reg.PCIC_BAR_RESERVED, Reg.PCIC_BAR_BAD_SIZE, Reg.PCIC_DB_HELD, Reg.PCIC_DARK_WRITES, Reg.PCIC_IDE_FAIL].map fun r => r.rid
/-- The registers of block TBL that are of the TCAM. -/
def tcamRegs : List Nat :=
  [Reg.TBL_TCAM_W0, Reg.TBL_TCAM_W1, Reg.TBL_TCAM_W2, Reg.TBL_TCAM_W3, Reg.TBL_TCAM_W4].map fun r => r.rid

/-- The power domain of element `i` of a register array (Table 16-1, R377); none for Soundpost and the power controller. -/
def regDomain (r : RegDesc) (i : Nat) : Option Nat :=
  let o := outerIx r i
  match r.block with
  | 0 => none | 1 => none | 2 => some 32
  | 3 => some (if outerCount r = 8 then 30 + o / 4 else 33)
  | 4 => some (if pciSegRegs.contains r.rid then 4 + o / 2 else 33)
  | 5 => some 27 | 6 => some 28 | 7 => some 33 | 8 => some 29 | 9 => some 26 | 10 => some 22 | 11 => some 22
  | 12 => some (if tcamRegs.contains r.rid then 24 else 23)
  | 13 => some 25
  | 14 | 15 => some (match outerCount r with | 4 => o | 32 => o / 8 | _ => 33)
  | 16 => some 32
  | _ => some (6 + o)

/-! ### A domain without power (R361, R411) -/

/-- The listed bytes of a range are zero again. -/
def State.zeroRange (s : State) (lo hi : Nat) : State :=
  { s with mem := s.mem.filter fun c => decide (c.1 < lo) || decide (hi ≤ c.1) }

/-- The frames with a property are dropped. -/
def State.dropWhere (s : State) (p : Frame → Bool) : State :=
  ((s.frames.filter fun c => p c.2).map fun c => c.1).foldl (fun s h => s.dropFrame h) s

/-- A map without the entries of some keys. -/
def mcut {α : Type} (m : SMap α) (p : Nat → Bool) : SMap α := m.filter fun c => !p c.1

/-- The memories and engines of a cluster: its threads, channels and unit-channel sections, local pegs, program memory and shared memory; the frames its threads
and channels held are dropped. -/
def State.cluLost (s : State) (c : Nat) : State :=
  let ofT (t : Nat) : Bool := t / 192 == c
  let ofCh (k : Nat) : Bool := if k < 0x4000 then k / 2048 == c else decide (0x10000 ≤ k) && (k - 0x10000) % 16 == c
  let held := ((s.threads.filter fun x => ofT x.1).map fun x => x.2.pkts).flatten
  let queued := ((s.chans.filter fun x => ofCh x.1).map fun x => (x.2.msgs ++ x.2.units).filterMap fun m => m.pkt).flatten
  let s := (held ++ queued).foldl (fun s h => (s.bump Fld.ACTC_ORPHAN_DROP_COUNT).dropFrame h) s
  let s := ((s.zeroRange (sharedBase c) (sharedBase c + 0x200000))).zeroRange (programBase c) (programBase c + 0x80000)
  { s with
    threads := mcut s.threads ofT
    chans := mcut s.chans ofCh
    pegs := mcut s.pegs fun k => decide (0x10000 ≤ k) && (k - 0x10000) / 4096 == c
    rr := mcut s.rr fun k => k / 12 == c }

/-- The state a domain's memories and engines hold beside its registers is gone (Table 16-1). -/
def State.domainState (s : State) (d : Nat) : State :=
  if d < 4 then
    let s := (List.range 8).foldl (fun s k => s.downLink (8 * d + k) 0) s
    { s with
      tsFifo := mcut s.tsFifo fun m => m / 8 == d
      cue := mcut s.cue fun p => p == d
      anFail := mcut s.anFail fun m => m / 8 == d }
  else if d < 6 then s
  else if d < 14 then s.cluLost (d - 6)
  else if d < 22 then
    let j := d - 14
    let bits_ := s.fget Fld.SP_CORE_RELEASE_RELEASE 0
    { s.fset Fld.SP_CORE_RELEASE_RELEASE 0 (bits_ - (bits_ / 4 ^ j) % 4 * 4 ^ j) with
      cores := mcut s.cores fun k => k / 2 == j
      ports := mcut s.ports fun k => k / 2 == j }
  else match d with
    | 22 =>
      { s.dropWhere fun f => match f.stage with | .parse _ | .classify _ | .ddr | .path | .handed | .action _ _ => true | _ => false with
        fc := []
        pend := []
        actFifo := []
        actLists := []
        pushId := 0
        mirrorCount := [] }
    | 23 => { s with
        lookups := []
        overlay := []
        draining := []
        learnSeq := []
        parked := []
        emFresh := []
        emCount := []
        extTaint := []
        tblDiffs := []
        orderSeen := false }
    | 24 => s
    | 25 => { s.dropWhere fun _ => true with
        tmIn := []
        tmFifo := []
        tmAux := []
        polAux := []
        hostOut := [] }
    | 26 => { s.dropWhere fun f => match f.stage with | .cipher _ _ => true | _ => false with
        keys := []
        klwCmd := none
        csubs := [] }
    | 27 =>
      { s.dropReads (fun r => match r.who with | .fetch _ _ _ | .payload _ _ | .uc _ _ => true | _ => false) with
        ringx := []
        txJobs := []
        txGone := []
        held := []
        stalled := []
        fullerT := []
        uc := []
        ucScratch := []
        ucLast := []
        ucPatch := []
        ucBad := s.romBad
        ucRegime := 1
        patchJob := (0, 0)
        ucDoorbells := [] }
    | 28 =>
      let free (w : HostWrite) : HostWrite := match w.owner with | .bow .. => { w with owner := .none } | _ => w
      { s.dropReads (fun r => match r.who with | .bow _ _ => true | _ => false) with
        bow := [], bowPtr := [], hwq := s.hwq.map fun e => (e.1, e.2.map free) }
    | 29 => { s.dropReads (fun r => match r.who with | .storage _ _ => true | _ => false) with stoCmds := [], connx := [] }
    | 30 | 31 => s.loseRange 0 (2 ^ 39) false
    | 32 => { s.zeroRange 0x010000000000 0x010001000000 with icuHold := [], icuStack := [], pegs := mcut s.pegs fun k => decide (k < 0x10000) }
    | _ => s

/-- A domain loses its power: nothing of it is kept (Table 16-2, depth 4; log entry 52). -/
def State.domainLost (s : State) (d : Nat) : State :=
  let s := (s.domainState d).clkRestart d
  { s with regs := s.regs.filter fun c => match regOf c.1 with
      | some r => regDomain r (c.1 % 2 ^ 40) != some d
      | none => true }

/-! ### The die -/

/-- Everything but Soundpost and what lies outside the die returns to its reset value, and the contents of DDR5 are lost. -/
def State.dieReset (s : State) : State :=
  { State.reset with
    regs := s.regs.filter fun c => match regOf c.1 with | some r => r.block == 0 | none => false
    lost := [⟨0, 2 ^ 39, s.free, false, none⟩]
    ns := s.ns
    free := s.free + 1
    out := s.out
    latch := s.latch
    errSec := s.errSec
    portPll := s.portPll
    ucBad := s.romBad
    strapBalls := s.strapBalls
    vddCore := s.vddCore
    hold := s.hold
    resetNs := s.ns
    bootNs := s.bootNs
    diceKeys := s.diceKeys
    diceSealed := s.diceSealed
    diceD := s.diceD
    diceSvn := s.diceSvn
    diceSlot := s.diceSlot
    diceDebug := s.diceDebug
    tid := s.tid
    spdmBox := s.spdmBox
    wdogNs := s.wdogNs
    wdogHeld := s.wdogHeld
    chalValid := s.chalValid
    jtagIr := s.jtagIr
    rngDead := s.rngDead
    spTestFail := s.spTestFail
    drbgCount := s.drbgCount
    seqLeft := s.seqLeft
    pending := s.pending }

/-- Something holds the die in reset. -/
def State.held_ (s : State) : Bool := s.hold.any fun c => c.2

/-- A hold begins or ends. -/
def State.setHold (s : State) (k : Nat) (b : Bool) : State := { s with hold := mset false s.hold k b }

/-- A fundamental reset, recorded under a bit of SP_RESET_CAUSE; `also` is set with it (R227, R380, R411, R448). The registers of
Soundpost whose heading names fundamental reset return to their reset values, and every memory without power too. The straps are sampled
(R209). Only a fundamental
reset at 90 °C or less ends the hold of a thermal trip (R412). -/
def State.fundReset (s : State) (cause : Nat) (also : List Nat) : State :=
  let s := s.crashLog 1 0xFF cause 0 0
  let c := s.rd Reg.SP_RESET_CAUSE 0
  let c := (cause :: also).foldl (fun c b => c ||| fieldAt 1 b) c
  let s := (s.wr Reg.SP_RESET_CAUSE 0 c).fset Fld.SP_RESET_CAUSE_LAST 0 cause
  let s := s.dieReset
  let s := { s with
    regs := s.regs.filter fun c => match regOf c.1 with | some r => r.resetBy == ResetBy.aon | none => false
    diceKeys := false
    diceSealed := false
    diceD := []
    diceSvn := 0
    diceSlot := 0
    diceDebug := false
    tid := 0
    spdmBox := []
    wdogNs := 0
    wdogHeld := false
    chalValid := false
    jtagIr := .idcode
    rngDead := false
    spTestFail := false
    drbgCount := 0
    bootNs := s.ns }
  let s := if s.fbit Fld.SP_TAMPER_TRIP_HELD 0 then s else s.setHold 2 false
  s.sampleStraps.emit .xspiReset

end Sys2Proof.Machine
end

