-- ==== Sys2Proof/Machine/Power.lean ====
section
/-! DEFINITION. Power domains: limits, budgets and allowed depths, entries and wakes, temperature, voltage and telemetry (chapter 16,
R411, R412, R414). -/

namespace Sys2Proof.Machine

/-! ### Limits (Table 16-1) -/

/-- The state of a connection: 0 IDLE, and others (Table 13-5). -/
def State.connIdle (s : State) : Bool := (s.listed Reg.STO_CONN_W0).all fun n => s.fget Fld.STO_CONN_W0_STATE n == 0

/-- Whether any link of a controller is up. -/
def State.pciUp (s : State) (k : Nat) : Bool :=
  s.fbit Fld.PCI_SEG_STATUS_LINK_UP (2 * k) || s.fbit Fld.PCI_SEG_STATUS_LINK_UP (2 * k + 1)

/-- A thread is idle: it is blocked reading a system channel (R84). -/
def Thread.idleRead (th : Thread) : Bool :=
  match th.st, th.wait with
  | .waitRd, some (.read _ k _ _) => decide (0x4000 ≤ k)
  | _, _ => false

/-- The deepest depth that the present condition of a domain permits (Table 16-1). -/
def State.domLimit (s : State) (d : Nat) : Nat :=
  if d < 4 then (if (List.range 8).any fun k => s.linkSt (8 * d + k) != 0 then 2 else 4)
  else if d < 6 then (if s.pciUp (d - 4) then 2 else 4)
  else if d < 14 then
    let c := d - 6
    let live := (s.threads.filter fun t => t.1 / 192 == c && t.2.st != .halted).map fun t => t.2
    if live.isEmpty then 4
    else if (live.all fun t => t.idleRead) && (s.threads.all fun t => t.1 / 192 != c || (t.2.engHeld == 0 && t.2.pkts.isEmpty)) then 3
    else 0
  else if d < 22 then
    let waits (k : Nat) : Bool := (mget Core.init s.cores k).running && (mget Core.init s.cores k).idling
    if waits (2 * (d - 14)) && waits (2 * (d - 14) + 1) then 3 else 0
  else match d with
    | 28 => if (s.listed Reg.BOW_CH_STATUS).all fun c => s.bowSt c == 0 then 4 else 3
    | 29 => if s.connIdle then 4 else 3
    | 32 => 1
    | 33 => if (List.range 33).all fun e => s.depth e != 0 then 1 else 0
    | _ => 2

/-! ### Budgets (R363, R364) -/

/-- The smaller of two budgets; none is no budget. -/
def minBudget : Option Nat → Option Nat → Option Nat
  | none, b => b
  | a, none => a
  | some a, some b => some (min a b)

/-- A 16-bit budget field: 0xFFFF is none. -/
def budgetOf (v : Nat) : Option Nat := if v = 0xFFFF then none else some v

/-- L(i): the LTR budget of the instance's PF in units of 10 ns, rounded down (R226, R363). -/
def State.ltrBudget (s : State) (i : Nat) : Option Nat :=
  let f := s.func (pfOf i)
  if f.ltr then some (min (ltrNs f.ltrSnoop) (ltrNs f.ltrNoSnoop) / 10) else none

/-- E(i) of an instance that is not OFF; none for one without Bus Master Enable or in D3hot (R230, R363). -/
def State.effBudget (s : State) (i : Nat) : Option Nat :=
  if s.instState i = 0 ∨ !s.usable i then none
  else minBudget (budgetOf (s.fget Fld.PWR_INST_BUD_LATBUD i)) (s.ltrBudget i)

/-- Whether a domain serves an instance (Table 16-1). -/
def State.serves (s : State) (d i : Nat) : Bool :=
  if d < 4 then (s.fget Fld.PWR_INST_BUD_PORTS i).testBit d
  else if d < 6 then ctlOf i == d - 4
  else if d < 14 then (s.fget Fld.PWR_INST_BUD_CLUS i).testBit (d - 6)
  else if d < 22 then false
  else match d with | 28 => false | 29 => s.fbit Fld.STO_CTRL_W0_NVME i | 32 => false | _ => true

/-- The instances that are not OFF. -/
def State.liveInsts (s : State) : List Nat := (s.listed Reg.CAPO_INST_STATUS).filter fun i => s.instState i != 0

/-- B: the smallest of BUDGET_CAP and E over the instances served (R364). -/
def State.domBudget (s : State) (d : Nat) : Option Nat :=
  (s.liveInsts.filter fun i => s.serves d i).foldl (fun b i => minBudget b (s.effBudget i)) (budgetOf (s.fget Fld.PWR_DOM_CFG_BUDGET_CAP d))

/-- The worst-case wake time of a depth, in ns (Table 16-2). -/
def wakeNs : Nat → Nat
  | 1 => 15 | 2 => 400 | 3 => 60000 | 4 => 5000000 | _ => 0

/-- need(d) in ns (R364). -/
def State.need (s : State) (d depth : Nat) : Nat :=
  let k := 256 - s.fget Fld.PWR_DOM_STATUS_LOAD d
  (wakeNs depth * 256 + k - 1) / k + 10 * s.fget Fld.PWR_DOM_CFG_FIXED d

/-- The deepest depth that MAX_DEPTH and the limit permit. -/
def State.deepest (s : State) (d : Nat) : Nat := min (min 4 (s.fget Fld.PWR_DOM_CFG_MAX_DEPTH d)) (s.domLimit d)

/-- The allowed depth (R364). With GOV_EN = 0 a CORE domain follows its requests and every other domain stays at depth 0. -/
def State.domAllowed (s : State) (d : Nat) : Nat :=
  if !s.fbit Fld.PWR_CFG_GOV_EN 0 then (if pwrCoreDomain d then s.deepest d else 0)
  else (List.range (s.deepest d)).foldl (fun a k =>
    match s.domBudget d with
    | none => k + 1
    | some b => if s.need d (k + 1) ≤ 10 * b then k + 1 else a) 0

/-- A read of PWR_DOM_STATUS: ALLOWED, LIMIT and BUDGET are computed as they stand. -/
def State.domStatus (s : State) (d : Nat) : Word :=
  let w := s.rd Reg.PWR_DOM_STATUS d
  let w := Fld.PWR_DOM_STATUS_ALLOWED.ins w (s.domAllowed d)
  let w := Fld.PWR_DOM_STATUS_LIMIT.ins w (s.domLimit d)
  Fld.PWR_DOM_STATUS_BUDGET.ins w ((s.domBudget d).getD 0xFFFF)

/-! ### Depths -/

/-- The µs a domain has spent at a depth (RESIDENCY). -/
def State.residency (s : State) (d k : Nat) : Nat :=
  (mget 0 s.pwrNs (8 * d + k) + (if s.depth d = k then s.ns - s.depthSince d else 0)) / 1000

/-- A domain's depth changes. -/
def State.setDepth (s : State) (d k : Nat) : State :=
  let old := s.depth d
  { s.fset Fld.PWR_DOM_STATUS_DEPTH d k with
    pwrNs := mset 0 s.pwrNs (8 * d + old) (mget 0 s.pwrNs (8 * d + old) + (s.ns - s.depthSince d))
    pwrSince := mset 0 s.pwrSince d s.ns }

/-- PHASE of a domain: 0 STEADY, 1 REQUESTING, 2 ENTERING, 3 WAKING. -/
def State.phase (s : State) (d : Nat) : Nat := s.fget Fld.PWR_DOM_STATUS_PHASE d
def State.setPhase (s : State) (d p : Nat) : State := s.fset Fld.PWR_DOM_STATUS_PHASE d p
/-- An entry or request ends with LAST_RESULT; one asked for by REQUEST raises source 538 (R366). -/
def State.domResult (s : State) (d r : Nat) (byReq : Bool) : State :=
  let s := s.fset Fld.PWR_DOM_STATUS_LAST_RESULT d r
  if byReq then s.irq 538 else s

/-- An entry to a depth begins: SLEEP_REQ (R367). -/
def State.enter (s : State) (d k : Nat) (byReq : Bool) : State :=
  { s.setPhase d 1 with pwrTarget := mset 0 s.pwrTarget d k, pwrByReq := mset false s.pwrByReq d byReq }

/-- A wake that an enabled source makes (R369): before ACK it aborts the entry, after ACK it reverses it, and otherwise it wakes a
sleeping domain. -/
def State.wakeOne (s : State) (d : Nat) : State :=
  let s := { s with wakeReq := mset false s.wakeReq d false }
  match s.phase d with
  | 1 =>
    let s := ((s.domResult d 2 (mget false s.pwrByReq d)).bump Fld.PWRC_ABORTS_COUNT).setPhase d (if s.depth d = 0 then 0 else 3)
    { s with pwrRev := mset false s.pwrRev d false }
  | 2 => { s.setPhase d 3 with pwrRev := mset false s.pwrRev d true }
  | 0 => if s.depth d = 0 then s else { s.setPhase d 3 with pwrRev := mset false s.pwrRev d false }
  | _ => s

/-- A wake (R369). A domain that wakes from depth 3 or 4 also wakes MEM0 and MEM1, which hold the save area (R361, R362). -/
def State.wakeStart (s : State) (d : Nat) : State :=
  (if s.phase d = 0 ∧ 3 ≤ s.depth d then (s.wakeOne 30).wakeOne 31 else s).wakeOne d

/-- Every domain that is deeper than its allowed depth is woken at once (R365). -/
def State.pwrUpdate (s : State) : State :=
  (s.listed Reg.PWR_DOM_STATUS).foldl (fun s d => if s.domAllowed d < s.depth d then s.wakeStart d else s) s

/-- EDGE_TO_PENDING (R350): Soundpost passes a latched edge to the ICU and clears the latch; the ICU's domain is ungated for it. -/
def execEdgeToPending (src : Fin 2048) (s : State) : Out :=
  .next (if mget false s.latch src then
      let t := if s.depth 32 = 0 then s else s.wakeStart 32
      { t with latch := mset false t.latch src false }.icuPend src
    else s)

/-! ### Entries (R366, R367) -/

/-- DOMAIN_IDLE_ENTRY (R366): with AUTO = 1 a domain that has been idle long enough goes deeper, as far as it is allowed. -/
def execDomainIdleEntry (d : Fin 34) (depth : Fin 5) (s : State) : Out :=
  let k := min depth.val (s.domAllowed d)
  .next (if s.fbit Fld.PWR_CFG_GOV_EN 0 && s.fbit Fld.PWR_DOM_CFG_AUTO d && s.phase d == 0 && decide (s.depth d < k) then s.enter d k false
    else s)

/-- REQUEST (R366): refused with LIMIT, then with BUDGET; ignored while PHASE ≠ 0. A depth the domain already has completes at once. -/
def State.domRequest (s : State) (d k : Nat) : State :=
  if s.phase d ≠ 0 then s
  else if s.deepest d < k then s.domResult d 5 true
  else if s.domAllowed d < k then s.domResult d 4 true
  else if k ≤ s.depth d then s.domResult d 1 true
  else s.enter d k true

/-- A write of PWR_DOM_CTL: WAKE wins over REQUEST. -/
def State.domCtl (s : State) (d : Nat) (v : Word) : State :=
  let s := s.fset Fld.PWR_DOM_CTL_REQ_DEPTH d (bits v 2 0)
  if bit v 31 then s.wakeStart d else if bit v 30 then s.domRequest d (bits v 2 0) else s
/-- DOMAIN_REQUEST (R366). -/
def execDomainRequest (d : Fin 34) (value : Word) (s : State) : Out := .next (s.domCtl d (value ||| fieldAt 1 30))
/-- DOMAIN_WAKE_WRITE (R368). -/
def execDomainWakeWrite (d : Fin 34) (value : Word) (s : State) : Out := .next (s.domCtl d (value ||| fieldAt 1 31))

/-- DOMAIN_ACK (R367). -/
def execDomainAck (d : Fin 34) (s : State) : Out := .next (if s.phase d = 1 then s.setPhase d 2 else s)

/-- The channels of a MEM domain in state `a` go to state `b`; `mark` notes that the depth did it (R399). -/
def State.memSleep (s : State) (d a b : Nat) (mark : Bool) : State :=
  (List.range 4).foldl (fun s k =>
    let c := 4 * (d - 30) + k
    if s.fget Fld.MEM_CH_BOOT_STATE c = a ∧ mget false s.pwrSelfRef c ≠ mark then
      { s.fset Fld.MEM_CH_BOOT_STATE c b with pwrSelfRef := mset false s.pwrSelfRef c mark }
    else s) s

/-- The DPA of a domain's save area (R362). -/
def State.saveArea (s : State) (d : Nat) : Nat := s.fget Fld.PWR_CFG_SAVE_BASE 0 * 2 ^ 28 + d * 2 ^ 22

/-- What the step to a depth does (Table 16-2): MEM channels enter self-refresh, a save fills the save area with data that only the
adapter reads, and a domain without power keeps nothing; a core domain that leaves depth 0 gives its interrupts up (R353). -/
def State.depthEffect (s : State) (d old k : Nat) : State :=
  let s := if (d = 30 ∨ d = 31) ∧ 2 ≤ k then s.memSleep d 2 4 true else s
  let s := if k = 3 then s.loseRange (s.saveArea d) (s.saveArea d + 2 ^ 22) true else s
  let s := if k = 4 then s.domainLost d else s
  if pwrCoreDomain d ∧ old = 0 then (s.icuAsleep (2 * (d - 14))).icuAsleep (2 * (d - 14) + 1) else s

/-- DEPTH_REACHED (R367). -/
def execDepthReached (d : Fin 34) (s : State) : Out :=
  if s.phase d ≠ 2 then .next s
  else
    let k := mget 0 s.pwrTarget d
    let s := ((s.setPhase d 0).setDepth d k).depthEffect d (s.depth d) k
    .next ((s.domResult d 1 (mget false s.pwrByReq d)).pwrUpdate)

/-! ### Wakes (R368, R369) -/

/-- Whether a source of Table 16-3 applies to a domain. -/
def wakeApplies (d : Nat) : Nat → Bool
  | 0 => true
  | 1 => [22, 23, 24, 25, 27, 28, 29].contains d
  | 2 => pwrCoreDomain d
  | _ => decide (d < 6)

/-- DOMAIN_WAKE (R368, R369): a source that is disabled, or that does not apply, leaves its event held; an ICU wake needs a request of the
interrupt controller. -/
def execDomainWake (d : Fin 34) (src : Option (Fin 4)) (s : State) : Out :=
  .next (match src with
    | none => s.wakeStart d
    | some b =>
      if wakeApplies d b && (s.fget Fld.PWR_DOM_CFG_WAKE_EN d).testBit b && (b.val != 2 || mget false s.wakeReq d) then s.wakeStart d
      else s)

/-- Whether the restore of a save area meets an uncorrectable read (R362): a line that is poisoned, a secret line without its key, or a line
that ECC cannot correct. What other writes to DDR5 have made undefined may be so marked. -/
def State.restoreFails (s : State) (d : Nat) (uncorr : Bool) : Bool × State :=
  let lo := s.saveArea d
  let bad := uncorr || s.fbit Fld.MEM_STATUS_KEY_ERASED 0 || decide (s.ddrCapacity < lo + 2 ^ 22) ||
    s.poison.any fun c => c.2 && decide (lo / 64 ≤ c.1) && decide (c.1 < (lo + 2 ^ 22) / 64)
  match s.lost.find? fun r => decide (r.lo < lo + 2 ^ 22) && decide (lo < r.hi) with
  | some r => if r.ecc then (bad, s) else let (b, s) := s.drawBool; (bad || b, s)
  | none => (bad, s)

/-- WAKE_COMPLETE (R361, R362, R367, R369). -/
def execWakeComplete (d : Fin 34) (uncorr : Bool) (s : State) : Out :=
  if s.phase d ≠ 3 then .next s
  else
    let old := s.depth d
    let rev := mget false s.pwrRev d
    let (fails, s) := if old = 3 then s.restoreFails d uncorr else (false, s)
    let s := if fails then (s.bump Fld.PWRC_RESTORE_ERR_COUNT).domainLost d else s
    let s := if rev then (s.domResult d 3 (mget false s.pwrByReq d)).bump Fld.PWRC_ABORTS_COUNT else s
    let s := { (s.setPhase d 0).setDepth d 0 with pwrRev := mset false s.pwrRev d false }
    let s := if d.val = 30 ∨ d.val = 31 then s.memSleep d 4 2 false else s
    .next (if pwrCoreDomain d then (s.icuAwake (2 * (d.val - 14))).icuAwake (2 * (d.val - 14) + 1) else s).pwrUpdate

/-- LOAD_WINDOW (R365): the busy fractions of the domains over the last 1 ms. -/
def execLoadWindow (loads : List Byte) (s : State) : Out :=
  .next (((loads.take 34).zipIdx.foldl (fun s (p : Byte × Nat) => s.fset Fld.PWR_DOM_STATUS_LOAD p.2 p.1.toNat) s).pwrUpdate)

/-- A write of PWR_INST_BUD or PWR_DOM_CFG. -/
def State.budgetPut (s : State) (r : RegDesc) (i : Nat) (v : Word) : State := (s.wr r i (writeFields false r (s.rd r i) v)).pwrUpdate
/-- BUDGET_WRITE (R363 to R365). -/
def execBudgetWrite (target : BudgetReg) (value : Word) (s : State) : Out :=
  .next (match target with
    | .inst i => s.budgetPut Reg.PWR_INST_BUD i value
    | .dom d => s.budgetPut Reg.PWR_DOM_CFG d value)

/-! ### Forced power-off (R411) -/

/-- Domains lose their power without the handshake; a POWER_OFF record names them. The record's CODE is not stated. -/
def State.forceOff (s : State) (mask : Nat) : State :=
  let (code, s) := s.drawNat
  let s := s.crashLog 0xA 0xFF code (BitVec.ofNat 64 mask) 0
  ((List.range 34).filter fun d => mask.testBit d).foldl (fun s d =>
    let old := s.depth d
    let s := { (s.setDepth d 4).setPhase d 0 with pwrRev := mset false s.pwrRev d false, wakeReq := mset false s.wakeReq d false }
    s.depthEffect d old 4) s

/-! ### Temperature, voltage, telemetry (R370, R371, R411, R412, R414) -/

/-- The throttle level after a reading (Table 16-6); Tj in 0.125 °C. A level is left for the one below it (log 51). -/
def nextLevel (level : Nat) (tj : Int) : Nat :=
  if 840 ≤ tj then 2
  else if level = 2 then (if tj ≤ 800 then 1 else 2)
  else if level = 1 then (if tj ≤ 760 then 0 else 1)
  else if 800 ≤ tj then 1 else 0

/-- The readings with their offsets (Table 17-9): the highest and the sensor that has it. -/
def State.hottest (s : State) (r : Vector (BitVec 16) 16) : Int × Nat :=
  (List.range 16).foldl (fun (b : Int × Nat) k =>
    let t := (r.toList.getD k 0).toInt + (BitVec.ofNat 16 (s.fget Fld.SP_TUNE_EFFECTIVE (128 + k))).toInt
    if k = 0 ∨ b.1 < t then (t, k) else b) (0, 0)

/-- The thermal trip (R411, R412): keys erased, every domain forced off, THERMTRIP_N asserted, the die held in reset. -/
def State.thermalTrip (s : State) (tj : Int) (sensor : Nat) : State :=
  let s := s.keyAlarm 2
  let (code, s) := s.drawNat
  let s := s.crashLog 3 0xFF code (BitVec.ofNat 64 sensor) (BitVec.ofInt 64 tj)
  let s := (s.forceOff (2 ^ 34 - 1)).dieReset
  let s := (List.range 34).foldl (fun s d => s.fset Fld.PWR_DOM_STATUS_DEPTH d 4) s
  ((s.setHold 2 true).fset Fld.SP_TAMPER_TRIP_HELD 0 1).emit (.thermtrip true)

/-- THERMAL_SAMPLE (R371, R411, R412, R414, R420). -/
def execThermalSample (readings : Vector (BitVec 16) 16) (s : State) : Out :=
  let (tj, sensor) := s.hottest readings
  let was := (BitVec.ofNat 16 (s.fget Fld.PWR_THERMAL_TJ 0)).toInt
  let level := s.fget Fld.PWR_THERMAL_LEVEL 0
  let next := nextLevel level tj
  let s := if s.fbit Fld.SP_TAMPER_TRIP_HELD 0 && decide (tj ≤ 720) then
      (s.fset Fld.SP_TAMPER_TRIP_HELD 0 0).emit (.thermtrip false) else s
  let s := if 920 ≤ tj ∧ !s.fbit Fld.SP_TAMPER_TRIP_HELD 0 then s.thermalTrip tj sensor
    else if tj < -360 ∧ -360 ≤ was then s.keyAlarm 2 else s
  let s := s.fset Fld.PWR_THERMAL_TJ 0 (BitVec.ofInt 16 tj).toNat
  .next (if next = level then s
    else
      let s := (s.fset Fld.PWR_THERMAL_LEVEL 0 next).irq 536
      if level = 0 then s.finc Fld.PWR_THERMAL_ENTRIES 0 else s)

/-- The target of VDD_CORE: the AVS entry of the present Tj band with the user retune, clamped (R370). -/
def State.avsTarget (s : State) : Nat × Nat :=
  let e := (Config.avsBand (BitVec.ofNat 16 (s.fget Fld.PWR_THERMAL_TJ 0)).toInt).val
  (min 800 (max 620 (BitVec.ofNat 16 (s.fget Fld.SP_TUNE_EFFECTIVE (152 + e))).toInt.toNat), e)

/-- AVS_STEP (R370): the voltage moves by at most 5 mV; a regulator that does not acknowledge stays where it is. -/
def execAvsStep (ack : Bool) (s : State) : Out :=
  let (t, e) := s.avsTarget
  let s := (s.fset Fld.PWR_AVS_MV 0 t).fset Fld.PWR_AVS_ENTRY 0 e
  let v := if s.vddCore < t then min t (s.vddCore + 5) else max t (s.vddCore - 5)
  .next (if v = s.vddCore then s
    else
      let s := s.emit (.avsCommand v)
      if ack then { s with vddCore := v } else s.bump Fld.PWRC_AVS_NAK_COUNT)

/-- TELEMETRY_SAMPLE (R414, Table 16-8). -/
def execTelemetrySample (rail : Fin 7) (mv : BitVec 16) (mw : BitVec 32) (s : State) : Out :=
  let s := (s.fset Fld.PWR_RAIL_MV rail mv.toNat).fset Fld.PWR_RAIL_MW rail mw.toNat
  .next (s.fset Fld.PWR_TOTAL_MW 0 ((List.range 7).map fun r => s.fget Fld.PWR_RAIL_MW r).sum)

end Sys2Proof.Machine
end

