-- ==== Sys2Proof/Machine/Tables.lean ====
section
/-! DEFINITION. The forwarding tables: windows and their elements, region locks and publish, lookups and searches, learning, ageing
and the shadow compare (R116 to R138). -/

namespace Sys2Proof.Machine

/-! ### Elements and windows (Table 05-2) -/

/-- An element of the tables: an on-chip slot of a bank, a slot of a bank's extension bucket, or a TCAM entry. -/
inductive ElemAt where
  | em (bank slot : Nat)
  | ext (bank bucket j : Nat)
  | tcam (i : Nat)
  deriving DecidableEq, Repr

/-- The DPA of an element, its size, and the bank number its counters go to (4 is the TCAM). -/
def elemAddr : ElemAt → Nat
  | .em b i => 0x010080000000 + 0x1000000 * b + 32 * i
  | .ext b k j => 0x010100000000 + 0x100000000 * b + 256 * k + 32 * j
  | .tcam i => 0x010084000000 + 64 * i
def elemSize : ElemAt → Nat
  | .tcam _ => 64
  | _ => 32
def elemBank : ElemAt → Nat
  | .em b _ => b
  | .ext b _ _ => b
  | .tcam _ => 4

/-- The element a DPA of the windows lies in; none where the access is unmapped (R117). -/
def State.elemAt (s : State) (a : Nat) : Option ElemAt :=
  match s.region a with
  | .table =>
    let o := a - 0x010080000000
    if o < 0x4000000 then some (.em (o / 0x1000000) (o % 0x1000000 / 32)) else some (.tcam ((o - 0x4000000) / 64))
  | .ext b =>
    let o := (a - 0x010100000000) % 0x100000000
    some (.ext b (o / 256) (o % 256 / 32))
  | _ => none

/-- The region number of a DPA (R116). -/
def tblRegion (a : Nat) : Nat := (a - 0x010080000000) / 32768

/-- The lock slot that holds a region (R127). -/
def State.lockOf (s : State) (region : Nat) : Option Nat :=
  (List.range 64).find? fun k => s.fbit Fld.TBL_LOCK_LOCK k && s.fget Fld.TBL_LOCK_REGION k == region

/-- Whether an element lies in a locked region. -/
def State.elemLocked (s : State) (e : ElemAt) : Bool := (s.lockOf (tblRegion (elemAddr e))).isSome

/-- The global index of an on-chip slot. -/
def emIx (b i : Nat) : Nat := b * 524288 + i

/-- The DDR5 address of an extension slot. -/
def State.extDpa (s : State) (b k j : Nat) : Nat := s.fget Fld.TBL_EM_BANK_EXT_BASE b * 2 ^ 32 + 256 * k + 32 * j

/-- The words 0 to 3 that the table itself holds. -/
def State.rawElem (s : State) (e : ElemAt) : List Word :=
  match e with
  | .em b i => [s.rd Reg.TBL_EM_SLOT_W0 (emIx b i), s.rd Reg.TBL_EM_SLOT_W1 (emIx b i), s.rd Reg.TBL_EM_SLOT_W2 (emIx b i),
      s.rd Reg.TBL_EM_SLOT_W3 (emIx b i)]
  | .ext b k j => (List.range 4).map fun n => s.mem64 (s.extDpa b k j + 8 * n)
  | .tcam i => [s.rd Reg.TBL_TCAM_W0 i, s.rd Reg.TBL_TCAM_W1 i, s.rd Reg.TBL_TCAM_W2 i, s.rd Reg.TBL_TCAM_W3 i]

/-- The bits of words 0 to 3 that exist. -/
def elemMask (e : ElemAt) (ws : List Word) : List Word :=
  let w (i : Nat) : Word := ws.getD i 0
  match e with
  | .tcam _ => [w 0 &&& (fieldAt 1 63 ||| fieldAt 0xFFFFFF 32 ||| fieldAt 0xFFFF 0), w 1, w 2, w 3]
  | _ => [w 0 &&& (fieldAt 0x1F 59 ||| fieldAt 0x3FFFFF 36 ||| fieldAt 0xFFFF 16), w 1 &&& fieldAt (2 ^ 48 - 1) 0, w 2, w 3]

/-- The contents as lookups, searches, the insert engine and the compare see them: through the draining overlay (R129). -/
def State.elem (s : State) (e : ElemAt) : List Word :=
  match (s.draining.reverse).find? fun o => o.addr == elemAddr e with
  | some o => o.words
  | none => s.rawElem e

/-- The contents as a window read returns them: with the pending overlay of the region's slot applied (R127). -/
def State.elemWindow (s : State) (e : ElemAt) : List Word :=
  let a := elemAddr e
  match s.lockOf (tblRegion a) with
  | some k => match (mget [] s.overlay k).find? fun o => o.addr == a with | some o => o.words | none => s.elem e
  | none => s.elem e

/-- Whether an overlay, pending or draining, answers a window read of an element. -/
def State.overlaid (s : State) (e : ElemAt) : Bool :=
  let a := elemAddr e
  s.draining.any (fun o => o.addr == a) ||
    match s.lockOf (tblRegion a) with
    | some k => (mget [] s.overlay k).any fun o => o.addr == a
    | none => false

/-- The DDR5 address of the first poisoned slot that a read of an extension window meets (R400, Table 18-5). -/
def State.extPoison (s : State) (a n : Nat) : Option Nat :=
  (List.range ((a + n + 31) / 32 - a / 32)).findSome? fun i =>
    match s.elemAt (32 * (a / 32 + i)) with
    | some (.ext b k j) =>
      if !s.overlaid (.ext b k j) && s.readsPoison (s.extDpa b k j) 32 then some (s.extDpa b k j) else none
    | _ => none

/-- Fields of a slot's word 0 (Table 05-4). -/
def emValid (w : Word) : Bool := bit w 63
def emVisible (w : Word) : Bool := bit w 63 && bit w 62
def emLearned (w : Word) : Bool := bit w 63 && bit w 61
def emAge (w : Word) : Nat := bits w 57 54
def emTable (w : Word) : Nat := bits w 53 48
def emInst (w : Word) : Nat := bits w 47 36
def emWithAge (w : Word) (a : Nat) : Word := (w &&& ~~~(fieldAt 15 54)) ||| fieldAt a 54

/-- The counts that follow an exact-match slot's contents: USED of the instance's learn cap, and the entries of its table. -/
def State.emCounts (s : State) (old new : Word) : State :=
  let s := if emLearned old then s.fsub Fld.TBL_LEARN_CAP_USED (emInst old) 1 else s
  let s := if emLearned new then s.fset Fld.TBL_LEARN_CAP_USED (emInst new) (s.fget Fld.TBL_LEARN_CAP_USED (emInst new) + 1) else s
  let s := if emValid old then { s with emCount := mset 0 s.emCount (emTable old) (mget 0 s.emCount (emTable old) - 1) } else s
  if emValid new then { s with emCount := mset 0 s.emCount (emTable new) (mget 0 s.emCount (emTable new) + 1) } else s

/-- The counts that follow what an element holds for lookups, as its contents change (R129, R134): an extension slot and an on-chip slot
count alike, a TCAM entry not at all. -/
def State.countElem (s : State) (e : ElemAt) (ws : List Word) : State :=
  match e with
  | .tcam _ => s
  | _ => s.emCounts ((s.elem e).getD 0 0) (ws.getD 0 0)

/-- An element of the table is written, as one atomic write. -/
def State.putElem (s : State) (e : ElemAt) (ws : List Word) : State :=
  let w (i : Nat) : Word := ws.getD i 0
  match e with
  | .em b i =>
    (((s.wr Reg.TBL_EM_SLOT_W0 (emIx b i) (w 0)).wr Reg.TBL_EM_SLOT_W1 (emIx b i) (w 1)).wr
      Reg.TBL_EM_SLOT_W2 (emIx b i) (w 2)).wr Reg.TBL_EM_SLOT_W3 (emIx b i) (w 3)
  | .ext b k j => s.storeBytes (s.extDpa b k j) ((ws.map wordBytesLE).flatten)
  | .tcam i =>
    let s := (((s.wr Reg.TBL_TCAM_W0 i (w 0)).wr Reg.TBL_TCAM_W1 i (w 1)).wr Reg.TBL_TCAM_W2 i (w 2)).wr Reg.TBL_TCAM_W3 i (w 3)
    s.fset Fld.TBL_TCAM_W4_PARITY i (Config.tcamParity (w 0) (w 1) (w 2) (w 3)).toNat

/-- An element is changed at once: where a published write of it has not drained, that write is replaced, so that the change is the
later one. -/
def State.setElem (s : State) (e : ElemAt) (ws : List Word) : State :=
  let a := elemAddr e
  let s := s.countElem e ws
  if s.draining.any fun o => o.addr == a then
    { s with draining := s.draining.map fun o => if o.addr == a then { o with words := ws } else o }
  else s.putElem e ws

/-! ### Frets (R124, R125) -/

/-- The fret an entry lies in: the valid fret of highest number whose BASE is not above it. -/
def State.fretOf (s : State) (i : Nat) : Option Nat :=
  ((List.range 64).reverse).find? fun f => s.fbit Fld.TBL_FRET_VALID f && decide (s.fget Fld.TBL_FRET_BASE f ≤ i)

/-- Whether a fret's range holds a prefix length. -/
def State.fretHolds (s : State) (f plen : Nat) : Bool :=
  decide (s.fget Fld.TBL_FRET_PLEN_LO f ≤ plen) && decide (plen ≤ s.fget Fld.TBL_FRET_PLEN_HI f)

/-- Whether R125 lets a TCAM entry be written. -/
def State.tcamOk (s : State) (i : Nat) (ws : List Word) : Bool :=
  let w0 := ws.getD 0 0
  let plen := bits w0 55 48
  !bit w0 63 || (decide (plen ≤ 128) && (match s.fretOf i with | some f => s.fretHolds f plen | none => false))

/-- The valid frets, in number order. -/
def State.validFrets (s : State) : List Nat := (List.range 64).filter fun f => s.fbit Fld.TBL_FRET_VALID f

/-- Whether neighbouring valid frets keep the order of R125. -/
def State.fretsOrdered (s : State) : List Nat → Bool
  | f :: g :: rest =>
    decide (s.fget Fld.TBL_FRET_BASE f < s.fget Fld.TBL_FRET_BASE g) &&
      decide (s.fget Fld.TBL_FRET_PLEN_HI g < s.fget Fld.TBL_FRET_PLEN_LO f) && s.fretsOrdered (g :: rest)
  | _ => true

/-- The TCAM entries that hold something, on chip or in the draining overlay. -/
def State.tcamUsed (s : State) : List Nat :=
  s.listed Reg.TBL_TCAM_W0 ++ s.draining.filterMap fun o =>
    if 0x010084000000 ≤ o.addr ∧ o.addr < 0x010084800000 then some ((o.addr - 0x010084000000) / 64) else none

/-- A write of TBL_FRET (R125). -/
def State.fretPut (s : State) (f : Nat) (v : Word) : State :=
  let t := s.wr Reg.TBL_FRET f (writeFields false Reg.TBL_FRET (s.rd Reg.TBL_FRET f) v)
  let lo := t.fget Fld.TBL_FRET_PLEN_LO f
  let hi := t.fget Fld.TBL_FRET_PLEN_HI f
  let moved := s.tcamUsed.any fun i =>
    let w0 := (s.elem (.tcam i)).getD 0 0
    bit w0 63 && s.fretOf i != t.fretOf i && (match t.fretOf i with | some g => !t.fretHolds g (bits w0 55 48) | none => false)
  if !t.fretsOrdered t.validFrets || hi < lo || 128 < hi || moved then s.fset Fld.TBL_STATUS_FRET_REFUSED 0 1 else t

/-- FRET_WRITE (R125). -/
def execFretWrite (fret : Fin 64) (value : Word) (s : State) : Out := .next (s.fretPut fret value)

/-! ### Window writes (R117, R127, R130) -/

/-- The elements the overlay holds, pending and draining. -/
def State.overlayCount (s : State) : Nat := (s.overlay.map fun c => c.2.length).sum + s.draining.length

/-- A whole element is written through its window. -/
def State.writeElem (s : State) (e : ElemAt) (ws : List Word) : State :=
  let a := elemAddr e
  let ws := elemMask e ws
  let refused := match e with | .tcam i => !s.tcamOk i ws | _ => false
  if refused then s.bump Fld.TBLC_EM_UNLOCKED_COUNT 4
  else match s.lockOf (tblRegion a) with
    | some k =>
      let ov := mget [] s.overlay k
      if ov.any fun o => o.addr == a then
        { s with overlay := mset [] s.overlay k (ov.map fun o => if o.addr == a then { o with words := ws } else o) }
      else if 4096 ≤ s.overlayCount then s.fset Fld.TBL_LOCK_OVERFLOW k 1
      else { s with overlay := mset [] s.overlay k (ov ++ [⟨k, a, ws⟩]) }
    | none =>
      match e with
      | .tcam _ => s.setElem e ws
      | _ => s.bump Fld.TBLC_EM_UNLOCKED_COUNT (elemBank e)

/-- Bytes as little-endian words. -/
def wordsOf (bs : List Byte) : List Word :=
  (List.range (bs.length / 8)).map fun k => BitVec.ofNat 64 (leNat ((bs.drop (8 * k)).take 8))

/-- A window write, applied one whole element at a time; a part of an element is dropped and counted in PARTIAL_WRITE. It ends at an
unmapped address. -/
def State.tblWrite (s : State) : Nat → Nat → List Byte → State
  | 0, _, _ => s
  | fuel + 1, a, bs =>
    if bs.isEmpty then s
    else match s.elemAt a with
      | none => s
      | some e =>
        let start := elemAddr e
        let n := min bs.length (start + elemSize e - a)
        let s := if n = elemSize e then s.writeElem e (wordsOf (bs.take n)) else s.bump Fld.TBLC_PARTIAL_WRITE_COUNT (elemBank e)
        s.tblWrite fuel (a + n) (bs.drop n)

/-- TABLE_WINDOW_WRITE (R117). -/
def execTableWindowWrite (dpa : Nat) (data : List Byte) (s : State) : Out := .next (s.tblWrite (data.length + 1) dpa data)

/-- Word 4 of a TCAM entry as a window read returns it: PARITY is that of the words the read returns (R127). -/
def State.tcamWord4 (s : State) (i : Nat) : Word :=
  let w4 := s.rd Reg.TBL_TCAM_W4 i
  if s.overlaid (.tcam i) then
    let ws := s.elemWindow (.tcam i)
    Fld.TBL_TCAM_W4_PARITY.ins w4 (Config.tcamParity (ws.getD 0 0) (ws.getD 1 0) (ws.getD 2 0) (ws.getD 3 0)).toNat
  else w4

/-- The bytes a window read returns at a DPA: eight words for a TCAM entry, four for a slot (R127). -/
def State.tblByte (s : State) (a : Nat) : Byte :=
  match s.elemAt a with
  | none => 0
  | some e =>
    let o := a - elemAddr e
    let w : Word := match e with
      | .tcam i => if o / 8 = 4 then s.tcamWord4 i else if 4 < o / 8 then 0 else (s.elemWindow e).getD (o / 8) 0
      | _ => (s.elemWindow e).getD (o / 8) 0
    w.extractLsb' (8 * (o % 8)) 8

/-! ### Region locks (R127 to R129) -/

/-- An element of a batch is published: lookups issued from now on see it, those issued before keep what it held, and the counts follow it
(R129, R134). -/
def State.publishElem (s : State) (o : OvEl) : State :=
  match s.elemAt o.addr with
  | none => s
  | some e =>
    let old : OvEl := { o with words := s.elem e }
    let keep (l : Lookup) : Lookup := if l.before.any fun b => b.addr == o.addr then l else { l with before := l.before ++ [old] }
    let s := s.countElem e o.words
    { s with lookups := s.lookups.map keep, draining := s.draining ++ [o] }

/-- A slot is released: its batch is published to the draining overlay, or discarded where OVERFLOW is set. -/
def State.releaseLock (s : State) (k : Nat) : State :=
  if !s.fbit Fld.TBL_LOCK_LOCK k then s
  else
    let ov := mget [] s.overlay k
    let s := { (s.fset Fld.TBL_LOCK_LOCK k 0) with overlay := mset [] s.overlay k [] }
    if s.fbit Fld.TBL_LOCK_OVERFLOW k then s.fset Fld.TBL_LOCK_DISCARDED k 1
    else ov.foldl (fun s o => s.publishElem o) (s.finc Fld.TBL_LOCK_GEN k)

/-- ABORT: the batch is discarded and the slot released without publishing. -/
def State.abortLock (s : State) (k : Nat) : State :=
  { (s.fset Fld.TBL_LOCK_LOCK k 0) with overlay := mset [] s.overlay k [] }

/-- The W1C bits of a write of TBL_LOCK. -/
def State.lockClears (s : State) (k : Nat) (v : Word) : State :=
  let s := if bit v 61 then s.fset Fld.TBL_LOCK_CONFLICT k 0 else s
  let s := if bit v 60 then s.fset Fld.TBL_LOCK_OVERFLOW k 0 else s
  if bit v 59 then s.fset Fld.TBL_LOCK_DISCARDED k 0 else s

/-- A write of TBL_LOCK, whichever of its three operations it is. A release is made before the write's W1C bits clear, so a batch that
overflowed is still discarded. -/
def State.lockWrite (s : State) (k : Nat) (v : Word) : State :=
  let region := Fld.TBL_LOCK_REGION.of v
  if bit v 62 then (s.abortLock k).lockClears k v
  else if bit v 63 then
    if s.fbit Fld.TBL_LOCK_LOCK k then s.lockClears k v
    else
      let s := (s.lockClears k v).fset Fld.TBL_LOCK_REGION k region
      if (s.lockOf region).isSome then s.fset Fld.TBL_LOCK_CONFLICT k 1 else s.fset Fld.TBL_LOCK_LOCK k 1
  else if s.fbit Fld.TBL_LOCK_LOCK k then (s.releaseLock k).lockClears k v
  else (s.lockClears k v).fset Fld.TBL_LOCK_REGION k region

/-- TABLE_LOCK (R127, R128): the write has LOCK = 1. -/
def execTableLock (slot : Fin 64) (value : Word) (s : State) : Out := .next (s.lockWrite slot (Fld.TBL_LOCK_ABORT.ins (Fld.TBL_LOCK_LOCK.ins value 1) 0))
/-- TABLE_RELEASE (R129): the write has LOCK = 0. -/
def execTableRelease (slot : Fin 64) (value : Word) (s : State) : Out := .next (s.lockWrite slot (Fld.TBL_LOCK_ABORT.ins (Fld.TBL_LOCK_LOCK.ins value 0) 0))
/-- TABLE_LOCK_ABORT (R129): the write has ABORT = 1. -/
def execTableLockAbort (slot : Fin 64) (value : Word) (s : State) : Out := .next (s.lockWrite slot (Fld.TBL_LOCK_ABORT.ins value 1))

/-- A write of TBL_PUBLISH releases every slot it names together, in ascending slot number. -/
def State.publish (s : State) (v : Word) : State := (List.range 64).foldl (fun s k => if bit v k then s.releaseLock k else s) s
/-- TABLE_PUBLISH (R129). -/
def execTablePublish (value : Word) (s : State) : Out := .next (s.publish value)

/-- OVERLAY_DRAIN (R129): one element drains into the table. -/
def execOverlayDrain (s : State) : Out :=
  match s.draining with
  | [] => .next s
  | o :: rest =>
    let s := { s with draining := rest }
    match s.elemAt o.addr with
    | some e => .next (s.putElem e o.words)
    | none => .next s

/-! ### Exact-match keys and buckets (R120) -/

/-- A key: table, instance and key words. -/
structure EmKey where
  table : Nat
  inst : Nat
  k0 : Nat
  k1 : Word
  two : Bool
  deriving DecidableEq, Repr

/-- The key an entry holds. -/
def State.emKeyOf (s : State) (ws : List Word) : EmKey :=
  let w0 := ws.getD 0 0
  ⟨emTable w0, emInst w0, bits (ws.getD 1 0) 47 0, ws.getD 2 0, s.fbit Fld.TBL_EM_TABLE_KEY_WORDS2 (emTable w0)⟩

/-- The hash of a key, its two buckets and its extension bucket. -/
def EmKey.hash (k : EmKey) : Word :=
  crc64 0 (natBE 1 k.table ++ natBE 2 k.inst ++ natBE 6 k.k0 ++ (if k.two then wordBytesBE k.k1 else []))
def EmKey.b1 (k : EmKey) : Nat := bits k.hash 16 0
def EmKey.b2 (k : EmKey) : Nat := k.b1 ^^^ (if bits k.hash 33 17 = 0 then 1 else bits k.hash 33 17)
def State.extBucket (s : State) (b : Nat) (k : EmKey) : Nat := bits k.hash 63 40 % 2 ^ s.fget Fld.TBL_EM_BANK_EXT_LOG2 b

/-- The slots of a bucket. -/
def emSlots (b bucket : Nat) : List ElemAt := (List.range 4).map fun j => .em b (4 * bucket + j)
def extSlots (b bucket : Nat) : List ElemAt := (List.range 8).map fun j => .ext b bucket j

/-- Whether a table's misses go to the extension: EXT = 1 and the bank has one. -/
def State.usesExt (s : State) (table b : Nat) : Bool := s.fbit Fld.TBL_EM_TABLE_EXT table && s.extBytes b != 0

/-- Whether an entry matches a key (R121). -/
def emMatches (k : EmKey) (ws : List Word) : Bool :=
  let w0 := ws.getD 0 0
  emVisible w0 && emTable w0 == k.table && emInst w0 == k.inst && bits (ws.getD 1 0) 47 0 == k.k0 && (ws.getD 2 0 == if k.two then k.k1 else 0)

/-- An element as a lookup sees it: as it was before any batch published since the lookup was issued (R129). -/
def State.elemSeen (s : State) (before : List OvEl) (e : ElemAt) : List Word :=
  match before.find? fun o => o.addr == elemAddr e with
  | some o => o.words
  | none => s.elem e

/-- The first match of a key on chip, in slot order of b1, then of b2, for a lookup. -/
def State.emSeen (s : State) (before : List OvEl) (b : Nat) (k : EmKey) : Option ElemAt :=
  (emSlots b k.b1 ++ emSlots b k.b2).find? fun e => emMatches k (s.elemSeen before e)
/-- The first match in the extension bucket, for a lookup. -/
def State.extSeen (s : State) (before : List OvEl) (b : Nat) (k : EmKey) : Option ElemAt :=
  (extSlots b (s.extBucket b k)).find? fun e => emMatches k (s.elemSeen before e)
/-- The first match of a key on chip and in the extension bucket, as the tables stand. -/
def State.emFind (s : State) (b : Nat) (k : EmKey) : Option ElemAt := s.emSeen [] b k
def State.extFind (s : State) (b : Nat) (k : EmKey) : Option ElemAt := s.extSeen [] b k

/-- The key under which the scanner remembers that an entry has been refreshed. -/
def freshKey : ElemAt → Nat
  | .em b i => emIx b i
  | .ext b k j => 2 ^ 32 + (b * 2 ^ 24 + k) * 8 + j
  | .tcam _ => 2 ^ 40
/-- AGE := 0, and refreshed since the last visit. -/
def State.emRefresh (s : State) (e : ElemAt) : State :=
  let ws := s.elem e
  let s := s.setElem e (ws.set 0 (emWithAge (ws.getD 0 0) 0))
  { s with emFresh := mset false s.emFresh (freshKey e) true }

/-! ### Notices (R135) -/

/-- A notice of Table 05-10. -/
def State.tblNotice (s : State) (event table : Nat) (tcam : Bool) (seq : Nat) (w1 k1 old new : Word) : State :=
  s.notice (s.fget Fld.TBL_NOTIFY_CFG_NOTIFY_CH 0) 256
    { src := 0xF03F,
      words := [fieldAt event 56 ||| fieldAt table 50 ||| fieldAt (b2n tcam) 49 ||| fieldAt (seq % 2 ^ 32) 0, w1, k1, old, new] }
    Fld.TBLC_NOTICE_LOST_COUNT

/-! ### Lookups (R118 to R121, R124, R136) -/

/-- What a lookup's result holds. -/
structure LkpResult where
  status : Nat
  hi : Nat
  ext : Bool
  index : Nat
  hit : Bool
  data : Word
  deriving DecidableEq, Repr

/-- A result without a hit. -/
def LkpResult.miss (status : Nat) : LkpResult := ⟨status, 0, false, 0, false, 0⟩

/-- A hit on an exact-match entry; AGE_ON_HIT refreshes it, where it is still the entry that the lookup saw. -/
def State.emHit (s : State) (before : List OvEl) (e : ElemAt) : LkpResult × State :=
  let ws := s.elemSeen before e
  let table := emTable (ws.getD 0 0)
  let r : LkpResult := match e with
    | .em b i => ⟨0, 0, false, emIx b i, true, ws.getD 3 0⟩
    | .ext _ k j => ⟨0, (k * 8 + j) / 2 ^ 21, true, (k * 8 + j) % 2 ^ 21, true, ws.getD 3 0⟩
    | .tcam i => ⟨0, 0, false, i, true, ws.getD 3 0⟩
  (r, if s.fbit Fld.TBL_EM_TABLE_AGE_ON_HIT table && s.elem e == ws then s.emRefresh e else s)

/-- An exact-match lookup. A lookup of a bucket written at its own DDR5 address answers nothing the spec states: `none`. -/
def State.emLookup (s : State) (l : Lookup) (extBusy : Bool) (ecc : EccEvent) : Option LkpResult × State :=
  let table := s.fget Fld.TBL_LKP_PROFILE_TABLE l.profile
  let b := s.fget Fld.TBL_EM_TABLE_BANK table
  if !s.fbit Fld.TBL_EM_TABLE_VALID table then (some (.miss 4), s)
  else
    let k : EmKey := ⟨table, bits (l.words.getD 0 0) 59 48, bits (l.words.getD 0 0) 47 0, l.words.getD 1 0,
      s.fbit Fld.TBL_EM_TABLE_KEY_WORDS2 table⟩
    let s := match ecc with | .corrected => s.bump Fld.TBLC_ECC_CORR_COUNT b | _ => s
    if ecc = .uncorrectable then (some (.miss 1), (s.bump Fld.TBLC_ECC_UNCORR_COUNT b).errReport 1 12 0 0)
    else match s.emSeen l.before b k with
      | some e => let (r, s) := s.emHit l.before e; (some r, s)
      | none =>
        if !s.usesExt table b then (some (.miss 0), s)
        else if extBusy then (some (.miss 3), s.bump Fld.TBLC_EXT_BUSY_COUNT b)
        else
          let bucket := s.extBucket b k
          if mget false s.extTaint (b * 2 ^ 24 + bucket) then (none, s)
          else match s.ddrRead (s.extDpa b bucket 0) 256 with
            | (none, s) => (some (.miss 1), s)
            | (some _, s) =>
              match s.extSeen l.before b k with
              | some e => let (r, s) := s.emHit l.before e; (some r, s)
              | none => (some (.miss 0), s)

/-- Whether a TCAM entry matches a search: TID, INSTANCE and VRF, and the top PLEN bits of ADDR. -/
def tcamMatches (ws : List Word) (tid inst vrf : Nat) (hi lo : Word) : Bool :=
  let w0 := ws.getD 0 0
  let plen := min 128 (bits w0 55 48)
  let a := (ws.getD 1 0).toNat * 2 ^ 64 + (ws.getD 2 0).toNat
  let b := hi.toNat * 2 ^ 64 + lo.toNat
  bit w0 63 && bits w0 47 44 == tid && bits w0 43 32 == inst && bits w0 15 0 == vrf && a / 2 ^ (128 - plen) == b / 2 ^ (128 - plen)

/-- The TCAM entries that match a search. -/
def State.tcamHits (s : State) (before : List OvEl) (tid inst vrf : Nat) (hi lo : Word) : List Nat :=
  let old := before.filterMap fun o => match s.elemAt o.addr with | some (.tcam i) => some i | _ => none
  (s.tcamUsed ++ old).filter fun i => tcamMatches (s.elemSeen before (.tcam i)) tid inst vrf hi lo

/-- The valid entry of lowest index that matches (R124). -/
def State.tcamFind (s : State) (tid inst vrf : Nat) (hi lo : Word) : Option Nat := (s.tcamHits [] tid inst vrf hi lo).min?

/-- An LPM search (R124, R136). An entry with bad parity may match though its words do not, or not match though they do; a hit on one ends
in STATUS PARITY. -/
def State.lpmSearch (s : State) (l : Lookup) (ecc : EccEvent) : LkpResult × State :=
  let w (i : Nat) : Word := l.words.getD i 0
  let hits := s.tcamHits l.before (s.fget Fld.TBL_LKP_PROFILE_TID l.profile) (bits (w 0) 59 48) (bits (w 0) 15 0) (w 1) (w 2)
  let hits := match ecc with
    | .falseHit i => i % 131072 :: hits
    | .falseMiss i => hits.filter fun j => j != i
    | _ => hits
  match hits.min? with
  | none => (.miss 0, s)
  | some i =>
    let ws := s.elemSeen l.before (.tcam i)
    if ecc = .parity || (match ecc with | .falseHit j => j % 131072 == i | _ => false) then
      let s := (s.bump Fld.TBLC_ECC_CORR_COUNT 4).errReport 1 12 0 (BitVec.ofNat 64 i)
      (.miss 2, s.tblNotice 7 0 true 0 (BitVec.ofNat 64 i) 0 (ws.getD 3 0) 0)
    else (⟨0, bits (ws.getD 0 0) 55 48, false, i, true, ws.getD 3 0⟩, s)

/-- The bank a lookup goes to: that of the table its profile names, or 4 for the TCAM. -/
def State.lkpBank (s : State) (profile : Nat) : Nat :=
  if s.fbit Fld.TBL_LKP_PROFILE_KIND profile then 4 else s.fget Fld.TBL_EM_TABLE_BANK (s.fget Fld.TBL_LKP_PROFILE_TABLE profile)

/-- The reply of a lookup: the result message goes to its channel and the thread's engine slot is freed. -/
def State.lkpReply (s : State) (l : Lookup) (bank : Nat) (w0 w1 : Word) : State :=
  s.engReply l.t l.ch { src := if bank = 4 then 0xF034 else 0xF030 + bank, words := [w0, w1] }

/-- LOOKUP_COMPLETE (R118 to R121, R124). -/
def execLookupComplete (bank : Fin 5) (extBusy : Bool) (ecc : EccEvent) (s : State) : Out :=
  match s.lookups.find? fun l => s.lkpBank l.profile == bank with
  | none => .next s
  | some l =>
    let s := { s with lookups := s.lookups.erase l }
    let (r, s) := if bank.val = 4 then (let (r, s) := s.lpmSearch l ecc; (some r, s)) else s.emLookup l extBusy ecc
    let s := s.bump Fld.TBLC_LOOKUPS_COUNT bank
    match r with
    | none =>
      let (a, s) := s.drawWord
      let (d, s) := s.drawWord
      .next (s.lkpReply l bank (fieldAt l.cookie 48 ||| fieldAt l.profile 40 ||| (a &&& fieldAt (2 ^ 40 - 1) 0)) d)
    | some r =>
      let s := if r.hit then s.bump Fld.TBLC_HITS_COUNT bank else s
      let w0 := fieldAt l.cookie 48 ||| fieldAt l.profile 40 ||| fieldAt r.status 32 ||| fieldAt r.hi 24 ||| fieldAt (b2n r.ext) 23 |||
        fieldAt r.index 1 ||| fieldAt (b2n r.hit) 0
      .next (s.lkpReply l bank w0 r.data)

/-! ### The insert engine (R122, R123) -/

/-- The insert engine and the scanner write the shadow of every on-chip change themselves (R137). -/
def State.shadowAddr (s : State) (e : ElemAt) : Nat :=
  s.fget Fld.TBL_SWEEP_CFG_SHADOW_BASE 0 * 2 ^ 27 + (elemAddr e - 0x010080000000)
def State.writeShadow (s : State) (e : ElemAt) : State :=
  match e with
  | .em _ _ => if s.ddrCapacity < s.shadowAddr e + 32 then s else s.storeBytes (s.shadowAddr e) (((s.elem e).map wordBytesLE).flatten)
  | _ => s
/-- An engine's change of an element, with its shadow. -/
def State.engineSet (s : State) (e : ElemAt) (ws : List Word) : State := (s.setElem e ws).writeShadow e

/-- The lowest free slot among some. -/
def State.freeSlot (s : State) (es : List ElemAt) : Option ElemAt := es.find? fun e => !emValid ((s.elem e).getD 0 0)

/-- Whether a bucket lies in a locked region. -/
def State.bucketLocked (s : State) (b bucket : Nat) : Bool := s.elemLocked (.em b (4 * bucket))

/-- The other candidate bucket of the entry in a slot of bucket `a`. -/
def State.otherBucket (s : State) (e : ElemAt) (a : Nat) : Nat :=
  let k := s.emKeyOf (s.elem e)
  if k.b1 = a then k.b2 else k.b1

/-- A path of relocations that frees a slot of a bucket (R122 step 2): depth first, with victims in slot order, at most `n`
relocations. It answers the moves in the order in which they are carried out, and the slot freed. -/
def State.kickPath (s : State) (b : Nat) : Nat → List ElemAt → Nat → Option (List (ElemAt × ElemAt) × ElemAt)
  | 0, _, _ => none
  | n + 1, visited, a =>
    (emSlots b a).findSome? fun x =>
      if visited.contains x then none
      else
        let o := s.otherBucket x a
        if s.bucketLocked b o then none
        else match s.freeSlot (emSlots b o) with
          | some y => some ([(x, y)], x)
          | none => (s.kickPath b n (x :: visited) o).map fun p => (p.1 ++ [(x, p.2)], x)

/-- One relocation from slot x to the free slot y (R123): the copy has GEN = 1; AGE of Y is the smaller of the two, which are equal where no lookup comes
between the three steps. -/
def State.relocate (s : State) (b : Nat) (x y : ElemAt) : State :=
  let ws := s.elem x
  let ws := ws.set 0 (ws.getD 0 0 ||| fieldAt 1 62)
  let fresh := mget false s.emFresh (freshKey x)
  let s := (s.engineSet y ws).engineSet x [0, 0, 0, 0]
  { (s.bump Fld.TBLC_RELOCATIONS_COUNT b) with
    emFresh := mset false (mset false s.emFresh (freshKey y) fresh) (freshKey x) false }

/-- The slot R122 frees for a new key, with the relocations carried out; none where the insertion fails with FULL. -/
def State.placeKey (s : State) (b : Nat) (k : EmKey) : Option (ElemAt × State) :=
  match s.freeSlot (emSlots b k.b1 ++ emSlots b k.b2) with
  | some e => some (e, s)
  | none =>
    match [k.b1, k.b2].findSome? (s.kickPath b (s.fget Fld.TBL_EM_BANK_MAX_KICKS b) []) with
    | some (moves, e) => some (e, moves.foldl (fun s m => s.relocate b m.1 m.2) s)
    | none =>
      if s.usesExt k.table b then (s.freeSlot (extSlots b (s.extBucket b k))).map fun e => (e, s) else none

/-! ### Learning (R131 to R133) -/

/-- The timestamp domain's count in ms, modulo 65,536. -/
def State.nowMs (s : State) : Nat := s.time / 4000000 % 65536

/-- The fields of a learn request. -/
def learnOp (m : Msg) : Nat := bits (m.word 0) 39 38
def learnTable (m : Msg) : Nat := bits (m.word 0) 37 32
def State.learnKey (s : State) (m : Msg) : EmKey :=
  let two := s.fbit Fld.TBL_EM_TABLE_KEY_WORDS2 (learnTable m)
  ⟨learnTable m, bits (m.word 1) 59 48, bits (m.word 1) 47 0, if two then m.word 2 else 0, two⟩
def State.learnData (s : State) (m : Msg) : Word := if s.fbit Fld.TBL_EM_TABLE_KEY_WORDS2 (learnTable m) then m.word 3 else m.word 2
/-- Whether a request is well formed: its table is in use and its length agrees with OP and table. -/
def State.learnOk (s : State) (m : Msg) : Bool :=
  let base := if s.fbit Fld.TBL_EM_TABLE_KEY_WORDS2 (learnTable m) then 3 else 2
  s.fbit Fld.TBL_EM_TABLE_VALID (learnTable m) && decide (learnOp m ≤ 1) &&
    m.words.length == (if learnOp m = 0 then base + 1 else base)

/-- The serializer's reply. -/
def State.learnReply (s : State) (b seq : Nat) (m : Msg) (result : Nat) : State :=
  let ch := bits (m.word 0) 63 48
  if ch = 0 then s
  else s.unitReply ch
    { src := 0xF038 + b
      words := [fieldAt (bits (m.word 0) 47 40) 56 ||| fieldAt (result % 256) 48 ||| fieldAt (seq % 2 ^ 32) 0] }

/-- A notice of a learn event. -/
def State.learnNotice (s : State) (event seq : Nat) (k : EmKey) (old new : Word) : State :=
  s.tblNotice event k.table false seq (fieldAt k.inst 48 ||| fieldAt k.k0 0) k.k1 old new

/-- The location bits of DATA. -/
def State.location (s : State) (table : Nat) (d : Word) : Nat :=
  (d.toNat >>> s.fget Fld.TBL_EM_TABLE_MOVE_POS table) % 2 ^ (s.fget Fld.TBL_EM_TABLE_MOVE_LENM1 table + 1)

/-- Whether a move of an entry falls inside the damping window (R132). -/
def State.inWindow (s : State) (table : Nat) (w0 : Word) : Bool :=
  bit w0 59 && decide ((s.nowMs + 65536 - bits w0 31 16) % 65536 < min 10000 (s.fget Fld.TBL_EM_TABLE_DAMP_MS table))

/-- Word 0 with RECENT = 1 and MV_STAMP = now. -/
def State.stamped (s : State) (w0 : Word) : Word := (w0 &&& ~~~(fieldAt 0xFFFF 16)) ||| fieldAt 1 59 ||| fieldAt s.nowMs 16

/-- The visible entry of a key, on chip or in the extension. -/
def State.learnFind (s : State) (b : Nat) (k : EmKey) : Option ElemAt :=
  match s.emFind b k with
  | some e => some e
  | none => if s.usesExt k.table b then s.extFind b k else none

/-- One well-formed request is processed (Table 05-9). -/
def State.learnRun (s : State) (b seq : Nat) (m : Msg) : State :=
  let k := s.learnKey m
  let data := s.learnData m
  match s.learnFind b k with
  | none =>
    if learnOp m = 1 then s.learnReply b seq m 8
    else if s.fget Fld.TBL_LEARN_CAP_CAP k.inst ≤ s.fget Fld.TBL_LEARN_CAP_USED k.inst then
      (s.bump Fld.TBLC_QUOTA_COUNT b).learnReply b seq m 7
    else match s.placeKey b k with
      | none => ((s.bump Fld.TBLC_LEARN_FULL_COUNT b).learnNotice 4 seq k 0 data).learnReply b seq m 6
      | some (e, s) =>
        let w0 := s.stamped (fieldAt 7 61 ||| fieldAt k.table 48 ||| fieldAt k.inst 36)
        let s := s.engineSet e [w0, fieldAt k.k0 0, k.k1, data]
        { s with emFresh := mset false s.emFresh (freshKey e) false }.learnReply b seq m 0
  | some e =>
    let ws := s.elem e
    let w0 := ws.getD 0 0
    let old := ws.getD 3 0
    if !emLearned w0 then s.learnReply b seq m 5
    else if learnOp m = 1 then (s.engineSet e [0, 0, 0, 0]).learnReply b seq m 9
    else if bit w0 60 then s.learnReply b seq m 4
    else if s.location k.table old = s.location k.table data then
      let s := s.engineSet e [emWithAge w0 0, ws.getD 1 0, ws.getD 2 0, data]
      { s with emFresh := mset false s.emFresh (freshKey e) true }.learnReply b seq m 1
    else if s.inWindow k.table w0 then
      let s := (s.engineSet e [w0 ||| fieldAt 1 60, ws.getD 1 0, ws.getD 2 0, old]).bump Fld.TBLC_DAMPED_COUNT b
      (s.learnNotice 2 seq k old data).learnReply b seq m 3
    else
      let s := (s.engineSet e [s.stamped w0, ws.getD 1 0, ws.getD 2 0, data]).bump Fld.TBLC_MOVES_COUNT b
      (s.learnNotice 1 seq k old data).learnReply b seq m 2

/-- Whether a key's candidate buckets or extension bucket lie in a locked region (R133). -/
def State.keyLocked (s : State) (b : Nat) (k : EmKey) : Bool :=
  s.bucketLocked b k.b1 || s.bucketLocked b k.b2 || (s.usesExt k.table b && s.elemLocked (.ext b (s.extBucket b k) 0))

/-- Whether a parked request of a bank waits for the same key. -/
def State.parkedKey (s : State) (b : Nat) (k : EmKey) (before : Nat) : Bool :=
  s.parked.any fun p => p.bank == b && decide (p.seq < before) && s.learnKey p.msg == k

/-- The parked request of a bank that can go on: the first in SEQ order whose buckets are unlocked and that waits behind none of its
own key. -/
def State.resumable (s : State) (b : Nat) : Option Parked :=
  s.parked.find? fun p => p.bank == b && !s.keyLocked b (s.learnKey p.msg) && !s.parkedKey b (s.learnKey p.msg) p.seq

/-- A request is taken by the serializer of its table's bank: stamped, and processed, refused or parked. -/
def State.learnTake (s : State) (m : Msg) : State :=
  let b := s.fget Fld.TBL_EM_TABLE_BANK (learnTable m)
  let seq := mget 0 s.learnSeq b
  let s := { s with learnSeq := mset 0 s.learnSeq b (seq + 1) }
  if !s.learnOk m then
    let (r, s) := (s.bump Fld.TBLC_LEARNS_COUNT b).drawNat
    s.learnReply b seq m r
  else if s.keyLocked b (s.learnKey m) || s.parkedKey b (s.learnKey m) seq then
    { (s.bump Fld.TBLC_PARKED_COUNT b) with parked := s.parked ++ [⟨b, seq, m⟩] }
  else (s.bump Fld.TBLC_LEARNS_COUNT b).learnRun b seq m

/-- Whether the serializer of a request's bank can take it: room to park, and no parked request that goes first (R133). -/
def State.learnReady (s : State) (m : Msg) : Bool :=
  let b := s.fget Fld.TBL_EM_TABLE_BANK (learnTable m)
  decide ((s.parked.filter fun p => p.bank == b).length < 256) && (s.resumable b).isNone

/-- LEARN (R131): the request at the front of a section of channel 0x8002, unless its OP is 1. -/
def execLearn (sec : Fin 9) (s : State) : Out :=
  match s.takeUnit 0x8002 sec with
  | some (m, t) => if learnOp m = 1 || !s.learnReady m then .next s else .next (t.learnTake m)
  | none => .next s

/-- UNLEARN (R131): OP 1. -/
def execUnlearn (sec : Fin 9) (s : State) : Out :=
  match s.takeUnit 0x8002 sec with
  | some (m, t) => if learnOp m ≠ 1 || !s.learnReady m then .next s else .next (t.learnTake m)
  | none => .next s

/-- PARKED_RESUME (R133): the next parked request of a bank that can go on is processed. -/
def execParkedResume (bank : Fin 4) (s : State) : Out :=
  match s.resumable bank with
  | some p =>
    let s := { s with parked := s.parked.erase p }.bump Fld.TBLC_LEARNS_COUNT bank
    if s.learnOk p.msg then .next (s.learnRun bank p.seq p.msg)
    else
      let (r, s) := s.drawNat
      .next (s.learnReply bank p.seq p.msg r)
  | none => .next s

/-! ### Ageing (R132, R134) -/

/-- The scanner's visit to one slot. -/
def State.emAgeSlot (s : State) (ageDue : Bool) (e : ElemAt) : State :=
  let ws := s.elem e
  let w0 := ws.getD 0 0
  if !emValid w0 then s
  else
    let w1 := if bit w0 59 && 16384 ≤ (s.nowMs + 65536 - bits w0 31 16) % 65536 then w0 &&& ~~~(fieldAt 1 59) else w0
    let fresh := mget false s.emFresh (freshKey e)
    let due := ageDue && emLearned w0
    let w2 := if due && !fresh then emWithAge w1 (min 15 (emAge w1 + 1)) else w1
    let s := if due then { s with emFresh := mset false s.emFresh (freshKey e) false } else s
    let table := emTable w0
    let idle := s.fget Fld.TBL_EM_TABLE_IDLE_TO table
    if due && idle != 0 && idle ≤ emAge w2 then
      let k := s.emKeyOf ws
      (s.engineSet e [0, 0, 0, 0]).learnNotice 3 0 k (ws.getD 3 0) 0
    else if w2 = w0 then s
    else s.engineSet e (ws.set 0 w2)

/-- EM_AGE_SCAN (R132, R134). With AGE_PERIOD = 0 nothing ages. -/
def execEmAgeScan (bank : Fin 4) (ext : Bool) (bucket : Nat) (ageDue : Bool) (s : State) : Out :=
  let due := ageDue && s.fget Fld.TBL_EM_BANK_AGE_PERIOD bank != 0
  if ext then
    if s.extBytes bank ≤ 256 * bucket then .next s
    else .next ((extSlots bank bucket).foldl (fun s e => s.emAgeSlot due e) s)
  else if 131072 ≤ bucket then .next s
  else .next ((emSlots bank bucket).foldl (fun s e => s.emAgeSlot due e) s)

/-! ### The shadow compare (R137, R138) -/

/-- The element an index names. -/
def cmpElem (tcam : Bool) (index : Nat) : ElemAt := if tcam then .tcam index else .em (index / 524288) (index % 524288)

/-- The fields the compare covers. -/
def cmpFields (tcam : Bool) (ws : List Word) : List Word :=
  if tcam then ws
  else ws.set 0 (ws.getD 0 0 &&& (fieldAt 1 63 ||| fieldAt 3 60 ||| fieldAt 0x3FFFF 36))

/-- The shadow of an element: its words 0 to 3, or none where they cannot be read. -/
def State.readShadow (s : State) (e : ElemAt) : Option (List Word) × State :=
  let (bs, s) := s.ddrRead (s.shadowAddr e) 32
  (bs.map fun bs => elemMask e (wordsOf bs), s)

/-- The order of R124 at a TCAM entry: no valid entry of lower index in its fret has a smaller PLEN. -/
def State.fretOrderOk (s : State) (i : Nat) : Bool :=
  let w0 := (s.elem (.tcam i)).getD 0 0
  !bit w0 63 || (s.tcamUsed.all fun j =>
    let v0 := (s.elem (.tcam j)).getD 0 0
    !(decide (j < i) && bit v0 63 && s.fretOf j == s.fretOf i && decide (bits v0 55 48 < bits w0 55 48)))

/-- Records the element of a mismatch or an order violation in TBL_STATUS. -/
def State.tblLast (s : State) (tcam : Bool) (index : Nat) : State :=
  (s.fset Fld.TBL_STATUS_LAST_TCAM 0 (b2n tcam)).fset Fld.TBL_STATUS_LAST_INDEX 0 index

/-- The order of R124 is checked at a TCAM entry: the first violation of a pass sets FRET_ORDER and is the latest violation (R138). -/
def State.orderCheck (s : State) (index : Nat) : State :=
  if s.fretOrderOk index || s.orderSeen then s
  else { (s.fset Fld.TBL_STATUS_FRET_ORDER 0 1).tblLast true index with orderSeen := true }

/-- A TCAM pass ends with its last entry. -/
def State.passEnd (s : State) (index : Nat) : State :=
  if index = 131071 then { s.finc Fld.TBL_STATUS_TCAM_PASSES 0 with orderSeen := false } else s

/-- SHADOW_COMPARE (R136 to R138). Locked regions and elements still draining are skipped. -/
def execShadowCompare (tcam : Bool) (index : Nat) (ecc : EccEvent) (s : State) : Out :=
  let e := cmpElem tcam index
  let on := if tcam then s.fbit Fld.TBL_SWEEP_CFG_TCAM_EN 0 else s.fbit Fld.TBL_SWEEP_CFG_EM_EN 0
  if !on || (if tcam then 131072 else 2097152) ≤ index then .next s
  else
    let skip := s.elemLocked e || s.draining.any fun o => o.addr == elemAddr e
    let s := if tcam then (if skip then s else s.orderCheck index).passEnd index else s
    if skip then .next s
    else
      let b := elemBank e
      let s := match ecc with
        | .clean | .falseHit _ | .falseMiss _ => s
        | .uncorrectable => (s.bump Fld.TBLC_ECC_UNCORR_COUNT b).errReport 1 12 0 (BitVec.ofNat 64 index)
        | .corrected => s.bump Fld.TBLC_ECC_CORR_COUNT b
        | .parity => (s.bump Fld.TBLC_ECC_CORR_COUNT b).errReport 1 12 0 (BitVec.ofNat 64 index)
      let forced := ecc == .uncorrectable || ecc == .parity
      match s.readShadow e with
      | (none, s) => .next (s.fset Fld.TBL_STATUS_SHADOW_ERR 0 1)
      | (some sh, s) =>
        let live := s.elem e
        if !forced && cmpFields tcam live == cmpFields tcam sh then .next s
        else .next { s with tblDiffs := s.tblDiffs ++ [⟨tcam, index, live, sh, forced⟩] }

/-- SHADOW_RECHECK (R138). -/
def execShadowRecheck (tcam : Bool) (index : Nat) (s : State) : Out :=
  match s.tblDiffs.find? fun d => d.tcam == tcam && d.index == index with
  | none => .next s
  | some d =>
    let s := { s with tblDiffs := s.tblDiffs.erase d }
    let e := cmpElem tcam index
    if s.elemLocked e || s.draining.any fun o => o.addr == elemAddr e then .next s
    else match s.readShadow e with
    | (none, s) => .next (s.fset Fld.TBL_STATUS_SHADOW_ERR 0 1)
    | (some sh, s) =>
      let live := s.elem e
      let same := cmpFields tcam live == cmpFields tcam d.live && cmpFields tcam sh == cmpFields tcam d.shadow
      if !same || (!d.forced && cmpFields tcam live == cmpFields tcam sh) then .next s
      else
        let b := elemBank e
        let s := ((s.bump Fld.TBLC_MISMATCH_COUNT b).fset Fld.TBL_STATUS_MISMATCH 0 1).tblLast tcam index
        let s := s.tblNotice 5 0 tcam 0 (BitVec.ofNat 64 index) 0 (live.getD 3 0) 0
        if s.fbit Fld.TBL_SWEEP_CFG_REPAIR 0 then
          let s := (s.setElem e sh).bump Fld.TBLC_REPAIRED_COUNT b
          .next ((s.tblNotice 6 0 tcam 0 (BitVec.ofNat 64 index) 0 (live.getD 3 0) 0).errReport 2 12 0 (BitVec.ofNat 64 index))
        else .next s

/-- Register writes of TBL_EM_TABLE and TBL_EM_BANK: DAMP_MS and MAX_KICKS store 1 for 0; BANK and KEY_WORDS2 keep their values while
any slot holds an entry of the table. -/
def State.emTableWrite (s : State) (t : Nat) (v : Word) : State :=
  let old := s.rd Reg.TBL_EM_TABLE t
  let v := writeFields false Reg.TBL_EM_TABLE old v
  let v := if Fld.TBL_EM_TABLE_DAMP_MS.of v = 0 then Fld.TBL_EM_TABLE_DAMP_MS.ins v 1 else v
  let v := if mget 0 s.emCount t = 0 then v
    else Fld.TBL_EM_TABLE_KEY_WORDS2.ins (Fld.TBL_EM_TABLE_BANK.ins v (Fld.TBL_EM_TABLE_BANK.of old)) (Fld.TBL_EM_TABLE_KEY_WORDS2.of old)
  s.wr Reg.TBL_EM_TABLE t v
def State.emBankWrite (s : State) (b : Nat) (v : Word) : State :=
  let v := writeFields false Reg.TBL_EM_BANK (s.rd Reg.TBL_EM_BANK b) v
  s.wr Reg.TBL_EM_BANK b (if Fld.TBL_EM_BANK_MAX_KICKS.of v = 0 then Fld.TBL_EM_BANK_MAX_KICKS.ins v 1 else v)

end Sys2Proof.Machine
end

