-- ==== Sys2Proof/Machine/Capo.lean ====
section
/-! DEFINITION. Instances and Capo: states and generations, the reset point, scrub, freeze and the ledger, save, restore and unfreeze, the
PF mailbox, and page logging (R271 to R298). -/

namespace Sys2Proof.Machine

def State.setInstState (s : State) (i st : Nat) : State := s.fset Fld.CAPO_INST_STATUS_STATE i st
/-- An operation ends with a RESULT. -/
def State.capoResult (s : State) (i r : Nat) : State := s.fset Fld.CAPO_INST_STATUS_RESULT i r
/-- An operation ends with a RESULT and the Capo interrupt. -/
def State.capoDone (s : State) (i r : Nat) : State := (s.capoResult i r).irq 532
/-- The generation of an instance increments (R271). -/
def State.nextGen (s : State) (i : Nat) : State :=
  { s.fset Fld.CAPO_INST_STATUS_GEN i (s.gen i + 1) with genCount := mset 0 s.genCount i (s.gen i + 1) }

/-- The rings of a kind that were enabled for an instance. -/
def State.ringsOf (s : State) (k i : Nat) : List Nat := (s.liveRings k).filter fun n => (s.ringX k n).inst == i

/-! ### The reset point (R281, R282) -/

/-- The host reads of an instance are abandoned. A read that a PF makes for another instance fails to its issuer. -/
def State.orphanReads (s : State) (i : Nat) : State :=
  let other (r : HostRead) : Bool := match r.who with | .pageLog j | .image j => j != i | _ => false
  { s with hreads := (s.hreads.filter fun r => r.inst != i || other r).map fun r =>
      if r.inst == i && r.res.isNone then { r with res := some .fail } else r }

/-- The posted writes of an instance that wait are suppressed, each counted; a page-log entry among them is lost (R281, Table 12-4). -/
def State.orphanWrites (s : State) (i : Nat) : State :=
  let ws := s.writesOf i
  let s := (s.fadd Fld.CAPOC_ORPHAN_WRITES_COUNT 0 ws.length).setWrites i []
  ws.foldl (fun s w => match w.owner with | .pageLog j => s.fset Fld.CAPO_LOG_STATUS_LOG_LOST j 1 | _ => s) s

/-- The transmit jobs and the unsent NVMe commands of an instance are gone, with every host read and every waiting write of it, and the
vectors it has pending. -/
def State.dropJobs (s : State) (i : Nat) : State :=
  { (s.orphanReads i).orphanWrites i with
    txJobs := s.txJobs.filter fun j => j.2.inst != i
    stoCmds := s.stoCmds.filter fun c => !(c.2.inst == i && !c.2.detached && c.2.stage != .sent)
    msixPba := mcut s.msixPba fun k => k / 2048 == i }

/-- The DPA of an instance's ledger, and the ledger emptied. -/
def State.ledgerClear (s : State) (i : Nat) : State := s.storeBytes (s.ledgerAddr i 0 0) (List.replicate 6144 0)

/-- A Capo operation in progress ends ABORTED, and the ledger is discarded. -/
def State.capoAbort (s : State) (i : Nat) : State :=
  if 3 ≤ s.instState i then
    let s := ((s.ledgerClear i).capoResult i 9).dropReads fun r => r.who == .image i
    if s.fbit Fld.CAPO_XFER_STATUS_BUSY 0 && s.fget Fld.CAPO_XFER_STATUS_INSTANCE 0 == i then s.fset Fld.CAPO_XFER_STATUS_BUSY 0 0 else s
  else s

/-- The reset point: the generation increments, every ring goes, and the older work is orphaned. `off`: the reset ends in OFF. -/
def State.resetPoint (s : State) (i : Nat) (off : Bool) : State :=
  let s := (s.capoAbort i).nextGen i
  let s := [0, 1, 2].foldl (fun s k => (s.ringsOf k i).foldl (fun s n => s.ringOff k n) s) s
  let s := ((s.dropJobs i).fset Fld.CAPO_INST_CTL_LOG_EN i 0).ucPendInst i 1
  { s.setInstState i 2 with capoOff := mset false s.capoOff i off }

/-- RESET or DESTROY of an instance (Table 12-1); in OFF neither has a row. -/
def State.instReset (s : State) (i : Nat) (destroy : Bool) : State :=
  match s.instState i with
  | 0 => s.capoResult i 1
  | 2 => { s with capoOff := mset false s.capoOff i (destroy || mget false s.capoOff i) }
  | 4 => s.resetPoint i (destroy || s.fbit Fld.CAPO_INST_STATUS_SAVED i)
  | _ => s.resetPoint i destroy

/-! ### Completion and scrub (R283, R285) -/

/-- Whether work of an older generation remains that holds up a reset: microcode contexts, and commands at the storage engine. -/
def State.oldWork (s : State) (i : Nat) : Bool :=
  !(s.ucBound i).isEmpty || s.stoCmds.any fun c => c.2.inst == i && !c.2.detached && c.2.gen != s.gen i

/-- The key contexts of an instance that hold a key, or are being erased. -/
def State.instCtxs (s : State) (i : Nat) : List Nat :=
  (s.listed Reg.CIP_CTX_W0).filter fun c => s.fget Fld.CIP_CTX_W0_INSTANCE c == i && s.ctxState c != 0

/-- The flow-cache slots that hold an entry of an instance, and the DPAs of its DDR5 flow-table entries. -/
def State.instFlows (s : State) (i : Nat) : List Nat :=
  (s.fc.filter fun c => !s.isCont c.1 && bit c.2.w0 63 && keyInst (s.slotKey c.1) == i).map fun c => c.1
def State.instFtEntries (s : State) (i : Nat) : List Nat :=
  if s.ftOn then
    let base := s.fget Fld.PAR_FC_CFG_FT_BASE 0 * 2 ^ 36
    let size := 512 * 2 ^ s.fget Fld.PAR_FC_CFG_LOG2_BUCKETS 0
    let at_ := ((s.mem.filter fun c => decide (base ≤ c.1) && decide (c.1 < base + size)).map fun c => (c.1 - base) / 64).eraseDups
    (at_.map fun j => base + 64 * j).filter fun a =>
      let (w0, key) := ftEntry (s.memBytes a 64) 0
      bit w0 63 && keyInst key == i
  else []
/-- The learned exact-match slots of an instance, on chip and in the extensions. -/
def State.instLearned (s : State) (i : Nat) : List ElemAt :=
  let onChip := (s.listed Reg.TBL_EM_SLOT_W0).map fun x => ElemAt.em (x / 524288) (x % 524288)
  let ext := (List.range 4).map fun b =>
    let base := s.extDpa b 0 0
    (((s.mem.filter fun c => decide (base ≤ c.1) && decide (c.1 < base + s.extBytes b)).map fun c => (c.1 - base) / 32).eraseDups).map fun j =>
      ElemAt.ext b (j / 8) (j % 8)
  (onChip ++ ext.flatten).filter fun e =>
    let w0 := (s.elem e).getD 0 0
    emLearned w0 && emInst w0 == i
/-- The instance's entries in the flow cache and the DDR5 flow table are removed. -/
def State.scrubFlows (s : State) (i : Nat) : State :=
  let s := (s.instFlows i).foldl (fun s k => s.fcRemove k) s
  (s.instFtEntries i).foldl (fun s a => s.storeBytes a (List.replicate 64 0)) s

/-- The instance's learned exact-match entries are removed, on chip and in the extensions. -/
def State.scrubLearned (s : State) (i : Nat) : State := (s.instLearned i).foldl (fun s e => s.engineSet e [0, 0, 0, 0]) s

/-- The scrub of a reset that ends in OFF (R285). -/
def State.scrub (s : State) (i : Nat) : State :=
  let s := (s.instCtxs i).foldl (fun s c => (s.zeroCtx c).cipherNotice 3 c) s
  let s := ((s.scrubFlows i).scrubLearned i).ledgerClear i
  let s := { s with logFilter := s.logFilter.filter fun c => c.1 / 2 ^ 52 != i }
  (s.fset Fld.CAPO_INST_STATUS_SAVED i 0).fset Fld.CAPO_INST_CTL_LOG_EN i 0

/-- RESET_COMPLETE (R283): no work of an older generation remains, and every ring of the instance is DISABLED. A scrub waits for the csub requests that use the keys it erases; a warm restart runs to its step 6 first
(R390). -/
def execResetComplete (inst : Fin 4096) (s : State) : Out :=
  let i := inst.val
  let off := mget false s.capoOff i
  let busy := off && (s.csubs.any fun j => j.status == 0 && (s.instCtxs i).contains j.ctx)
  let rings := [0, 1, 2].any fun k => !(s.ringsOf k i).isEmpty
  if s.instState i ≠ 2 ∨ s.oldWork i ∨ rings ∨ busy ∨ s.warm ≠ 0 then .next s
  else
    let s := { s with capoOff := mset false s.capoOff i false, rrs := mset false s.rrs i false }
    let s := if mget false s.ccReset i then { s.fset Fld.STO_CTRL_W1_RDY i 0 with ccReset := mset false s.ccReset i false } else s
    .next (if off then ((s.scrub i).setInstState i 0).capoDone i 0 else (s.setInstState i 1).capoDone i 0).pwrUpdate

/-! ### Freeze (R287, R288) -/

/-- Entries join the ones a ring holds on chip, in index order. -/
def chipJoin (base : Nat) : List RingEntry → List RingEntry → List RingEntry
  | [], l => l
  | e :: es, l => chipJoin base es (l.takeWhile (fun x => ringDist x.idx base < ringDist e.idx base) ++ [e] ++
      l.dropWhile fun x => ringDist x.idx base < ringDist e.idx base)

/-- A job that has not started is put back on its ring's chip. -/
def State.unstart (s : State) (job : Nat) (j : TxJob) : State :=
  let s := { s.dropReads fun r => match r.who with | .payload k _ => k == job | _ => false with txJobs := merase s.txJobs job }
  let x := s.ringX 0 j.n
  let base := (s.fget (rLo 0) j.n + 65536 - 128) % 65536
  s.setRingX 0 j.n { x with chip := chipJoin base j.ents x.chip }

/-- A ring is frozen: fetching stops, and what was asked for is fetched again later. -/
def State.freezeRing (s : State) (k n : Nat) : State :=
  if s.ringSt k n = 1 ∨ s.ringSt k n = 2 then
    let s := (s.fset (rState k) n 5).dropReads fun r => match r.who with | .fetch k' n' _ => k' == k && n' == n | _ => false
    s.setRingX k n { s.ringX k n with fetches := [], next := s.fget (rLo k) n }
  else s

/-- NVMe commands of an instance that have not been sent are fetched entries again. -/
def State.unsent (s : State) (i : Nat) : State :=
  let mine (c : StoCmd) : Bool := c.inst == i && !c.detached && c.stage != .sent
  let ids := (s.stoCmds.filter fun c => mine c.2).map fun c => c.1
  { s.dropReads fun r => match r.who with | .storage c _ => ids.contains c | _ => false with
    stoCmds := s.stoCmds.map fun c =>
      if mine c.2 then (c.1, { c.2 with stage := .fetched, slot := none, pages := [], prps := [], list := none }) else c }

/-- A transmit job is started once the first byte of its payload has come (R288). -/
def State.jobStarted (s : State) (job : Nat) (j : TxJob) : Bool :=
  j.handed || s.hreads.any fun r => r.who == .payload job 0 &&
    (match r.parts with | p :: _ => p.got.isSome | [] => false)

/-- The freeze point (R287). -/
def State.freezePoint (s : State) (i : Nat) : State :=
  let s := [0, 1, 2].foldl (fun s k => (s.ringsOf k i).foldl (fun s n => s.freezeRing k n) s) s
  let s := (s.txJobs.filter fun j => j.2.inst == i && !s.jobStarted j.1 j.2).foldl (fun s j => s.unstart j.1 j.2) s
  ((s.unsent i).setInstState i 3).ucPendInst i 3

/-- Whether a started job of an instance has not completed. -/
def State.startedJobs (s : State) (i : Nat) : Bool :=
  (s.txJobs.any fun j => j.2.inst == i) ||
    (s.stoCmds.any fun c => c.2.inst == i && !c.2.detached && c.2.stage == .sent && c.2.gen == s.gen i) || !(s.writesOf i).isEmpty

/-- FREEZE_DRAIN_DONE (R288). -/
def execFreezeDrainDone (inst : Fin 4096) (s : State) : Out :=
  .next (if s.instState inst = 3 ∧ !s.startedJobs inst then (s.setInstState inst 4).capoDone inst 0 else s)

/-- The completions that wait to be written are held again: T goes back to the first slot they were to fill. -/
def State.recallCpls (s : State) (cq first : Nat) (cs : List CplRec) : State :=
  (s.setHeld cq (cs ++ s.heldOf cq)).fset (rHi 2) cq first

/-- A receive job whose writes wait is kept as not started: its buffers are on chip again, and its completion, the last of its ring, is
withdrawn. -/
def State.recallJob (s : State) (n : Nat) (ents : List RingEntry) : State :=
  let cq := s.fget (rCq 1) n
  let mine (c : CplRec) : Bool := c.kind == 1 && c.n == n
  let cut (l : List CplRec) : List CplRec := (l.reverse.eraseP mine).reverse
  let x := s.ringX 1 n
  let s := s.setRingX 1 n { x with chip := ents ++ x.chip }
  if (s.stalledOf cq).any mine then s.setStalled cq (cut (s.stalledOf cq)) else s.setHeld cq (cut (s.heldOf cq))

/-- The waiting writes of an instance are taken back, the newest first: completions are held, jobs are not started, and vectors are pending
(R288). What a PF writes for other instances is no job of its own and goes on under the next generation. -/
def State.recallWrites (s : State) (i : Nat) : State :=
  let (keep, ws) := (s.writesOf i).partition fun w => !w.mayLog
  let jobs := ((ws.map fun w => w.undo).eraseDups).reverse
  let lost := ws.filter fun w => w.msix.isNone && (match w.undo with | .cpls .. => false | _ => true)
  let s := (s.fadd Fld.CAPOC_ORPHAN_WRITES_COUNT 0 lost.length).setWrites i (keep.map fun w => { w with gen := s.gen i + 1 })
  let s := jobs.foldl (fun s u => match u with | .cpls cq first cs => s.recallCpls cq first cs | _ => s) s
  let s := jobs.foldl (fun s u => match u with | .job n ents => s.recallJob n ents | _ => s) s
  ws.foldl (fun s w => match w.msix with | some v => { s with msixPba := mset false s.msixPba (i * 2048 + v) true } | none => s) s

/-- FREEZE_TIMEOUT (R288, R320): what has not finished is orphaned, and kept as not started; a frame of such a transmit job ends as one
that fails a late check (R114). -/
def execFreezeTimeout (inst : Fin 4096) (s : State) : Out :=
  let i := inst.val
  if s.instState i ≠ 3 then .next s
  else
    let s := ((s.recallWrites i).nextGen i).bump Fld.CAPOC_FREEZE_TIMEOUTS_COUNT
    let jobs := s.txJobs.filter fun j => j.2.inst == i
    let frames := s.frames.filter fun f => match f.2.job with | some k => jobs.any (fun j => j.1 == k) | none => false
    let s := frames.foldl (fun s f => (s.setFrame f.1 { f.2 with job := none }).endFrame f.1 { f.2 with job := none } 0x11) s
    let s := jobs.foldl (fun s j => s.unstart j.1 j.2) s
    let sent := s.stoCmds.filter fun c => c.2.inst == i && !c.2.detached && c.2.stage == .sent
    let again := sent.zipIdx.map fun (p : (Nat × StoCmd) × Nat) => (s.stoCount + p.2,
      { p.1.2 with stage := .fetched, gen := s.gen i, slot := none, pages := [], prps := [], list := none, data := [], digestBad := false, dataBad := false })
    let s := { s with stoCount := s.stoCount + sent.length, stoCmds := s.stoCmds ++ again }
    let s := (s.orphanReads i).ucPendInst i 1
    let regen (m : SMap (List CplRec)) : SMap (List CplRec) :=
      m.map fun c => (c.1, c.2.map fun r => if r.inst == i then { r with gen := s.gen i } else r)
    let fresh := s.stoCmds.map fun c => if c.2.inst == i && c.2.stage == .fetched then (c.1, { c.2 with gen := s.gen i }) else c
    .next ({ s with held := regen s.held, stalled := regen s.stalled, stoCmds := fresh }.setInstState i 4 |>.capoDone i 0)

/-! ### Save (R289 to R293) -/

/-- The DPA of the object list, and its entries: CLASS and number. -/
def State.objBase (s : State) : Nat := s.fget Fld.CAPO_CFG_WORK_BASE 0 * 2 ^ 26 + 0x2000000
def State.objects (s : State) : List (Nat × Nat) :=
  (List.range (s.mem64 s.objBase).toNat).map fun k =>
    let w := s.mem64 (s.objBase + 8 * (k + 1))
    (bits w 63 60, bits w 17 0)
/-- The numbers of the listed objects of some classes, in list order. -/
def objNums (objs : List (Nat × Nat)) (cls : List Nat) : List Nat := (objs.filter fun o => cls.contains o.1).map fun o => o.2

/-- The element of the TM window that a list entry of class 3 to 6 names. -/
def objElem (o : Nat × Nat) : Nat := tmFirst (o.1 - 2) + o.2
def objElems (objs : List (Nat × Nat)) : List Nat := (objs.filter fun o => 3 ≤ o.1 && o.1 ≤ 6).map objElem
/-- The listed elements of one class, in list order. -/
def classElems (objs : List (Nat × Nat)) (c : Nat) : List Nat := (objs.filter fun o => o.1 == c).map objElem

/-- The RESULT that refuses a SAVE, 0 where it may start (R291, R320). -/
def State.saveCheck (s : State) (i : Nat) : Nat :=
  if s.fbit Fld.CAPO_XFER_STATUS_BUSY 0 ||
      s.stoCmds.any fun c => c.2.inst == i && (c.2.detached || (c.2.stage == .sent && c.2.gen != s.gen i)) then 3
  else if s.poisoned s.objBase 8 || 65536 < (s.mem64 s.objBase).toNat then (if s.poisoned s.objBase 8 then 10 else 8)
  else
    let o := s.objects
    if 1024 < (objNums o [1]).length ∨ 8192 < (objNums o [2]).length ∨ 4096 < (objElems o).length then 8
    else if (objNums o [1]).any fun c => s.fget Fld.CIP_CTX_W0_INSTANCE c != i then 5
    else if (objNums o [6]).any fun q => s.fget Fld.TM_NODE_W4_INSTANCE q != i then 5
    else 0

/-- A transfer starts. -/
def State.xferStart (s : State) (i st : Nat) : State :=
  (s.wr Reg.CAPO_XFER_STATUS 0 (fieldAt 1 63 ||| fieldAt i 48)).setInstState i st
/-- A transfer ends in FROZEN. -/
def State.xferEnd (s : State) (i r : Nat) : State :=
  ((s.fset Fld.CAPO_XFER_STATUS_BUSY 0 0).setInstState i 4).capoDone i r

/-- An ERASE of a context that holds a key (Table 07-3). -/
def State.eraseCtx (s : State) (c : Nat) : State := if s.ctxState c = 0 then s else s.fset Fld.CIP_CTX_W0_STATE c 3

/-- The image header (Table 12-5). The Device Serial Number is a fused value. -/
def State.imageHeader (s : State) (i n len : Nat) : List Byte :=
  let w0 : Word := fieldAt 0x4341504F 32 ||| fieldAt 1 16 ||| fieldAt (if 65536 ≤ n then 0 else n) 0
  let w1 : Word := fieldAt i 52 ||| fieldAt (s.fget Fld.CAPO_INST_CTL_STRICT i) 51 ||| fieldAt (s.fget Fld.CAPO_INST_STATUS_GEN i) 0
  wordBytesLE w0 ++ wordBytesLE w1 ++ natLE 8 len ++ wordBytesLE Config.serial

/-! ### The contents of an image (Table 12-6) -/

/-- A completion as it is saved. -/
def CplRec.saved (c : CplRec) : CapoCpl := ⟨c.kind, c.loc, c.status, c.nbuf, c.tag, c.result, c.nvme⟩

/-- The entries of a ring that have been fetched and not started, in index order. -/
def State.savedChain (s : State) (k n : Nat) : List RingEntry :=
  let base := (s.fget (rLo k) n + 65536 - 128) % 65536
  if k = 0 ∧ s.ringNvme 0 n then
    chipJoin base ((s.stoCmds.filter fun c => c.2.n == n && !c.2.detached && c.2.stage == .fetched).map fun c => c.2.ent) []
  else (s.ringX k n).chip

/-- The rings of an instance, by kind and local number. -/
def State.savedRings (s : State) (i : Nat) : List CapoRing :=
  ([0, 1, 2].map fun k => (s.ringsOf k i).map fun n =>
    (⟨k, (s.ringX k n).locN, s.rd (ringReg k 0) n, s.rd (ringReg k 1) n, s.rd (ringReg k 3) n, s.fget (rHi k) n, s.fget (rLo k) n,
      if k = 2 then [] else s.savedChain k n, if k = 2 then (s.heldOf n ++ s.stalledOf n).map CplRec.saved else []⟩ : CapoRing)).flatten

/-- A context as it is saved: EMPTY and ERASING as EMPTY, without material (R292). -/
def State.savedKey (s : State) (c : Nat) : CapoKey :=
  let st := s.ctxState c
  let empty := st = 0 ∨ st = 3
  let w0 := Fld.CIP_CTX_W0_STATE.ins (s.rd Reg.CIP_CTX_W0 c) (if empty then 0 else st)
  ⟨[w0, s.rd Reg.CIP_CTX_W1 c, s.rd Reg.CIP_CTX_W3 c, s.rd Reg.CIP_CTX_W4 c, s.rd Reg.CIP_CTX_W5 c, s.rd Reg.CIP_CTX_W6 c,
    s.rd Reg.CIP_CTX_W7 c], if empty then [] else s.key c, s.rd Reg.CIP_CTX_W2 c, if empty then 0 else st⟩

/-- The words of a policer, its buckets filled up to now (R160, R293). -/
def State.savedPol (s : State) (p : Nat) : List Word :=
  let s := s.polRefill p
  [s.rd Reg.TM_POL_W0 p, s.rd Reg.TM_POL_W1 p, s.rd Reg.TM_POL_W2 p]

/-- F normalised to the V of the parent, or 0 where it is behind (R293). -/
def normalF (f v : Nat) : Nat := if tmBefore f v then 0 else (f + 2 ^ 48 - v) % 2 ^ 48

/-- A scheduler element as it is saved, its tokens filled up to now. -/
def State.savedSched (s : State) (o : Nat × Nat) : CapoSched :=
  let e := objElem o
  let s := s.tmRefill e
  let v := match s.tmParent e with | some p => s.fget Fld.TM_NODE_W4_V p | none => 0
  let queue := tmLevel e = 4
  ⟨o.1, s.rd Reg.TM_NODE_W0 e, s.rd Reg.TM_NODE_W1 e, if queue then s.rd Reg.TM_NODE_W4 e else 0, if queue then s.rd Reg.TM_NODE_W6 e else 0,
    s.fget Fld.TM_NODE_W3_TOKENS e, normalF (s.fget Fld.TM_NODE_W2_F e) v⟩

/-- QUOTAS. -/
def State.savedQuotas (s : State) (i : Nat) : List Word :=
  [s.rd Reg.PAR_FC_QUOTA i, s.rd Reg.TM_INST_BUF i, s.rd Reg.TBL_LEARN_CAP i, s.rd Reg.PCI_TAG_QUOTA i] ++
    ((List.range 16).map fun k => [s.rd Reg.PCI_HB_RANGE_LO (ix2 16 i k), s.rd Reg.PCI_HB_RANGE_HI (ix2 16 i k)]).flatten

/-- FLOWS: the words of each flow-cache entry, and the bytes of each DDR5 entry. -/
def State.savedFlows (s : State) (i : Nat) : List Byte :=
  let slot (k : Nat) : List Word := let c := s.slot k; [c.w0, c.w1, c.w2, c.w3]
  ((s.instFlows i).map fun k => wordsBytes (slot k ++ if fcLong (s.slot k).w0 then slot (k + 1) else [])).flatten ++
    ((s.instFtEntries i).map fun a => s.memBytes a 64).flatten

/-- LEARNED. -/
def State.savedLearned (s : State) (i : Nat) : List Byte := ((s.instLearned i).map fun e => wordsBytes (s.elem e)).flatten

/-- The contents of an instance's image, in the order of Table 12-6. -/
def State.imageSecs (s : State) (i : Nat) : List CapoSec :=
  let o := s.objects
  let rs := s.savedRings i
  [(1, wordsBytes (rs.map ringOut).flatten), (2, wordsBytes (rs.map chainOut).flatten), (3, wordsBytes (rs.map heldOut).flatten),
    (4, s.memBytes (s.ledgerAddr i 0 0) 6144), (5, wordsBytes ((objNums o [1]).map fun c => keyOut (s.savedKey c)).flatten),
    (6, wordsBytes ((objNums o [2]).map s.savedPol).flatten),
    (7, wordsBytes (((o.filter fun x => 3 ≤ x.1 && x.1 ≤ 6).map fun x => schedOut (s.savedSched x)).flatten)),
    (8, wordsBytes (s.savedQuotas i)), (9, s.savedFlows i), (10, s.savedLearned i)]

/-- A content is split into sections of one TYPE, of at most 16,383 bytes each. -/
def capoSplit (type : Nat) : Nat → List Byte → List (Nat × List Byte)
  | 0, _ => []
  | _, [] => []
  | fuel + 1, bs => (type, bs.take 16383) :: capoSplit type fuel (bs.drop 16383)

/-- The sections are sealed one after another under the MTK: an invocation each; none where one is refused (R290). -/
def State.sealSecs (s : State) (hdr : List Byte) (mtk : Nat) : List (Nat × List Byte) → Option (List Byte) × State
  | [] => (some [], s)
  | (t, bs) :: rest =>
    match s.invoke mtk true with
    | (.number n, s) =>
      let sh := wordBytesLE (fieldAt t 56 ||| fieldAt bs.length 0) ++ natLE 8 n
      let key := s.key mtk
      let nonce := (key.drop 32).take 4 ++ natBE 8 n
      let ct := gcmCrypt (key.take 32) nonce bs
      let (more, s) := s.sealSecs hdr mtk rest
      (more.map fun m => sh ++ ct ++ gcmTag (key.take 32) nonce (hdr ++ sh) ct ++ m, s)
    | (_, s) => (none, s)

/-- The bytes of an image: the header, and for each section its header, its bytes and its tag (R289). -/
def imageLength (secs : List CapoSec) : Nat := 32 + (secs.map fun p => 32 + p.2.length).sum

/-- The key store has lost a context's material (Table 19-9): the context is erased to EMPTY, with an ERASED notice (R178). -/
def State.keyUpset (s : State) (c : Nat) : State :=
  if s.ctxState c = 0 then s else ((s.zeroCtx c).cipherNotice 3 c).errReport 1 9 0 (BitVec.ofNat 64 c)

/-- A state word is uncorrectable (Table 19-9): a policer's buckets are full; an element's F is its parent's V and its TOKENS are BURST. -/
def State.wordUpset (s : State) : StateWord → State
  | .policer p =>
    let s := (s.fset Fld.TM_POL_W2_TC p (min 16777216 (s.fget Fld.TM_POL_W0_CBS p))).fset Fld.TM_POL_W2_TE_TP p
      (min 16777216 (s.fget Fld.TM_POL_W1_EBS_PBS p))
    { s with polAux := mset BucketAux.init s.polAux p { last := s.ns, fracC := 0, fracE := 0 } }.errReport 2 13 0 (BitVec.ofNat 64 p)
  | .element n =>
    let v := match s.tmParent n with | some q => s.fget Fld.TM_NODE_W4_V q | none => 0
    let s := (s.fset Fld.TM_NODE_W2_F n v).setTokens n (s.tmBurst n)
    { s with tmAux := mset BucketAux.init s.tmAux n { last := s.ns, fracC := 0, fracE := 0 } }.errReport 2 13 0 (BitVec.ofNat 64 n)

/-- What a save or a restore finds uncorrectable. -/
def State.upset (s : State) (u : Upsets) : State :=
  u.words.foldl State.wordUpset (u.keys.foldl (fun s (c : Fin 65536) => s.keyUpset c) s)

/-- SAVE_COMPLETE (R289, R290, R292, R293, Table 19-9): the image of the instance is written to the host as its PF. An image that without FLOWS and
LEARNED would pass 4 MiB stops with TOO_LARGE (the RESULT is the model's, log entry 72). -/
def execSaveComplete (inst : Fin 4096) (found : Upsets) (s : State) : Out :=
  let i := inst.val
  if s.instState i ≠ 5 then .next s
  else
    let s := s.upset found
    let mtk := s.fget Fld.CAPO_XFER_CFG_MTK_CTX 0
    let secs := s.imageSecs i
    let split (l : List CapoSec) : List CapoSec := (l.map fun p => capoSplit p.1 (p.2.length + 1) p.2).flatten
    let all := split secs ++ [(15, [])]
    let len := imageLength all
    let hdr := s.imageHeader i all.length len
    if s.fget Fld.CAPO_XFER_CFG_LEN 0 < len then .next (s.xferEnd i 4)
    else if 2 ^ 22 < imageLength (split (secs.take 8) ++ [(15, [])]) then .next (s.xferEnd i 8)
    else if s.noCipher || s.ctxState mtk != 1 || s.ctxAlg mtk != 2 || s.ctxUse mtk != 3 || s.fbit Fld.CIP_CTX_W0_DIR mtk ||
        s.fget Fld.CIP_CTX_W0_CSUB_CLU mtk != 0 then .next (s.xferEnd i 6)
    else match s.sealSecs hdr mtk all with
      | (none, s) => .next (s.xferEnd i 6)
      | (some body, s) =>
        let pf := pfOf i
        let (s, refused) := s.hostWrite pf (s.gen pf) (s.rd Reg.CAPO_XFER_ADDR 0).toNat (hdr ++ body) false false false .image
        if refused then .next (s.xferEnd i 10)
        else .next (((s.fset Fld.CAPO_XFER_STATUS_BYTES 0 len).fset Fld.CAPO_INST_STATUS_SAVED i 1).eraseCtx mtk |>.xferEnd i 0)

/-! ### Restore (R290, R294) -/

/-- The sections of an image are authenticated and opened, each with a greater invocation number than the one before: 0, or the RESULT of
the failure; how many sections were opened, each an invocation of the MTK; and what they hold. -/
def State.openSecs (s : State) (hdr : List Byte) (mtk : Nat) : Nat → Nat → List Byte → Nat × Nat × List CapoSec
  | 0, _, _ => (11, 0, [])
  | fuel + 1, last, bs =>
    let w0 := imgWord bs 0
    let n := (imgWord bs 1).toNat
    let len := bits w0 31 0
    let key := s.key mtk
    let nonce := (key.drop 32).take 4 ++ natBE 8 n
    let ct := (bs.drop 16).take len
    let type := bits w0 63 56
    if bs.length < 32 + len ∨ bits w0 55 32 ≠ 0 ∨ 16383 < len ∨ (len = 0 ∧ type ≠ 15) ∨ n ≤ last then (11, 0, [])
    else if gcmTag (key.take 32) nonce (hdr ++ bs.take 16) ct != (bs.drop (16 + len)).take 16 then (7, 1, [])
    else if type = 15 then (if len = 0 ∧ bs.length = 32 then 0 else 11, 1, [])
    else
      let (r, k, l) := s.openSecs hdr mtk fuel n (bs.drop (32 + len))
      (r, k + 1, (type, gcmCrypt (key.take 32) nonce ct) :: l)

/-- Whether a listed context may take a saved one: EMPTY, with words 0, 1, 3 and 4 equal but for INSTANCE and STATE. -/
def State.ctxFits (s : State) (c : Nat) (k : CapoKey) : Bool :=
  let strip (w : Word) : Word := w &&& ~~~(fieldAt 0xFFF 24 ||| fieldAt 15 60)
  let w (j : Nat) : Word := k.words.getD j 0
  s.ctxState c == 0 && strip (s.rd Reg.CIP_CTX_W0 c) == strip (w 0) && s.rd Reg.CIP_CTX_W1 c == w 1 && s.rd Reg.CIP_CTX_W3 c == w 2 &&
    s.rd Reg.CIP_CTX_W4 c == w 3

/-- The global ring an image's ring goes to. -/
def State.imageRing (s : State) (i : Nat) (r : CapoRing) : Option Nat := s.ringGlobal i r.kind r.ring

/-- What refuses an image whose sections authenticate, 0 for nothing. -/
def State.restoreCheck (s : State) (i : Nat) (c : CapoImage) : Nat :=
  let o := s.objects
  let ctxs := objNums o [1]
  let elems := objElems o
  if ctxs.length ≠ c.keys.length ∨ (objNums o [2]).length ≠ c.policers.length ∨
      [3, 4, 5, 6].any (fun k => (classElems o k).length != (c.sched.filter fun e => e.cls == k).length) ∨
      c.sched.any (fun e => decide (e.cls < 3) || decide (6 < e.cls)) then 11
  else if c.rings.any fun r => (match s.imageRing i r with
      | none => true
      | some n => s.ringSt r.kind n != 0 || s.rd (ringReg r.kind 0) n == 0 || s.rd (ringReg r.kind 1) n == 0) then 11
  else if (objNums o [2]).any (fun p => s.fbit Fld.TM_POL_W0_VALID p) || elems.any (fun e => s.fbit Fld.TM_NODE_W0_VALID e) then 11
  else if (ctxs.zip c.keys).any fun p => !s.ctxFits p.1 p.2 then 6
  else 0

/-- A saved context is loaded: its material, INV_CNT and STATE, and the receive words (R292, R294). -/
def State.restoreCtx (s : State) (c : Nat) (k : CapoKey) : State :=
  let empty := k.state = 0 ∨ k.state = 3
  let s := { s with keys := mset [] s.keys c (if empty then [] else k.material) }
  let s := (s.fset Fld.CIP_CTX_W0_STATE c (if empty then 0 else k.state)).wr Reg.CIP_CTX_W2 c k.inv
  ((s.wr Reg.CIP_CTX_W5 c (k.words.getD 4 0)).wr Reg.CIP_CTX_W6 c (k.words.getD 5 0)).wr Reg.CIP_CTX_W7 c (k.words.getD 6 0)

/-- A saved policer is written, its buckets whole bytes that fill from now on (R160). -/
def State.restorePol (s : State) (p : Nat) (ws : List Word) : State :=
  { s.wr Reg.TM_POL_W2 p (ws.getD 2 0) with polAux := mset BucketAux.init s.polAux p { last := s.ns, fracC := 0, fracE := 0 } }

/-- A saved scheduler element is written: TOKENS, which fill from now on, the average of a queue, and F from the target parent's V
(R293). -/
def State.restoreSched (s : State) (e : Nat) (k : CapoSched) : State :=
  let v := match s.tmParent e with | some p => s.fget Fld.TM_NODE_W4_V p | none => 0
  let s := { (s.fset Fld.TM_NODE_W3_TOKENS e k.tokens).fset Fld.TM_NODE_W2_F e (v + k.f) with
    tmAux := mset BucketAux.init s.tmAux e { last := s.ns, fracC := 0, fracE := 0 } }
  if tmLevel e = 4 then s.wr Reg.TM_NODE_W6 e k.w6 else s

/-- A saved completion of a ring of the instance. -/
def State.restoreCpl (s : State) (i : Nat) (c : CapoCpl) : CplRec :=
  { kind := c.kind, n := (s.ringGlobal i c.kind c.ring).getD 0, inst := i, gen := s.gen i, status := c.status, nbuf := c.nbuf, tag := c.tag,
    result := c.result, ents := 0, nvme := c.nvme, loc := c.ring }

/-- A saved ring is enabled in FROZEN with its indices, its chains and its held completions. -/
def State.restoreRing (s : State) (i : Nat) (r : CapoRing) : State :=
  match s.imageRing i r with
  | none => s
  | some n =>
    let k := r.kind
    let s := (s.fset (rEn k) n 1).wr (ringReg k 2) n (fieldAt 5 60 ||| fieldAt (r.hi % 65536) 16 ||| fieldAt (r.lo % 65536) 0)
    let s := if k = 2 then s.wr (ringReg 2 3) n (writeFields false (ringReg 2 3) 0 r.w3) else s
    let nvme := k = 0 ∧ s.ringNvme 0 n
    let s := s.setRingX k n { RingX.init with inst := i, locN := r.ring, next := r.lo % 65536, chip := if nvme then [] else r.chain }
    let s := if nvme then r.chain.foldl (fun s e => s.nvmeFetched n e.idx e.words) s else s
    if k = 2 then s.setHeld n (r.held.map fun c => s.restoreCpl i c) else s

/-- An image that nothing refuses is applied (R294). -/
def State.restoreApply (s : State) (i : Nat) (c : CapoImage) : State :=
  let o := s.objects
  let s := ((objNums o [1]).zip c.keys).foldl (fun s p => s.restoreCtx p.1 p.2) s
  let s := ((objNums o [2]).zip c.policers).foldl (fun s p => s.restorePol p.1 p.2) s
  let s := [3, 4, 5, 6].foldl (fun s k =>
    ((classElems o k).zip (c.sched.filter fun e => e.cls == k)).foldl (fun s p => s.restoreSched p.1 p.2) s) s
  let s := c.rings.foldl (fun s r => s.restoreRing i r) s
  (s.storeBytes (s.ledgerAddr i 0 0) c.ledger).storeBytes (s.objBase + 0x1000000) c.rest

/-- The image that a restore has read is accepted, or fails with a RESULT. Nothing of it is loaded before every check has passed, so a
failure leaves no context loaded and every ring DISABLED (R290, R294). -/
def State.restoreImage (s : State) (i : Nat) (buf : List Byte) : State :=
  let mtk := s.fget Fld.CAPO_XFER_CFG_MTK_CTX 0
  let w0 := imgWord buf 0
  let len := (imgWord buf 2).toNat
  let bs := buf.take len
  if buf.length < 32 ∨ bits w0 63 32 ≠ 0x4341504F ∨ bits w0 31 16 ≠ 1 ∨ buf.length < len ∨ bits (imgWord buf 1) 50 16 ≠ 0 then s.xferEnd i 11
  else if s.noCipher || s.ctxState mtk != 1 || s.ctxAlg mtk != 2 || s.ctxUse mtk != 3 || !s.fbit Fld.CIP_CTX_W0_DIR mtk ||
      s.fget Fld.CIP_CTX_W0_CSUB_CLU mtk != 0 then s.xferEnd i 6
  else
    let (r, opened, secs) := s.openSecs (bs.take 32) mtk (bs.length + 1) 0 (bs.drop 32)
    let s := s.fadd Fld.CIP_CTX_W2_INV_CNT mtk opened
    if r ≠ 0 then s.xferEnd i r
    else if bits w0 15 0 ≠ (if 65536 ≤ secs.length + 1 then 0 else secs.length + 1) then s.xferEnd i 11
    else match imageIn secs with
      | none => s.xferEnd i 11
      | some c =>
        if s.restoreCheck i c ≠ 0 then s.xferEnd i (s.restoreCheck i c)
        else (((s.restoreApply i c).fset Fld.CAPO_XFER_STATUS_BYTES 0 bs.length).eraseCtx mtk).xferEnd i 0

/-- RESTORE_COMPLETE (R294, Table 19-9): the read of the image has ended; a failed or refused one is a bus error. A buffer too short for a header holds
no image. -/
def execRestoreComplete (inst : Fin 4096) (keys : List (Fin 65536)) (words : List StateWord) (s : State) : Out :=
  let i := inst.val
  if s.instState i ≠ 6 then .next s
  else
  let s := s.upset ⟨keys, words⟩
  if s.fget Fld.CAPO_XFER_CFG_LEN 0 < 32 then .next (s.xferEnd i 11)
  else match s.takeRead (.image i) with
    | none => .next s
    | some (.ok bs, s) => .next (s.restoreImage i bs)
    | some (_, s) => .next (s.xferEnd i 10)

/-! ### Unfreeze (R295) -/

/-- The chains on a ring's chip are processed again: each job of an SQ that is whole starts. -/
def State.replayChip (s : State) (n : Nat) : Nat → List RingEntry → State
  | 0, open_ => s.setRingX 0 n { s.ringX 0 n with chip := open_ }
  | fuel + 1, es =>
    let body := es.takeWhile fun e => !bit (e.words.getD 0 0) 61
    match es.drop body.length with
    | [] => s.setRingX 0 n { s.ringX 0 n with chip := es }
    | e :: rest => (s.startJob n (body ++ [e])).replayChip n fuel rest

/-- A ring leaves FROZEN. -/
def State.thaw (s : State) (k n : Nat) : State :=
  if s.ringSt k n = 5 then s.fset (rState k) n (if k = 2 ∧ !(s.heldOf n).isEmpty then 2 else 1) else s

/-- A recorded ledger slot is replayed as one doorbell. -/
def State.replaySlot (s : State) (i x : Nat) : State :=
  let w := s.mem64 (s.ledgerAddr i (x / 256) (x % 256))
  match s.ringGlobal i (x / 256) (x % 256) with
  | some n => if bit w 63 then s.applyDb (x / 256) n (bits w 15 0) (bit w 62) else s
  | none => s

/-- UNFREEZE: partial chains, held completions, ledger slots; then the instance is READY and its rings fetch. -/
def State.unfreeze (s : State) (i : Nat) : State :=
  let frozen := [0, 1, 2].map fun k => (s.ringsOf k i).filter fun n => s.ringSt k n == 5
  let of_ (k : Nat) : List Nat := frozen.getD k []
  let s := [2, 1, 0].foldl (fun s k => (of_ k).foldl (fun s n => s.thaw k n) s) s
  let s := (of_ 0).foldl (fun s n =>
    if s.ringNvme 0 n then s
    else
      let es := (s.ringX 0 n).chip
      (s.setRingX 0 n { s.ringX 0 n with chip := [] }).replayChip n (es.length + 1) es) s
  let s := (of_ 2).foldl (fun s n => s.headMoved n) s
  let s := (List.range 768).foldl (fun s x => s.replaySlot i x) s
  let s := s.ledgerClear i
  let s := [0, 1].foldl (fun s k => (of_ k).foldl (fun s n => s.fetch k n) s) s
  (of_ 2).foldl (fun s n => s.fuller n) ((s.setInstState i 1).capoDone i 0)

/-! ### Operations (Table 12-1) -/

/-- The checks of CREATE (R279). -/
def State.createOk (s : State) (i : Nat) : Bool :=
  if s.fbit Fld.CAPO_INST_CTL_STRICT i then s.strictOk i else decide (2 ≤ s.fget Fld.PCI_TAG_QUOTA_MIN i) && s.anyRange i

/-- FILTER_CLEAR (R297). -/
def State.filterClear (s : State) (i : Nat) : State :=
  { s with logFilter := s.logFilter.filter fun c => c.1 / 2 ^ 52 != i }.capoResult i 0

/-- A restore starts: the image buffer is read through the Hatband as the instance's PF (R289, R294). -/
def State.restoreStart (s : State) (i : Nat) : State :=
  (s.xferStart i 6).hostRead (.image i) (pfOf i) (s.rd Reg.CAPO_XFER_ADDR 0).toNat (s.fget Fld.CAPO_XFER_CFG_LEN 0) false

/-- A write of OP. -/
def State.capoOp (s : State) (i op : Nat) : State :=
  let st := s.instState i
  let saved := s.fbit Fld.CAPO_INST_STATUS_SAVED i
  match op with
  | 0 => s
  | 1 =>
    if st ≠ 0 then s.capoResult i 1
    else if s.createOk i then (((s.nextGen i).setInstState i 1).capoResult i 0).pwrUpdate else s.capoResult i 2
  | 2 => s.instReset i true
  | 3 => s.instReset i false
  | 4 => if st = 1 then s.freezePoint i else s.capoResult i 1
  | 5 =>
    if st ≠ 4 ∨ saved then s.capoResult i 1
    else if s.saveCheck i ≠ 0 then s.capoResult i (s.saveCheck i) else s.xferStart i 5
  | 6 =>
    if st ≠ 4 ∨ saved then s.capoResult i 1
    else if s.fbit Fld.CAPO_XFER_STATUS_BUSY 0 then s.capoResult i 3
    else if [0, 1, 2].any fun k => !(s.ringsOf k i).isEmpty then s.capoResult i 1 else s.restoreStart i
  | 7 => if st = 4 ∧ !saved then s.unfreeze i else s.capoResult i 1
  | 8 => if saved then s.capoResult i 1 else s.filterClear i
  | _ => s.capoResult i 1

/-- A write of CAPO_INST_CTL: STRICT in OFF only, LOG_EN in READY and FREEZING only, then OP. -/
def State.capoCtlWrite (s : State) (i : Nat) (v : Word) : State :=
  let st := s.instState i
  let s := if st = 0 then s.fset Fld.CAPO_INST_CTL_STRICT i (b2n (bit v 30)) else s
  let s := if st = 1 ∨ st = 3 then
      let on := s.fbit Fld.CAPO_INST_CTL_LOG_EN i
      let s := s.fset Fld.CAPO_INST_CTL_LOG_EN i (b2n (bit v 31))
      if bit v 31 && !on then { s.fset Fld.CAPO_LOG_STATUS_PRODUCER i 0 with logCons := mset 0 s.logCons i 0 } else s
    else s
  s.capoOp i (bits v 3 0)

/-- INSTANCE_CREATE (R272, R279). -/
def execInstanceCreate (inst : Fin 4096) (s : State) : Out := .next (s.capoOp inst 1)
/-- INSTANCE_DESTROY (R272, R281). -/
def execInstanceDestroy (inst : Fin 4096) (s : State) : Out := .next (s.capoOp inst 2)
/-- INSTANCE_RESET (R281). -/
def execInstanceReset (inst : Fin 4096) (s : State) : Out := .next (s.capoOp inst 3)
/-- INSTANCE_FREEZE (R287). -/
def execInstanceFreeze (inst : Fin 4096) (s : State) : Out := .next (s.capoOp inst 4)
/-- INSTANCE_SAVE (R289, R291). -/
def execInstanceSave (inst : Fin 4096) (s : State) : Out := .next (s.capoOp inst 5)
/-- INSTANCE_RESTORE (R294). -/
def execInstanceRestore (inst : Fin 4096) (s : State) : Out := .next (s.capoOp inst 6)
/-- INSTANCE_UNFREEZE (R295). -/
def execInstanceUnfreeze (inst : Fin 4096) (s : State) : Out := .next (s.capoOp inst 7)
/-- FILTER_CLEAR (R297). -/
def execFilterClear (inst : Fin 4096) (s : State) : Out := .next (s.capoOp inst 8)
/-- LOG_ENABLE_WRITE (R296). -/
def execLogEnableWrite (inst : Fin 4096) (value : Word) (s : State) : Out := .next (s.capoCtlWrite inst value)

/-! ### Mailbox and ranges (R273, R275) -/

/-- A host write of PCI_MBX_CTL: while BUSY, SEQ and GO are refused. `seq`: the write reaches SEQ. -/
def State.mbxHostWrite (s : State) (pf : Nat) (v : Word) (seq : Bool) : State :=
  let s := if bit v 60 then s.fset Fld.PCI_MBX_CTL_REFUSED pf 0 else s
  if s.fbit Fld.PCI_MBX_CTL_BUSY pf then
    if bit v 62 || seq then s.fset Fld.PCI_MBX_CTL_REFUSED pf 1 else s
  else
    let s := s.fset Fld.PCI_MBX_CTL_SEQ pf (bits v 47 32)
    if bit v 62 then (s.fset Fld.PCI_MBX_CTL_BUSY pf 1).irq (520 + pf) else s
/-- A firmware write of PCI_MBX_CTL. -/
def State.mbxFwWrite (s : State) (pf : Nat) (v : Word) : State :=
  let s := if bit v 60 then s.fset Fld.PCI_MBX_CTL_REFUSED pf 0 else s
  let s := (s.fset Fld.PCI_MBX_CTL_RESULT pf (bits v 31 24)).fset Fld.PCI_MBX_CTL_VECTOR pf (bits v 10 0)
  if bit v 61 && s.fbit Fld.PCI_MBX_CTL_BUSY pf then (s.fset Fld.PCI_MBX_CTL_BUSY pf 0).msix pf (bits v 10 0) else s

/-- MAILBOX_GO (R229, R273). -/
def execMailboxGo (pf : Fin 4) (value : Word) (s : State) : Out :=
  .next (s.unlessDark pf fun s => s.mbxHostWrite pf (value ||| fieldAt 1 62) true)
/-- MAILBOX_DONE (R273). -/
def execMailboxDone (pf : Fin 4) (value : Word) (s : State) : Out := .next (s.mbxFwWrite pf (value ||| fieldAt 1 61))

/-- HB_RANGE_WRITE (R275, R279). -/
def execHbRangeWrite (inst : Fin 4096) (range : Fin 16) (hi : Bool) (value : Word) (s : State) : Out :=
  .next (s.hbRangeWrite inst range hi value)

/-! ### Page logging (R296) -/

/-- The page log loses the entries whose writes the Hatband has refused. -/
def State.logRefused (s : State) (os : List WriteOwner) : State :=
  os.foldl (fun s o => match o with | .pageLog i => s.fset Fld.CAPO_LOG_STATUS_LOG_LOST i 1 | _ => s) s

/-- The owners of refused writes learn of it, whoever they are. -/
def State.refusedOwners (s : State) (os : List WriteOwner) : State := (((s.ringRefused os).ucRefused os).bowRefused os).logRefused os

/-- LOG_CONSUMER_READ (R296): the read of the consumer index returns. If the ring is still full, the entry is lost. -/
def execLogConsumerRead (inst : Fin 4096) (s : State) : Out :=
  let i := inst.val
  match s.takeRead (.pageLog i) with
  | none => .next s
  | some (r, s) =>
    let s := match r with | .ok bs => { s with logCons := mset 0 s.logCons i (leNat (bs.take 8) % 2 ^ 32) } | _ => s
    let s := if s.logFull i then
        match s.writesOf i with
        | w :: ws =>
          (match s.xlat i w.ats true w.addr with
           | some a => s.setWrites i ({ w with logged := a / 4096 :: w.logged } :: ws)
           | none => s).fset Fld.CAPO_LOG_STATUS_LOG_LOST i 1
        | [] => s
      else s
    let (s, os) := s.hostGo i
    .next (s.refusedOwners os)

end Sys2Proof.Machine
end

