-- ==== Sys2Proof/Machine/StoTcp.lean ====
section
/-! DEFINITION. TCP and NVMe/TCP in the storage engine: segments sent and received, PDUs, exceptions, and the failure of a connection
(R309 to R317, Tables 13-4 to 13-7). -/

namespace Sys2Proof.Machine

/-- The distance from `b` to `a` in sequence space. -/
def seqDist (a b : Nat) : Nat := (a + 2 ^ 32 - b % 2 ^ 32) % 2 ^ 32

/-! ### Segments sent (R311, R312) -/

/-- SND_NXT − SND_UNA: the bytes sent and not acknowledged. -/
def State.flight (s : State) (k : Nat) : Nat := seqDist (s.fget Fld.STO_CONN_W8_SND_NXT k) (s.fget Fld.STO_CONN_W8_SND_UNA k)

/-- The TCP header a connection sends, without checksum. -/
def State.tcpHeader (s : State) (k seq flags : Nat) : List Byte :=
  let opts := if s.fbit Fld.STO_CONN_W0_TS_EN k then
    natBE 2 0x0101 ++ natBE 2 0x080A ++ natBE 4 (s.time / 4000) ++ natBE 4 (s.fget Fld.STO_CONN_W11_TS_RECENT k) else []
  natBE 2 (s.fget Fld.STO_CONN_W2_LPORT k) ++ natBE 2 (s.fget Fld.STO_CONN_W2_RPORT k) ++ natBE 4 seq ++
    natBE 4 (s.fget Fld.STO_CONN_W9_RCV_NXT k) ++ natBE 1 ((20 + opts.length) / 4 * 16) ++ natBE 1 flags ++
    natBE 2 (min 65535 (s.fget Fld.STO_CONN_W12_RCV_WND k / 2 ^ s.fget Fld.STO_CONN_W0_RCV_WS k)) ++ natBE 4 0 ++ opts

/-- A segment of a connection joins the TM as a frame of OWNER (R312). It acknowledges all that has been received. -/
def State.segment (s : State) (k seq flags : Nat) (payload : List Byte) : State :=
  let x := s.connX k
  let s := s.setConnX k { x with fullSegs := 0, ackDue := false }
  match s.template (s.fget Fld.STO_CONN_W1_TMPL k) with
  | none => s
  | some (w0, hdr) =>
    let s := if bit w0 31 then s else { s with pushId := s.pushId + 1 }
    let d := encapBytes w0 hdr (s.tcpHeader k seq flags ++ payload) none 0 s.pushId.toNat
    let d := l4Csum d (bits w0 55 48) hdr.length 6 16
    let inst := s.fget Fld.STO_CONN_W0_OWNER k
    let f : Frame := { Frame.fresh d 38 inst (s.gen inst) 0 with
      hv := pushLayers hvBlank w0 hdr.length, queue := some (s.fget Fld.STO_CONN_W1_TM_QUEUE k), storeFwd := true, stage := .admitting,
      charge := .free }
    let (h, s) := s.newFrame f
    { s with tmIn := s.tmIn ++ [h] }

/-- An acknowledgement with no data. -/
def State.pureAck (s : State) (k : Nat) : State := s.segment k (s.fget Fld.STO_CONN_W8_SND_NXT k) 0x10 []

/-- SEGMENT_TRANSMIT (R312): the next bytes of the send stream leave, as far as the window allows. PSH is a free choice. -/
def execSegmentTransmit (c : Fin 16384) (s : State) : Out :=
  let k := c.val
  let x := s.connX k
  let unsent := (x.snd.flatMap fun p => p.bytes).drop (s.flight k)
  let room := min (s.fget Fld.STO_CONN_W10_CWND k) (s.fget Fld.STO_CONN_W9_SND_WND k) - s.flight k
  let n := min (s.fget Fld.STO_CONN_W0_MSS k) (min unsent.length room)
  if s.connSt k ≠ 2 ∨ n = 0 then .next s
  else
    let seq := s.fget Fld.STO_CONN_W8_SND_NXT k
    let (psh, s) := s.drawBool
    let flags := 0x10 + (if psh then 8 else 0) + (if x.cwr then 0x80 else 0)
    .next (((s.setConnX k { x with cwr := false }).segment k seq flags (unsent.take n)).fset Fld.STO_CONN_W8_SND_NXT k (seq + n))

/-- ACK_DELAY_TIMER (R311). -/
def execAckDelayTimer (c : Fin 16384) (s : State) : Out :=
  .next (if s.connSt c = 2 ∧ (s.connX c).ackDue then s.pureAck c else s)

/-- The bytes of a stream that an ACK takes away. -/
def dropSnd : Nat → List SndPdu → List SndPdu
  | _, [] => []
  | n, p :: ps => if p.bytes.length ≤ n then dropSnd (n - p.bytes.length) ps else { p with bytes := p.bytes.drop n } :: ps

/-- Sending resumes from SND_UNA. -/
def State.sendBack (s : State) (k : Nat) : State :=
  ((s.fset Fld.STO_CONN_W10_SSTHRESH k (max (s.flight k / 2) (2 * s.fget Fld.STO_CONN_W0_MSS k))).fset Fld.STO_CONN_W8_SND_NXT k
    (s.fget Fld.STO_CONN_W8_SND_UNA k)).bump Fld.STOC_RETRANSMITS_COUNT

/-! ### Failure (R309, R317) -/

/-- The detached commands of a connection are discarded. -/
def State.dropDetached (s : State) (k : Nat) : State :=
  { s with stoCmds := s.stoCmds.filter fun c => !(c.2.conn == k && c.2.detached) }

/-- A LIVE connection enters FAILED. -/
def State.connFail (s : State) (k cause : Nat) : State :=
  if s.connSt k ≠ 2 then s
  else
    let s := ((s.fset Fld.STO_CONN_W0_STATE k 3).fset Fld.STO_CONN_W13_CAUSE k cause).bump Fld.STOC_CONN_FAIL_COUNT
    let s := s.wr Reg.STO_CONN_EVENT (k / 64) (s.rd Reg.STO_CONN_EVENT (k / 64) ||| fieldAt 1 (k % 64))
    ((s.setConnX k { ConnX.init with exc := (s.connX k).exc, heldF := (s.connX k).heldF }).dropDetached k).irq 534

/-- Each attached command of a connection completes with Transient Transport Error. -/
def State.failCmds (s : State) (k : Nat) : State :=
  (s.connCmds k).foldl (fun s c => s.endCmd c.1 c.2 (nvmeStatus 0 0x22 false) 0) s

/-- The PDUs of a stream that have begun to leave, rebuilt from command state and staging: a PDU whose command has ended keeps its bytes.
The answer names a command whose staged data are uncorrectable. -/
def State.rebuild (s : State) (k : Nat) : Nat → List SndPdu → List SndPdu × Option (Nat × StoCmd) × State
  | _, [] => ([], none, s)
  | 0, ps => (ps, none, s)
  | left + 1, p :: ps =>
    let held := p.part.bind fun q => (mfind s.stoCmds q.cmd).map fun c => (q, c)
    match held with
    | none =>
      let (qs, bad, s) := s.rebuild k (left + 1 - p.bytes.length) ps
      (p :: qs, bad, s)
    | some (q, c) =>
      match s.stageGet c q.off q.len with
      | (none, s) => (p :: ps, some (q.cmd, c), s)
      | (some data, s) =>
        let all := s.h2cPdu k q data
        let (qs, bad, s) := s.rebuild k (left + 1 - p.bytes.length) ps
        ({ p with bytes := all.drop (all.length - p.bytes.length) } :: qs, bad, s)

/-- Sending resumes from SND_UNA with every byte rebuilt; uncorrectable staged data end their command and the connection (R312, Table
13-5, Table 13-8). DEDUCED, log entry 43: the bytes are rebuilt when sending resumes. -/
def State.resend (s : State) (k : Nat) : State :=
  let n := s.flight k
  let s := s.sendBack k
  match s.rebuild k n (s.connX k).snd with
  | (_, some (id, c), s) => (s.endCmd id c (nvmeStatus 0 0x04 false) 0).connFail k 8
  | (ps, none, s) => s.setConnX k { s.connX k with snd := ps }

/-- RECONNECT_EXPIRY (R317). -/
def execReconnectExpiry (c : Fin 16384) (s : State) : Out :=
  .next (if s.connSt c = 3 ∨ s.connSt c = 1 then (s.failCmds c).storageGo else s)

/-- RETRANSMIT_TIMEOUT (R312). -/
def execRetransmitTimeout (c : Fin 16384) (s : State) : Out :=
  let k := c.val
  if s.connSt k ≠ 2 ∨ s.flight k = 0 then .next s
  else
    let s := ((s.resend k).fset Fld.STO_CONN_W10_CWND k (s.fget Fld.STO_CONN_W0_MSS k)).bump Fld.STOC_RTO_COUNT
    let n := s.fget Fld.STO_CONN_W13_RTO_COUNT k + 1
    let s := s.fset Fld.STO_CONN_W13_RTO_COUNT k n
    .next (if max 1 (s.fget Fld.STO_CONN_W11_RTO_MAX k) ≤ n then s.connFail k 3 else s)

/-! ### Inbound PDUs (R314 to R316) -/

/-- The held command of a slot: its number and itself. -/
def State.slotCmd (s : State) (k slot : Nat) : Option (Nat × StoCmd) :=
  (s.connCmds k).find? fun c => c.2.slot == some slot && c.2.stage == .sent

/-- What processing a PDU says of its connection: it goes on, the PDU is unexpected, or the connection has failed. -/
inductive PduEnd where
  | ok (s : State) | unexpected (s : State) | failed (s : State)

/-- Plaintext of a command is written to its guest memory, from byte `off` of its data on; `ep`: it comes from an uncorrectable word. -/
def State.guestPut (s : State) (c : StoCmd) (ep : Bool) : Nat → List (Nat × Nat) → Nat → List Byte → State × Bool
  | _, [], _, _ => (s, false)
  | base, (a, n) :: ps, off, bs =>
    let skip := off - base
    if bs.isEmpty then (s, false)
    else if n ≤ skip then s.guestPut c ep (base + n) ps off bs
    else
      let take := min (n - skip) bs.length
      let (s, r) := s.hostWrite c.inst c.gen (a + skip) (bs.take take) (s.fbit (rAts 0) c.n) (s.fbit Fld.HQE_SQ_W0_RO_EN c.n) ep
        (.ring 0 c.n)
      let (s, r') := s.guestPut c ep (base + n) ps (off + take) (bs.drop take)
      (s, r || r')

/-- Data of a Read: decrypted under XTS a whole data unit at a time, and written to the guest. `ep`: a word of them is uncorrectable (R221). -/
def State.readData (s : State) (id : Nat) (c : StoCmd) (bs : List Byte) (ep : Bool) : State :=
  let ep := ep || c.dataBad
  let all := c.data ++ bs
  if c.detached then s.setCmd id { c with data := all }
  else
    let du := if c.xts then s.dataUnit c.xtsCtx else 1
    let before := c.data.length / du * du
    let upto := all.length / du * du
    let raw := (all.take upto).drop before
    let (s, bad) := if c.xts && !raw.isEmpty then s.xtsUse c.xtsCtx else (s, none)
    match bad with
    | some (sc, dnr) => s.endCmd id c (nvmeStatus 0 sc dnr) 0
    | none =>
      let p := if c.xts && !raw.isEmpty then
          xtsCrypt false (s.key c.xtsCtx) du ((c.ns.getD 3 0).toNat + c.slba * (c.blk / du) + before / du) raw
        else raw
      let (s, refused) := (s.setCmd id { c with data := all, dataBad := ep && decide (upto < all.length) }).guestPut c ep 0 c.prps before p
      if refused then s.ringError 0 c.n 9 else s

/-- A command ends as its target says, or with Transient Transport Error where a data digest has failed. -/
def State.targetDone (s : State) (id : Nat) (c : StoCmd) (status dw0 : Nat) : State :=
  if c.digestBad then s.endCmd id c (nvmeStatus 0 0x22 false) 0 else s.endCmd id c status dw0

/-- An R2T is served from staging: H2CData PDUs of at most MAXH2CDATA bytes, the last with LAST_PDU (R315). -/
def State.serveR2t (s : State) (k id : Nat) (c : StoCmd) (ttag off n : Nat) : Option State :=
  let (bs, s) := s.stageGet c off n
  bs.map fun bs =>
    let mx := max 1 (s.fget Fld.STO_CONN_W7_MAXH2CDATA k)
    (List.range ((n + mx - 1) / mx)).foldl (fun s i =>
      let d := (bs.drop (i * mx)).take mx
      let p : StagePart := ⟨id, c.slot.getD 0, ttag, off + i * mx, d.length, decide (n ≤ (i + 1) * mx)⟩
      s.sendPdu k (s.h2cPdu k p d) (some p)) s

/-- A whole PDU of the stream whose header digest holds: `h` its header, `d` its data, `dOk` whether their digest holds, `ep` whether a word of it is
uncorrectable. -/
def State.pduIn (s : State) (k : Nat) (h d : List Byte) (dOk ep : Bool) : PduEnd :=
  let flags := byteAt h 1
  let le (i n : Nat) : Nat := leNat ((h.drop i).take n)
  match byteAt h 0 with
  | 3 => .failed (s.connFail k 5)
  | 5 =>
    match s.slotCmd k (le 20 2) with
    | none => .unexpected s
    | some (id, c) => .ok (s.targetDone id c (le 22 2 / 2) (le 8 4))
  | 7 =>
    match s.slotCmd k (le 8 2) with
    | none => .unexpected s
    | some (id, c) =>
      if c.op ≠ 2 ∨ le 12 4 ≠ c.data.length ∨ le 16 4 ≠ d.length ∨ c.len < c.data.length + d.length then .unexpected s
      else
        let s := if dOk then s.readData id c d ep
          else (s.setCmd id { c with data := c.data ++ d, digestBad := true }).bump Fld.STOC_DDGST_ERR_COUNT
        match mfind s.stoCmds id with
        | some c => .ok (if flags.testBit 2 && flags.testBit 3 then s.targetDone id c 0 0 else s)
        | none => .ok s
  | 9 =>
    match s.slotCmd k (le 8 2) with
    | none => .unexpected s
    | some (id, c) =>
      if !c.stages ∨ c.len < le 12 4 + le 16 4 then .unexpected s
      else match s.serveR2t k id c (le 10 2) (le 12 4) (le 16 4) with
        | some s => .ok s
        | none => .failed ((s.endCmd id c (nvmeStatus 0 0x04 false) 0).connFail k 8)
  | _ => .unexpected s

/-- The header length that a PDU type has. -/
def pduHlen : Nat → Option Nat
  | 3 | 5 | 7 | 9 => some 24
  | _ => none

/-- H2CTermReq for a header digest error (Table 13-5): it leaves at SND_NXT, as far as the window allows (R312). -/
def State.termReq (s : State) (k : Nat) (h : List Byte) (digest : Nat) : State :=
  let room := min (s.fget Fld.STO_CONN_W10_CWND k) (s.fget Fld.STO_CONN_W9_SND_WND k) - s.flight k
  let term := (s.connPdu k 2 0 (natLE 2 3 ++ natLE 4 digest ++ natLE 10 0) h).take (min room (s.fget Fld.STO_CONN_W0_MSS k))
  if term.isEmpty then s else s.segment k (s.fget Fld.STO_CONN_W8_SND_NXT k) 0x10 term

/-- Whole PDUs are taken from the received stream. The answer says whether one was unexpected. -/
def State.pduStream (s : State) (k : Nat) : Nat → Bool → State × Bool
  | 0, bad => (s, bad)
  | fuel + 1, bad =>
    let x := s.connX k
    let hlen := byteAt x.rx 2
    let plen := leNat ((x.rx.drop 4).take 4)
    let hd := s.fbit Fld.STO_CONN_W0_HDGST k
    if s.connSt k ≠ 2 ∨ x.rx.length < 8 then (s, bad)
    else if plen < hlen + (if hd then 4 else 0) ∨ hlen < 8 then (s.setConnX k { x with rx := [], rxBad := 0 }, true)
    else if x.rx.length < plen then (s, bad)
    else
      let p := x.rx.take plen
      let h := p.take hlen
      let s := s.setConnX k { x with rx := x.rx.drop plen, rxBad := x.rxBad - plen }
      if hd ∧ leNat ((p.drop hlen).take 4) ≠ crc32c h then
        let s := s.bump Fld.STOC_HDGST_ERR_COUNT
        ((s.termReq k h (leNat ((p.drop hlen).take 4))).connFail k 4, bad)
      else
        let pdo := byteAt h 3
        let dd := s.fbit Fld.STO_CONN_W0_DDGST k && byteAt h 0 == 7
        let data := if byteAt h 0 = 7 ∧ hlen ≤ pdo then (p.drop pdo).take (plen - pdo - (if dd then 4 else 0)) else []
        let dOk := !dd || leNat (p.drop (plen - 4)) == crc32c data
        if pduHlen (byteAt h 0) ≠ some hlen then s.pduStream k fuel true
        else match s.pduIn k h data dOk (x.rxBad != 0) with
          | .ok s => s.pduStream k fuel bad
          | .unexpected s => s.pduStream k fuel true
          | .failed s => (s, bad)

/-! ### Segments received (R310, R311) -/

/-- The TCP part of a frame: the offsets of L3 and of TCP, and the end of the IP packet. -/
structure Seg where
  l3 : Nat
  l4 : Nat
  last : Nat
  deriving DecidableEq, Repr

/-- The segment of a frame, where its layers L3 and L4 hold an IP packet with a TCP header. -/
def Frame.seg (f : Frame) : Option Seg :=
  match f.layer 1, f.layer 2 with
  | some l3, some l4 =>
    let d := f.bytes
    let last := if ipVersion d l3 = some 6 then l3 + 40 + w16 d (l3 + 4) else l3 + w16 d (l3 + 2)
    if (ipVersion d l3).isSome && ipProto d l3 == some 6 && decide (l4 + 20 ≤ last) && decide (last ≤ d.length) &&
        decide (l4 + 4 * (byteAt d (l4 + 12) / 16) ≤ last) && decide (5 ≤ byteAt d (l4 + 12) / 16) then some ⟨l3, l4, last⟩
    else none
  | _, _ => none

/-- The address that two words of an element hold in network order: the lowest byte comes first (R5), an IPv4 address from bit 32 of the
first word on. -/
def addrBytes (v6 : Bool) (a b : Word) : List Byte := if v6 then wordBytesLE a ++ wordBytesLE b else (wordBytesLE a).drop 4

/-- The connection a frame belongs to (R310). -/
def State.connOf (s : State) (f : Frame) (g : Seg) : Option Nat :=
  let d := f.bytes
  let v6 := ipVersion d g.l3 == some 6
  let n := if v6 then 16 else 4
  let src := (d.drop (g.l3 + (if v6 then 8 else 12))).take n
  let dst := (d.drop (g.l3 + (if v6 then 24 else 16))).take n
  (s.listed Reg.STO_CONN_W0).find? fun k =>
    s.connSt k != 0 && s.fbit Fld.STO_CONN_W0_IPV6 k == v6 && s.fget Fld.STO_CONN_W0_OWNER k == f.inst &&
      addrBytes v6 (s.rd Reg.STO_CONN_W5 k) (s.rd Reg.STO_CONN_W6 k) == src &&
      addrBytes v6 (s.rd Reg.STO_CONN_W3 k) (s.rd Reg.STO_CONN_W4 k) == dst &&
      s.fget Fld.STO_CONN_W2_RPORT k == w16 d g.l4 && s.fget Fld.STO_CONN_W2_LPORT k == w16 d (g.l4 + 2)

/-- A storage dispatch message (R310). -/
def stoMsg (h : Nat) (f : Frame) (reason conn : Nat) : Msg :=
  { src := unitSrc 0x070,
    words := [fieldAt (h % 2 ^ 24) 40 ||| fieldAt (f.profile % 16) 32 ||| fieldAt reason 24 ||| fieldAt (f.inst % 4096) 0, f.hash,
      fieldAt conn 0],
    hv := some f.hv, pkt := some h }

/-- A frame goes to a channel with a storage reason; it is dropped where the channel's backlog is full (R105). -/
def State.stoDispatch (s : State) (h : Nat) (f : Frame) (ch reason conn : Nat) : State :=
  if dispatchFull (s.chan ch) then (s.bump Fld.PARC_DISPATCH_FULL_COUNT f.src).dropFrame h
  else (s.setFrame h { f with stage := .path }).unitSend ch (stoMsg h f reason conn)

/-- An exception of a connection: its frame is dispatched, and the connection waits for the answer (R313). -/
def State.stoExc (s : State) (k h : Nat) (f : Frame) (reason : Nat) : State :=
  let s := s.setConnX k { s.connX k with exc := true }
  s.stoDispatch h f (0x8040 + s.fget Fld.STO_CONN_W1_DISP k) reason k

/-- The TCP options of a header: the timestamp, if any, and whether another option than NOP, EOL, timestamps and SACK stands there. -/
def tcpOpts (bs : List Byte) : Nat → Nat → Option Nat × Bool
  | 0, _ => (none, false)
  | fuel + 1, i =>
    if bs.length ≤ i then (none, false)
    else match byteAt bs i with
      | 0 => (none, false)
      | 1 => tcpOpts bs fuel (i + 1)
      | k =>
        let n := byteAt bs (i + 1)
        if n < 2 ∨ bs.length < i + n then (none, true)
        else
          let (t, bad) := tcpOpts bs fuel (i + n)
          if k = 8 ∧ n = 10 then (some (w32 bs (i + 2)), bad) else if k = 5 then (t, bad) else (t, true)

/-- CWND grows for newly acknowledged bytes (RFC 5681, byte counting with a limit of 2 × MSS). -/
def State.growCwnd (s : State) (k acked : Nat) : State :=
  let cwnd := s.fget Fld.STO_CONN_W10_CWND k
  let mss := s.fget Fld.STO_CONN_W0_MSS k
  let x := s.connX k
  if cwnd < s.fget Fld.STO_CONN_W10_SSTHRESH k then
    s.fset Fld.STO_CONN_W10_CWND k (min (2 ^ 32 - 1) (cwnd + min acked (2 * mss)))
  else if cwnd ≤ x.acked + acked then
    (s.setConnX k { x with acked := x.acked + acked - cwnd }).fset Fld.STO_CONN_W10_CWND k (min (2 ^ 32 - 1) (cwnd + mss))
  else s.setConnX k { x with acked := x.acked + acked }

/-- An ECN-Echo halves CWND once per window (R312). -/
def State.ecnEcho (s : State) (k : Nat) : State :=
  let x := s.connX k
  let una := s.fget Fld.STO_CONN_W8_SND_UNA k
  let nxt := s.fget Fld.STO_CONN_W8_SND_NXT k
  let due := match x.ecnEnd with | none => true | some e => decide (seqDist nxt una < seqDist e una) || seqDist e una == 0
  if due then
    (s.setConnX k { x with ecnEnd := some nxt, cwr := true }).fset Fld.STO_CONN_W10_CWND k
      (max (s.fget Fld.STO_CONN_W10_CWND k / 2) (2 * s.fget Fld.STO_CONN_W0_MSS k))
  else s

/-- The ACK of a segment (R311 step 3); true at the third consecutive duplicate. -/
def State.ackIn (s : State) (k ack wnd : Nat) (hasData ece : Bool) : State × Bool :=
  let x := s.connX k
  let una := s.fget Fld.STO_CONN_W8_SND_UNA k
  let adv := seqDist ack una
  let old := s.fget Fld.STO_CONN_W9_SND_WND k
  let new := min (2 ^ 32 - 1) (wnd * 2 ^ s.fget Fld.STO_CONN_W0_SND_WS k)
  let s := s.fset Fld.STO_CONN_W9_SND_WND k new
  if adv ≠ 0 ∧ adv ≤ s.flight k then
    let s := s.setConnX k { x with snd := dropSnd adv x.snd, dups := 0 }
    let s := (s.fset Fld.STO_CONN_W8_SND_UNA k ack).fset Fld.STO_CONN_W13_RTO_COUNT k 0
    let s := s.growCwnd k adv
    (if ece then s.ecnEcho k else s, false)
  else
    let s := if ece then s.ecnEcho k else s
    if !hasData && old == new then
      let x := s.connX k
      (s.setConnX k { x with dups := x.dups + 1 }, x.dups == 2)
    else (s, false)

/-- A segment of a LIVE connection (R311). -/
def State.tcpIn (s : State) (k h : Nat) (f : Frame) (g : Seg) : State :=
  let d := f.bytes
  let hl := 4 * (byteAt d (g.l4 + 12) / 16)
  let flags := byteAt d (g.l4 + 13)
  let seq := w32 d (g.l4 + 4)
  let data := (d.take g.last).drop (g.l4 + hl)
  let (ts, badOpt) := tcpOpts ((d.drop (g.l4 + 20)).take (hl - 20)) 40 0
  let nxt := s.fget Fld.STO_CONN_W9_RCV_NXT k
  if w16 (l4Csum d g.l3 g.l4 6 16) (g.l4 + 16) % 65535 ≠ w16 d (g.l4 + 16) % 65535 then
    (s.bump Fld.STOC_TCP_CSUM_ERR_COUNT).freeFrame h
  else if flags.testBit 2 then
    (if seqDist seq nxt < s.fget Fld.STO_CONN_W12_RCV_WND k then s.connFail k 1 else s).freeFrame h
  else if flags.testBit 0 then (s.connFail k 2).freeFrame h
  else if flags.testBit 1 || flags.testBit 5 || badOpt then s.stoExc k h f 0x25
  else
    let (s, dup3) := if flags.testBit 4 then s.ackIn k (w32 d (g.l4 + 8)) (w16 d (g.l4 + 14)) (!data.isEmpty) (flags.testBit 6)
      else (s, false)
    let old := seqDist nxt seq
    let s := match ts with
      | some t =>
        let recent := s.fget Fld.STO_CONN_W11_TS_RECENT k
        if s.fbit Fld.STO_CONN_W0_TS_EN k && decide (old < 2 ^ 31) && decide (seqDist t recent < 2 ^ 31) then
          s.fset Fld.STO_CONN_W11_TS_RECENT k t else s
      | none => s
    if dup3 then (s.bump Fld.STOC_DUPACK3_COUNT).stoExc k h f 0x23
    else if data.isEmpty then (s.connGo k).freeFrame h
    else if 2 ^ 31 ≤ old then (s.bump Fld.STOC_OOO_COUNT).stoExc k h f 0x22
    else if data.length ≤ old then (s.pureAck k).freeFrame h
    else
      let new := data.drop old
      let x := s.connX k
      let full := x.fullSegs + b2n (decide (s.fget Fld.STO_CONN_W0_MSS k ≤ data.length))
      let s := (s.fset Fld.STO_CONN_W9_RCV_NXT k (nxt + new.length)).setConnX k
        { x with rx := x.rx ++ new, rxBad := if f.late = 0 then x.rxBad else x.rx.length + new.length, fullSegs := full, ackDue := true }
      let (s, bad) := s.pduStream k (x.rx.length + new.length) false
      let s := s.storageGo
      let s := if 2 ≤ full ∧ s.connSt k = 2 then s.pureAck k else s
      if bad then s.stoExc k h f 0x24 else s.freeFrame h

/-- A frame that has no connection, or one in IDLE, is dispatched with NO_CONN on its profile's channels (R310). -/
def State.noConn (s : State) (h : Nat) (f : Frame) : State := s.stoDispatch h f (s.dispatchChan f.profile f.hash) 0x20 0

/-- A frame comes to its connection: a LIVE one processes it, one in SETUP or FAILED has it dispatched, one in IDLE is none. -/
def State.connFrame (s : State) (k h : Nat) (f : Frame) (g : Seg) : State :=
  match s.connSt k with
  | 2 => s.tcpIn k h f g
  | 0 => s.noConn h f
  | _ => s.stoExc k h f 0x21

/-- The frames held behind an exception are processed in order, until one raises another. -/
def State.heldGo (s : State) (k : Nat) : Nat → State
  | 0 => s
  | fuel + 1 =>
    let x := s.connX k
    match x.heldF with
    | [] => s
    | h :: hs =>
      if x.exc then s
      else
        let s := s.setConnX k { x with heldF := hs }
        match s.frame? h with
        | none => s.heldGo k fuel
        | some f =>
          match f.seg with
          | none => (s.freeFrame h).heldGo k fuel
          | some g => (s.connFrame k h f g).heldGo k fuel

/-- A connection's exception has been answered. -/
def State.excOver (s : State) (k : Nat) : State :=
  let x := s.connX k
  (s.setConnX k { x with exc := false }).heldGo k (x.heldF.length + 1)

/-- TCP_SEGMENT (R310, R311, R313): a frame that the classifier has passed to the storage engine. -/
def execTcpSegment (h : Nat) (s : State) : Out :=
  match s.frame? h with
  | none => .next s
  | some f =>
    if f.stage ≠ .storage ∨ s.connx.any (fun c => c.2.heldF.contains h) then .next s
    else
      let found := f.seg.bind fun g => (s.connOf f g).map fun k => (g, k)
      match found with
      | none => .next (s.noConn h f)
      | some (g, k) =>
        let x := s.connX k
        .next (if x.exc then
            if 64 ≤ x.heldF.length then (s.bump Fld.STOC_HOLD_DROP_COUNT).dropFrame h
            else s.setConnX k { x with heldF := x.heldF ++ [h] }
          else s.connFrame k h f g)

/-! ### Exception returns (Table 13-7) -/

/-- The exception return at the head of a section of channel 0x8003, where its OP is one of `ops`: it is taken. A message for a
connection with no exception outstanding is discarded. -/
def State.excTake (s : State) (sec : Nat) (ops : Nat → Bool) (act : State → Msg → Nat → State) : State :=
  match s.takeUnit 0x8003 sec with
  | none => s
  | some (m, t) =>
    let k := bits (m.word 0) 13 0
    if !ops (bits (m.word 0) 63 56) then s
    else if !(t.connX k).exc then t.bump Fld.STOC_RET_STRAY_COUNT
    else act t m k

/-- The CWND of the message, applied after its OP. -/
def State.excCwnd (s : State) (m : Msg) (k : Nat) : State :=
  let w := bits (m.word 1) 31 0
  if w = 0 then s else s.fset Fld.STO_CONN_W10_CWND k w

/-- EXC_DONE (R313). -/
def execExcDone (sec : Fin 9) (s : State) : Out :=
  .next (s.excTake sec (fun o => o == 1) fun s m k => (s.excCwnd m k).excOver k)

/-- EXC_REINJECT (R313): the packet, which its writer must hold as R108 has it, is processed again at once. -/
def execExcReinject (sec : Fin 9) (s : State) : Out :=
  .next (s.excTake sec (fun o => o == 2) fun s m k =>
    let named := s.namedPacket { m with words := [fieldAt 1 41, (m.word 1) >>> 40] }
    match named.bind fun h => (s.frame? h).map fun f => (h, f) with
    | none => s.bump Fld.ACTC_NO_PACKET_COUNT
    | some (h, f) =>
      let s := (s.releasePkt m h).leavePath h
      let s := s.setConnX k { s.connX k with exc := false }
      let f := { f with stage := .storage }
      let s := (match f.seg with | some g => (s.setFrame h f).connFrame k h f g | none => s.freeFrame h).excCwnd m k
      s.heldGo k ((s.connX k).heldF.length + 1))

/-- EXC_RETRANSMIT (R313). -/
def execExcRetransmit (sec : Fin 9) (s : State) : Out :=
  .next (s.excTake sec (fun o => o == 3) fun s m k => ((if s.connSt k = 2 then s.resend k else s).excCwnd m k).excOver k)

/-- EXC_FAIL (R313): OP 4, and every other value. -/
def execExcFail (sec : Fin 9) (s : State) : Out :=
  .next (s.excTake sec (fun o => o == 0 || decide (4 ≤ o)) fun s m k => ((s.connFail k 6).excCwnd m k).excOver k)

/-- EXC_TIMEOUT (Table 13-5). -/
def execExcTimeout (c : Fin 16384) (s : State) : Out :=
  .next (if s.connSt c = 2 ∧ (s.connX c).exc then (s.connFail c 7).excOver c else s)

end Sys2Proof.Machine
end

