-- ==== Sys2Proof/Machine/StoCtl.lean ====
section
/-! DEFINITION. The emulated controller: its personality, registers and doorbells, its namespaces, and the states of connections
(R299 to R304, R307, R309, R317, R319, Tables 13-1, 13-2, 13-5). -/

namespace Sys2Proof.Machine

/-! ### Controller registers (R299 to R302) -/

/-- The instance is an NVMe controller. -/
def State.nvmeOn (s : State) (i : Nat) : Bool := s.fbit Fld.STO_CTRL_W0_NVME i

/-- NVME is written: ignored unless the instance is a VF's and OFF (R299). -/
def State.nvmeSet (s : State) (i : Nat) (on : Bool) : State :=
  if s.instState i = 0 ∧ vfOf i ≠ 0 then s.fset Fld.STO_CTRL_W0_NVME i (b2n on) else s
/-- NVME_PERSONALITY_WRITE (R299). -/
def execNvmePersonalityWrite (inst : Fin 4096) (on : Bool) (s : State) : Out := .next (s.nvmeSet inst on)

/-- The host writes CC: it is stored, firmware is told, and EN falling resets the instance, whose completion then clears RDY (R301). -/
def State.nvmeCc (s : State) (i v : Nat) : State :=
  let was := (s.fget Fld.STO_CTRL_W0_CC i).testBit 0
  let s := (s.fset Fld.STO_CTRL_W0_CC i v).irq 533
  if was && !v.testBit 0 then { s.instReset i false with ccReset := mset false s.ccReset i (s.instState i != 0) } else s
/-- NVME_CC_WRITE (R301). A function that is no NVMe controller has no CC. -/
def execNvmeCcWrite (inst : Fin 4096) (value : BitVec 32) (s : State) : Out :=
  .next (if s.nvmeOn inst then s.unlessDark inst fun s => s.nvmeCc inst value.toNat else s)

/-- The host writes AQA, ASQ or ACQ: dropped while CC.EN = 1 (R300), else stored, and firmware is told of every write (R301). -/
def State.nvmeAdmin (s : State) (i reg : Nat) (v : Word) : State :=
  (if (s.fget Fld.STO_CTRL_W0_CC i).testBit 0 then s.bump Fld.STOC_CFG_REFUSED_COUNT
  else match reg with
    | 0 => s.fset Fld.STO_CTRL_W2_AQA i v.toNat
    | 1 => s.fset Fld.STO_CTRL_W3_ASQ i (v.toNat / 4096 * 4096)
    | _ => s.fset Fld.STO_CTRL_W4_ACQ i (v.toNat / 4096 * 4096)).irq 533
/-- NVME_ADMIN_CFG_WRITE (R300). -/
def execNvmeAdminCfgWrite (inst : Fin 4096) (reg : Fin 3) (value : Word) (s : State) : Out :=
  .next (if s.nvmeOn inst then s.unlessDark inst fun s => s.nvmeAdmin inst reg value else s)

/-- A doorbell of the admin queue is stored, and firmware is told (R302). -/
def State.adminDb (s : State) (i : Nat) (cq : Bool) (v : Nat) : State :=
  ((s.fset (if cq then Fld.STO_CTRL_W5_ACQ_HEAD else Fld.STO_CTRL_W5_ASQ_TAIL) i v).finc Fld.STO_CTRL_W5_ADM_DB i).irq 533
/-- ADMIN_DOORBELL (R302). -/
def execAdminDoorbell (inst : Fin 4096) (cq : Bool) (value : BitVec 16) (s : State) : Out :=
  .next (if s.nvmeOn inst then s.unlessDark inst fun s => s.adminDb inst cq value.toNat else s)

/-- A doorbell of I/O queue `y`: local ring y − 1 for y from 1 to 64; no other queue exists (R303, R304). -/
def State.nvmeIoDb (s : State) (i y : Nat) (cq : Bool) (v : Nat) : State :=
  if 1 ≤ y ∧ y ≤ 64 then s.doorbell i (if cq then 2 else 0) (y - 1) v false
  else (s.bump Fld.HQEC_DB_UNMAPPED_COUNT).irq 533
/-- NVME_IO_DOORBELL (R304). Queue 0 is the admin queue (R302). -/
def execNvmeIoDoorbell (inst : Fin 4096) (y : Fin 512) (cq : Bool) (value : BitVec 16) (s : State) : Out :=
  .next (if !s.nvmeOn inst then s else if y = 0 then s.unlessDark inst (fun s => s.adminDb inst cq value.toNat) else s.nvmeIoDb inst y cq value.toNat)

/-- ADM_IRQ (R302): vector 0 of the function. -/
def execAdmIrq (inst : Fin 4096) (s : State) : Out := .next (s.msix inst 0)

/-- A write of word `word` of the controller element. -/
def State.ctrlWrite (s : State) (i word : Nat) (v : Word) : State :=
  match word with
  | 0 => s.nvmeSet i (bit v 63)
  | 1 => s.wr Reg.STO_CTRL_W1 i (writeFields false Reg.STO_CTRL_W1 (s.rd Reg.STO_CTRL_W1 i) v)
  | 6 => if bit v 63 then s.msix i 0 else s
  | _ => s

/-! ### Namespaces (R307) -/

/-- Word `w` of the namespace elements. -/
def nsReg : Nat → RegDesc
  | 0 => Reg.STO_NS_W0 | 1 => Reg.STO_NS_W1 | 2 => Reg.STO_NS_W2 | _ => Reg.STO_NS_W3

/-- The connections of a namespace exist and are the instance's. -/
def State.nsConnsOk (s : State) (i el : Nat) (w0 : Word) : Bool :=
  let base := s.fget Fld.STO_NS_W1_CONN_BASE el
  let n := 2 ^ min 6 (Fld.STO_NS_W0_CONN_LOG2.of w0)
  decide (base + n ≤ 16384) && (List.range n).all fun k => s.fget Fld.STO_CONN_W0_OWNER (base + k) == i

/-- A write of one word of a namespace element: while VALID = 1 only VALID := 0 is accepted, and VALID := 1 is checked. -/
def State.nsWrite (s : State) (i k word : Nat) (v : Word) : State :=
  let el := 16 * i + k
  let drop := if s.fbit Fld.STO_NS_W0_VALID el then word ≠ 0 ∨ bit v 63 else word = 0 ∧ bit v 63 ∧ !s.nsConnsOk i el v
  if drop then s.bump Fld.STOC_CFG_REFUSED_COUNT else s.wr (nsReg word) el (writeFields false (nsReg word) 0 v)
/-- NAMESPACE_WRITE (R307). -/
def execNamespaceWrite (inst : Fin 4096) (k : Fin 16) (word : Fin 4) (value : Word) (s : State) : Out :=
  .next (s.nsWrite inst k word value)

/-! ### Connections (R309, R317) -/

/-- Word `w` of the connection elements. -/
def connReg : Nat → RegDesc
  | 0 => Reg.STO_CONN_W0 | 1 => Reg.STO_CONN_W1 | 2 => Reg.STO_CONN_W2 | 3 => Reg.STO_CONN_W3 | 4 => Reg.STO_CONN_W4
  | 5 => Reg.STO_CONN_W5 | 6 => Reg.STO_CONN_W6 | 7 => Reg.STO_CONN_W7 | 8 => Reg.STO_CONN_W8 | 9 => Reg.STO_CONN_W9
  | 10 => Reg.STO_CONN_W10 | 11 => Reg.STO_CONN_W11 | 12 => Reg.STO_CONN_W12 | 13 => Reg.STO_CONN_W13 | 14 => Reg.STO_CONN_W14
  | _ => Reg.STO_CONN_W15

/-- A connection becomes LIVE: its streams start afresh from its element, and the commands that had started are issued again, whatever their
ring does now (R317). -/
def State.connGoLive (s : State) (k : Nat) : State :=
  let s := (s.setConnX k { ConnX.init with exc := (s.connX k).exc, heldF := (s.connX k).heldF }).fset Fld.STO_CONN_W13_RTO_COUNT k 0
  let started := (s.connCmds k).filter fun c => c.2.stage == .sent && !c.2.detached
  (started.foldl (fun s c => s.issueCmd c.1 c.2) s).connGo k

/-- Whether a write may change STATE (Table 13-5). -/
def State.connMay (s : State) (k new : Nat) : Bool :=
  match s.connSt k, new with
  | 0, 1 | 1, 2 | 1, 0 | 3, 0 | 3, 1 => true
  | 2, 0 => (s.slotCmds k).isEmpty
  | _, _ => false

/-- A write of word 0: STATE changes as Table 13-5 permits; the other fields are refused while LIVE or FAILED unless it does. -/
def State.connW0 (s : State) (k : Nat) (v : Word) : State :=
  let old := s.connSt k
  let new := bits v 63 60
  let ok := s.connMay k new
  if (old = 2 ∨ old = 3) ∧ !ok then s.bump Fld.STOC_CFG_REFUSED_COUNT
  else
    let s := (s.wr Reg.STO_CONN_W0 k (writeFields false Reg.STO_CONN_W0 0 v)).fset Fld.STO_CONN_W0_STATE k (if ok then new else old)
    if !ok then s
    else match new with
      | 2 => s.connGoLive k
      | 0 => if old = 2 then s else (s.failCmds k).storageGo
      | _ => s

/-- A write of one word of a connection element. Words 13 to 15 have no field that a write changes. -/
def State.connWrite (s : State) (k word : Nat) (v : Word) : State :=
  if word = 0 then s.connW0 k v
  else if 13 ≤ word then s
  else if s.connSt k = 2 ∨ s.connSt k = 3 then s.bump Fld.STOC_CFG_REFUSED_COUNT
  else s.wr (connReg word) k (writeFields false (connReg word) 0 v)

/-- Word 0 with a STATE. -/
def connState (v : Word) (st : Nat) : Word := Fld.STO_CONN_W0_STATE.ins v st

/-- CONN_SETUP (R309). -/
def execConnSetup (c : Fin 16384) (value : Word) (s : State) : Out := .next (s.connWrite c 0 (connState value 1))
/-- CONN_LIVE (R309, R317). -/
def execConnLive (c : Fin 16384) (value : Word) (s : State) : Out := .next (s.connWrite c 0 (connState value 2))
/-- CONN_IDLE (R309, R317). -/
def execConnIdle (c : Fin 16384) (value : Word) (s : State) : Out := .next (s.connWrite c 0 (connState value 0))
/-- CONN_ELEMENT_WRITE (R309). -/
def execConnElementWrite (c : Fin 16384) (word : Fin 16) (value : Word) (s : State) : Out := .next (s.connWrite c word value)

/-! ### Detachment (R319) -/

/-- COMMAND_DETACH (R319): the orphaned commands of an instance that are still at the engine are detached; where their connection has
failed they are discarded. -/
def execCommandDetach (inst : Fin 4096) (s : State) : Out :=
  let old (c : StoCmd) : Bool := c.inst == inst.val && !c.detached && c.stage == .sent && c.gen != s.gen inst
  let n := (s.stoCmds.filter fun c => old c.2).length
  let mark (c : Nat × StoCmd) : Nat × StoCmd := if old c.2 then (c.1, { c.2 with detached := true }) else c
  let s : State := { s with stoCmds := (s.stoCmds.map mark).filter fun c => !c.2.detached || s.connSt c.2.conn == 2 }
  .next (s.fadd Fld.STOC_DETACHED_COUNT 0 n).storageGo

end Sys2Proof.Machine
end

