-- ==== Sys2Proof/Machine/HostReset.lean ====
section
/-! DEFINITION. The reset kinds of Table 09-9, the straps, and the links of the host bus (R209, R210, R227, R228, R272, R380, R391). -/

namespace Sys2Proof.Machine

/-! ### Functions -/

/-- The functions a reset covers: a PF with its enabled VFs, or one VF. -/
def State.covered (s : State) (i : Nat) : List Nat :=
  if vfOf i ≠ 0 then [i]
  else i :: (if (s.func i).vfEn then (List.range (min 1023 (s.func i).numVfs)).map fun n => instOf i (n + 1) else [])

/-- The functions whose instances a reset covers: for a PF every VF of it that is enabled or whose instance is in use (Table 09-9). -/
def State.resetCover (s : State) (i : Nat) : List Nat :=
  let live := (s.listed Reg.CAPO_INST_STATUS).filter fun j => vfOf i == 0 && j != i && pfOf j == i && s.instState j != 0
  s.covered i ++ live.filter fun j => !(s.covered i).contains j

/-- RESET of an instance; during a warm restart it waits for step 6, and the function answers Request Retry Status meanwhile (R272,
R391). -/
def State.funcInst (s : State) (i : Nat) : State :=
  if s.warm ≠ 0 then { s with warmFlr := mset false s.warmFlr i true, rrs := mset false s.rrs i true }
  else
    let s := s.instReset i false
    if s.instState i = 2 then { s with rrs := mset false s.rrs i true } else s

/-- A function's own state returns to its defaults; the sticky fields of AER stay at an FLR (Table 09-9). The MSI-X table, the PBA, cached
translations and a PF's DOE mailbox go with it, and at a PF FLR its mailbox control. -/
def State.funcClear (s : State) (flr : Bool) (i : Nat) : State :=
  let f := s.func i
  let s := s.setFunc i (if flr then { Func.init with aer := f.aer } else Func.init)
  let s := { s with
    msixTab := mcut s.msixTab fun k => k / 8192 == i
    msixPba := mcut s.msixPba fun k => k / 2048 == i
    atsCache := s.atsCache.filter fun e => e.inst != i
    atsInv := s.atsInv.filter fun v => v.inst != i }
  if 4 ≤ i then s
  else
    let s := { s with doe := mset DoeBox.init s.doe i DoeBox.init }
    if flr then s.wr Reg.PCI_MBX_CTL i (resetValue Reg.PCI_MBX_CTL i) else s

/-- The reset of a function and, for a PF, of its VFs. -/
def State.funcReset (s : State) (flr : Bool) (i : Nat) : State :=
  let is := s.resetCover i
  let s := is.foldl (fun s k => s.funcInst k) s
  (is.foldl (fun s k => s.funcClear flr k) s).pwrUpdate

/-- PF_FLR (R227). -/
def execPfFlr (pf : Fin 4) (s : State) : Out := .next (if s.pfPresent pf then s.funcReset true pf else s)
/-- VF_FLR (R227). -/
def execVfFlr (inst : Fin 4096) (s : State) : Out :=
  .next (if vfOf inst ≠ 0 ∧ s.funcExists inst then s.funcReset true inst else s)

/-! ### Links -/

/-- The link of a lead segment leaves L0 (the segment's PERST_N and LEAD stay as they are), and its PF with the VFs is reset (Table 09-9). Its IDE stream is Insecure again (R225). -/
def State.linkReset (s : State) (g : Nat) : State :=
  let s := s.wr Reg.PCI_SEG_STATUS g (s.rd Reg.PCI_SEG_STATUS g &&& fieldAt 3 12)
  let s := { s with ideSecure := mset false s.ideSecure g false }
  s.funcReset false g

/-- SEGMENT_PERST (R227): of segments 1 to 3, while PERST0_N is high; the ball of an upper x16 segment is ignored (R209). -/
def execSegmentPerst (seg : Fin 4) (s : State) : Out :=
  .next (if seg.val = 0 ∨ s.leadSeg seg ≠ seg.val ∨ mget false s.hold 0 then s
    else (s.fset Fld.PCI_SEG_STATUS_PERST seg 1).linkReset seg)
/-- HOT_RESET (R227): in-band, so on a link that is up. -/
def execHotReset (seg : Fin 4) (s : State) : Out :=
  .next (if s.leadSeg seg = seg.val ∧ s.fbit Fld.PCI_SEG_STATUS_LINK_UP seg then s.linkReset seg else s)
/-- LINK_DOWN (R227). -/
def execLinkDown (seg : Fin 4) (s : State) : Out :=
  .next (if s.leadSeg seg = seg.val ∧ s.fbit Fld.PCI_SEG_STATUS_LINK_UP seg then s.linkReset seg else s)

/-- Every link of a controller goes down (R375). -/
def State.controllerDown (s : State) (k : Nat) : State :=
  [2 * k, 2 * k + 1].foldl (fun s g => if s.leadSeg g = g ∧ s.fbit Fld.PCI_SEG_STATUS_LINK_UP g then s.linkReset g else s) s

/-- PERST_N_DEASSERTION (R209, R380): PERST0_N samples the straps and ends its hold of the die; the count of ELAPSED starts. -/
def execPerstNDeassertion (seg : Fin 4) (split : BitVec 2) (s : State) : Out :=
  .next (if seg.val = 0 then { { s with strapBalls := split.toNat }.sampleStraps.setHold 0 false with bootNs := s.ns }.clkRestarts
    else if s.leadSeg seg = seg.val then s.fset Fld.PCI_SEG_STATUS_PERST seg 0 else s)

/-- The widths the Base specification allows a link to train to. -/
def trainWidth (n : Nat) : Bool := n == 1 || n == 2 || n == 4 || n == 8 || n == 16

/-- LINK_IN_L0 (R210): a link trains while nothing holds the die and its PERST_N is high, as wide as its lanes allow. The limit of the PCI
domain changes with it (Table 16-1). -/
def execLinkInL0 (seg : Fin 4) (width : Fin 17) (rate : Fin 8) (flit : Bool) (s : State) : Out :=
  .next (if s.leadSeg seg ≠ seg.val ∨ s.held_ ∨ s.fbit Fld.PCI_SEG_STATUS_PERST seg ∨ s.linkWidth seg < width.val ∨
      !trainWidth width ∨ rate.val = 0 then s
    else
      let s := s.fset Fld.PCI_SEG_STATUS_LINK_UP seg 1
      let s := s.fset Fld.PCI_SEG_STATUS_FLIT seg (b2n (flit || decide (6 ≤ rate.val)))
      (((s.fset Fld.PCI_SEG_STATUS_LEAD seg 1).fset Fld.PCI_SEG_STATUS_RATE seg rate).fset Fld.PCI_SEG_STATUS_WIDTH seg width).pwrUpdate)

/-- FUNDAMENTAL_RESET (R227, R380, R445): power-on of VDD_AO also clears what only it resets, and starts the supply sequence; PERST0_N low
holds the die until it deasserts; a fuse fault that resensing does not cure holds it for good (Table 19-9). -/
def execFundamentalReset (trigger : ResetTrigger) (s : State) : Out :=
  .next (match trigger with
    | .powerOn =>
      let s := { State.reset with free := s.free, out := s.out, pending := s.pending, ucBad := s.romBad, seqLeft := 4, hold := s.hold.filter fun c => c.1 == 1 }
      { (s.setHold 0 true).setHold 4 true with lost := [⟨0, 2 ^ 39, s.free, false, none⟩], free := s.free + 1 }.emit .xspiReset
    | .perst0 => if mget false s.hold 0 then s else (s.setHold 0 true).fundReset 1 []
    | .fuseFault => ((s.bump Fld.SP_ERR_COUNT_COUNT 3).setHold 3 true).fundReset 2 [])

end Sys2Proof.Machine
end

