-- ==== Sys2Proof/Machine/Boot.lean ====
section
/-! DEFINITION. Boot, warm restart, clocks and tuning (chapter 17). -/

namespace Sys2Proof.Machine

/-! ### Boot (R381 to R383, R425, R430) -/

/-- The bytes that a signature over a header and BODY covers, as flash holds them (R5). -/
def imageBytes (hdr : List Word) (body : List Byte) : List Byte := (hdr.map wordBytesLE).flatten ++ body

/-- What the checks of R381 find in a slot, by the codes of RESULT_A: the first failure, or 0. -/
def slotResult : FlashSlot → Nat
  | .absent => 1
  | .unreadable => 6
  | .image hdr body sig =>
    let w (k : Nat) : Word := hdr.getD k 0
    let slot := bits (w 1) 7 0
    if bits (w 0) 63 32 ≠ 0x51424F54 ∨ bits (w 0) 31 16 ≠ 1 ∨ bits (w 0) 15 0 ≠ 16 ∨ bits (w 1) 31 8 ≠ 0 ∨ hdr.length ≠ 16 ∨
        (hdr.drop 4).any (fun v => v != 0) then 2
    else if bits (w 1) 63 32 < Config.svnMin 1 then 3
    else if (w 2).toNat ≠ body.length ∨ body.length < 4096 ∨ 8388608 < body.length ∨ body.length % 8 ≠ 0 ∨ body.length ≤ (w 3).toNat ∨
        (w 3).toNat % 4 ≠ 0 then 2
    else if 1 < slot ∨ !Config.enrolled slot then 4
    else if signed slot (imageBytes hdr body) sig then 0
    else 5

/-- The L3 boot window. -/
def bootWindow : Nat := 0x010000000000

/-- A control core leaves reset in M, without translation (R383). -/
def State.releaseCore (s : State) (k pc : Nat) : State :=
  let c := Core.init
  { s with cores := mset Core.init s.cores k { c with running := true, a := { c.a with pc := BitVec.ofNat 64 pc } } }.fset
    Fld.SP_CORE_RELEASE_RELEASE 0 (s.fget Fld.SP_CORE_RELEASE_RELEASE 0 ||| 2 ^ k)

/-- Milliseconds since the boot or the warm restart began. -/
def State.bootMs (s : State) : Nat := min 65535 ((s.ns - s.bootNs) / 1000000)

/-- A verified image is placed, measured and started (R381, R383, R425). In a warm restart the watchdog counts again from here
(R419). -/
def State.bootImage (s : State) (slot : Nat) (hdr : List Word) (body : List Byte) : State :=
  let s := (s.loseRange bootWindow (bootWindow + 2 ^ 24) true).storeBytes bootWindow body
  let svn := bits (hdr.getD 1 0) 63 32
  let s := ((s.fset Fld.SP_BOOT_STATUS_PHASE 0 3).fset Fld.SP_BOOT_STATUS_SLOT 0 slot).fset Fld.SP_BOOT_STATUS_SVN 0 (min 65535 svn)
  let s := (s.fset Fld.SP_BOOT_STATUS_ELAPSED 0 s.bootMs).releaseCore 0 (bootWindow + (hdr.getD 3 0).toNat)
  let s := { s with
    diceKeys := true
    diceSealed := false
    diceD := sha384 (imageBytes hdr body)
    diceSvn := svn
    diceSlot := bits (hdr.getD 1 0) 7 0
    diceDebug := s.fbit Fld.SP_DBG_UNLOCKED 0 }
  if s.warm = 2 then { s with warm := 3, wdogHeld := false, wdogNs := s.ns }.fset Fld.SP_WDOG_STATUS_WARNED 0 0 else s

/-- FLASH_VERIFY (R381, R382, R430): slot A, then slot B; when both fail the cores stay in reset. Self-tests run at fundamental reset
only. -/
def execFlashVerify (a b : FlashSlot) (tests : Bool) (s : State) : Out :=
  let phase := s.fget Fld.SP_BOOT_STATUS_PHASE 0
  if s.held_ ∨ 3 ≤ phase ∨ ¬ (s.warm = 0 ∨ s.warm = 2) then .next s
  else if s.warm = 0 ∧ !tests then
    .next ({ s.keyAlarm 5 with spTestFail := true }.fset Fld.SP_BOOT_STATUS_PHASE 0 4)
  else
    let ra := match a with | .absent => 6 | _ => slotResult a
    let rb := if ra = 0 then 1 else slotResult b
    let s := (s.fset Fld.SP_BOOT_STATUS_RESULT_A 0 ra).fset Fld.SP_BOOT_STATUS_RESULT_B 0 rb
    let s := s.crashLog 7 0xFF (ra * 256 + rb) 0 0
    .next (match ra, rb, a, b with
      | 0, _, .image hdr body _, _ => s.bootImage 0 hdr body
      | _, 0, _, .image hdr body _ => s.bootImage 1 hdr body
      | _, _, _, _ => s.fset Fld.SP_BOOT_STATUS_PHASE 0 4)

/-- A write of SP_CORE_RELEASE (R383): each bit that is newly set starts its core at ENTRY; bit 0 is Soundpost's. -/
def State.coreReleaseWrite (s : State) (v : Word) : State :=
  let s := s.fset Fld.SP_CORE_RELEASE_ENTRY 0 (bits v 47 0)
  ((List.range 16).filter fun k => k != 0 && bit v (48 + k) && !(s.fget Fld.SP_CORE_RELEASE_RELEASE 0).testBit k).foldl
    (fun s k => s.releaseCore k (bits v 47 0)) s
/-- CORE_RELEASE (R383). -/
def execCoreRelease (value : Word) (s : State) : Out := .next (s.coreReleaseWrite value)

/-! ### Warm restart (R386 to R391) -/

/-- Instances part-way through an operation when a warm restart begins (R390). -/
def State.warmInsts (s : State) : State :=
  (s.listed Reg.CAPO_INST_STATUS).foldl (fun s i =>
    match s.instState i with
    | 3 => if h : i < 4096 then (match execFreezeTimeout ⟨i, h⟩ s with | .next t => t | _ => s) else s
    | 5 | 6 => (s.fset Fld.CAPO_XFER_STATUS_BUSY 0 0).setInstState i 4 |>.capoResult i 9
    | _ => s) s

/-- The watchdog's count: ms to the bite, as last started (R419). -/
def State.wdogTimeout (s : State) : Nat := max 10 (s.fget Fld.SP_WDOG_TIMEOUT_MS 0)
def State.wdogRemain (s : State) : Nat :=
  if !s.fbit Fld.SP_WDOG_EN 0 then 0
  else if s.wdogHeld then s.fget Fld.SP_WDOG_STATUS_REMAIN 0
  else s.wdogTimeout - (s.ns - s.wdogNs) / 1000000

/-- A warm restart begins (R386, R387), unless it is refused; Soundpost starts it where `sp` holds. -/
def State.warmBegin (s : State) (sp : Bool) : Option State :=
  if s.fbit Fld.SP_WARM_CTL_IN_PROGRESS 0 ∨ s.fget Fld.PCI_READY_CFG 0 = 0 then none
  else
    let s := (s.fset Fld.SP_WARM_CTL_IN_PROGRESS 0 1).fset Fld.SP_WDOG_STATUS_REMAIN 0 s.wdogRemain
    let s := if sp then (s.fset Fld.SP_RESET_CAUSE_WARM_SP 0 1).fset Fld.SP_RESET_CAUSE_LAST 0 5 else s.crashLog 1 0xFF 4 0 0
    let s := { s with warm := 1, warmSp := sp, dark := true, bootNs := s.ns, wdogHeld := true }
    some ((s.uc.foldl (fun s c => s.ucPend c.1 2) s).warmInsts)

/-- A write of SP_WARM_CTL: a request needs the key in the same write. -/
def State.warmCtl (s : State) (v : Word) : State :=
  let s := s.wr Reg.SP_WARM_CTL 0 (writeFields false Reg.SP_WARM_CTL (s.rd Reg.SP_WARM_CTL 0) (v &&& ~~~(fieldAt 0x800000 8 ||| fieldAt 0xFF 16)))
  if bit v 31 ∧ bits v 23 16 = 0x5A then (s.warmBegin false).getD (s.fset Fld.SP_WARM_CTL_REFUSED 0 1) else s
/-- WARM_RESTART_REQUEST (R386). -/
def execWarmRestartRequest (value : Word) (s : State) : Out := .next (s.warmCtl (value ||| fieldAt 1 31))

/-- A warm restart becomes a fundamental reset: a fatal event (R388, R413, R432). -/
def State.warmEscalated (s : State) : State := (s.errReport 3 0xFF 6 0).fundReset 6 [2]

/-- What a warm restart clears, and what it puts back to be done again (R229, R389). -/
def State.warmReset (s : State) : State :=
  let s := (List.range 32).foldl (fun s m => s.downLink m 0) s
  let s := (List.range 8).foldl (fun s c => (s.zeroRange (sharedBase c) (sharedBase c + 0x200000)).zeroRange (programBase c) (programBase c + 0x80000)) s
  let s := (s.txJobs.filter fun j => !j.2.handed).foldl (fun s j => s.unstart j.1 j.2) s
  let s := s.liveInsts.foldl (fun s i => s.unsent i) s
  let s := ([0, 1].map fun k => (s.liveRings k).map fun n => (k, n)).flatten.foldl (fun s p =>
    s.setRingX p.1 p.2 { s.ringX p.1 p.2 with fetches := [], next := s.fget (rLo p.1) p.2 }) s
  let s := (s.listed Reg.ICU_SRC_STATE).foldl (fun s i => s.fset Fld.ICU_SRC_STATE_ACTIVE i 0) s
  let s := (List.range 8).foldl (fun s c => if s.fget Fld.MEM_CH_BOOT_STATE c = 2 then s.fset Fld.MEM_CH_BOOT_STATE c 4 else s) s
  let s := s.loseRange bootWindow (bootWindow + 2 ^ 24) true
  { s with
    regs := s.regs.filter fun c => match regOf c.1 with | some r => r.resetBy != .warm | none => true
    threads := []
    cores := []
    chans := []
    unitPtr := []
    bowPtr := []
    parBusy := []
    pegs := []
    ports := []
    rr := []
    frames := []
    fc := []
    pend := []
    actFifo := []
    tmIn := []
    actLists := []
    pushId := 0
    mirrorCount := []
    tmFifo := []
    tmAux := []
    polAux := []
    lookups := []
    overlay := []
    draining := []
    learnSeq := []
    parked := []
    emFresh := []
    emCount := []
    tblDiffs := []
    orderSeen := false
    klwCmd := none
    csubs := []
    anFail := []
    tsFifo := []
    cue := []
    peerIn := []
    cueReads := []
    winCommit := []
    hreads := []
    txJobs := []
    txGone := []
    fullerT := []
    hostOut := []
    uc := []
    ucScratch := []
    ucLast := []
    ucPatch := []
    ucBad := s.romBad
    ucRegime := 1
    patchJob := (0, 0)
    ucDoorbells := []
    bow := []
    icuHold := []
    icuStack := []
    measPatch := []
    pwrSelfRef := [] }

/-- The frames still held are discarded, and the jobs that waited for their departure complete with TX_DROPPED (R388). -/
def State.drainFrames (s : State) : State :=
  let s := s.dropWhere fun _ => true
  s.txGone.foldl (fun s g => match execTxDeparture g.1 s with | .next t => t | _ => s) s

/-- WARM_DRAIN_LIMIT (R387, R388): the drain ends, by its limit or before it. A context in RUN or WAIT that has not rolled forward
escalates; otherwise the data path goes dark and is reset. -/
def execWarmDrainLimit (s : State) : Out :=
  .next (if s.warm ≠ 1 then s
    else if s.uc.any fun c => (s.ucSt c.1 == 1 || s.ucSt c.1 == 2) then s.warmEscalated
    else { s.drainFrames.warmReset.clkRestarts with warm := 2 })

/-- WARM_ESCALATE (R413): steps 1 to 4 take longer than 5 s. -/
def execWarmEscalate (s : State) : Out := .next (if s.warm = 1 ∨ s.warm = 2 then s.warmEscalated else s)

/-- Step 6 (R229, R387, R391): the HQE resumes, applies the doorbells that were held and fetches again; the TIME waits of armed CQs start again (R250); MSI-X is sent; resets that
waited run. -/
def State.warmResume (s : State) : State :=
  let dbs := s.darkDb
  let s := { s with warm := 0, dark := false, darkDb := [] }
  let s := (s.fset Fld.SP_WARM_CTL_IN_PROGRESS 0 0).finc Fld.SP_RESET_CAUSE_WARM_COUNT 0
  let s := if s.warmSp then s else (s.fset Fld.SP_RESET_CAUSE_WARM_FW 0 1).fset Fld.SP_RESET_CAUSE_LAST 0 4
  let s := dbs.foldl (fun s c => s.doorbell (c.1 / 768) (c.1 / 256 % 3) (c.1 % 256) (bits c.2 15 0) (bit c.2 31)) s
  let s := ([0, 1].map fun k => (s.liveRings k).map fun n => (k, n)).flatten.foldl (fun s p => s.fetch p.1 p.2) s
  let s := (s.liveRings 2).foldl (fun s n => s.fuller n) s
  let s := ((s.msixPba.map fun c => c.1 / 2048).eraseDups).foldl (fun s i => s.msixFlush i) s
  let late := (s.warmFlr.filter fun c => c.2).map fun c => c.1
  let s := { s with warmFlr := [] }
  late.foldl (fun s i => { s.funcInst i with rrs := mset false s.rrs i ((s.funcInst i).instState i == 2) }) s

/-- A write of HQE_MODE; REGIME RUN ends the rebuild of a warm restart (Table 17-8). -/
def State.modeWrite (s : State) (v : Word) : State :=
  let s := s.hqeModeWrite v
  if s.warm = 3 ∧ s.fget Fld.HQE_MODE_REGIME 0 = 0 then s.warmResume else s
/-- REGIME_WRITE (R261, R387). -/
def execRegimeWrite (value : Word) (s : State) : Out := .next (s.modeWrite value)

/-! ### Clocks (R375) -/

/-- The number of a PLL fed by SYS_REFCLK. -/
def pllSys : Pll → Option Nat
  | .fabric => some 0 | .table => some 1 | .cluster => some 2 | .core => some 3 | .timestamp => some 4 | .ddr c => some (5 + c.val)
  | _ => none

/-- The ports' links that a port or lane PLL feeds: the port, and the key of the PLL. -/
def pllPort : Pll → Option (Nat × Nat)
  | .port p => some (p, p) | .lane n => some (n / 8, 4 + n) | _ => none

/-- PLL_LOCK_LOSS (R375): a fundamental reset, with the CLOCK alarm first where domains 91 and 92 are fed; Link down; or FAULT. -/
def execPllLockLoss (pll : Pll) (s : State) : Out :=
  .next (match pllSys pll, pllPort pll, pll with
    | some n, _, _ =>
      let s := if n = 0 then s.keyAlarm 1 else s
      ((s.errReport 3 0xFF 3 (BitVec.ofNat 64 n)).setHold (20 + n) true).fundReset 3 []
    | none, some (p, k), _ =>
      let s := { s with portPll := mset false s.portPll k true }
      (List.range 8).foldl (fun s j => let m := 8 * p + j
        if s.linkSt m = 0 ∨ s.linkSt m = 5 then s else if s.linkSt m = 4 then s.linkFault m else s.setLink m 5) s
    | _, _, .pcie k => s.controllerDown k
    | _, _, _ => s)

/-- PLL_LOCK_REGAINED (R375, R380, R445). -/
def execPllLockRegained (pll : Pll) (s : State) : Out :=
  .next (match pllSys pll, pllPort pll with
    | some n, _ => s.setHold (20 + n) false
    | none, some (_, k) => { s with portPll := mset false s.portPll k false }
    | none, none => s)

/-! ### Tuning (R392, R429) -/

/-- LO and HI of an item (Table 17-9). -/
def tuneRange (item : Nat) : Int × Int :=
  if item < 128 then (match item % 4 with | 0 => (-16, 16) | 2 => (0, 63) | _ => (-31, 31))
  else if item < 144 then (-64, 64) else if item < 151 then (-32, 32) else if item = 151 then (-64, 63) else (620, 800)

/-- A write of SP_TUNE.USER: dropped for items 144 to 151 in approved mode; EFFECTIVE and CLAMPED follow. -/
def State.tunePut (s : State) (item : Nat) (v : Word) : State :=
  if 144 ≤ item ∧ item ≤ 151 ∧ s.fbit Fld.SP_APPROVED_ACTIVE 0 then s
  else
    let user := BitVec.ofNat 16 (bits v 31 16)
    let sum := (Config.tuneFactory item).toInt + user.toInt
    let (lo, hi) := tuneRange item
    let eff := min (max sum lo) hi
    let s := (s.fset Fld.SP_TUNE_USER item user.toNat).fset Fld.SP_TUNE_EFFECTIVE item (BitVec.ofInt 16 eff).toNat
    s.fset Fld.SP_TUNE_CLAMPED item (b2n (decide (eff ≠ sum)))
/-- TUNE_WRITE (R392). -/
def execTuneWrite (item : Fin 160) (value : Word) (s : State) : Out := .next (s.tunePut item value)

end Sys2Proof.Machine
end

