-- ==== Sys2Proof/Machine/HostBar.lean ====
section
/-! DEFINITION. The BARs of the functions: the status page, the mailbox, the mediated views, doorbells, the key loading window, MSI-X and
the NVMe controller registers (R212, R221, R228, R229, R273, R300, R396, Tables 09-3, 09-4, 10-3, 13-1). -/

namespace Sys2Proof.Machine

/-! ### Accesses of part of a register -/

/-- The bits of `size` bytes from byte `off` of a word on. -/
def byteMask (off size : Nat) : Word := BitVec.ofNat 64 ((2 ^ (8 * size) - 1) * 2 ^ (8 * off))

/-- What a write of `size` bytes at byte `off` of a register says of the whole register: the fields it does not reach keep their values, and
no 1 is written to a W1C or W1S bit there (log entry 5). -/
def regValue (r : RegDesc) (old : Word) (off size : Nat) (v : Word) : Word :=
  if size = 8 then v
  else
    let m := byteMask off size
    let keep := r.fields.foldl (fun a f => match f.acc with | .w1c | .w1s | .ro | .rc => a | _ => a ||| (old &&& f.mask)) 0
    (keep &&& ~~~m) ||| ((v <<< (8 * off)) &&& m)

/-- What a read of `size` bytes at byte `off` of an 8-byte word returns. -/
def readPart (w : Word) (off size : Nat) : Word := if size = 8 then w else (w >>> (8 * off)) &&& byteMask 0 size

/-! ### The key loading window (R168 to R172, R396) -/

/-- Whether a CIP_KLW_ register stands at an offset of block CIP. -/
def klwAt (off : Nat) : Bool :=
  off / 8 * 8 == 0x100 || off / 8 * 8 == 0x108 || off / 8 * 8 == 0x110 || (decide (0x200 ≤ off) && decide (off < 0x260))

/-- A write of a CIP_KLW_ register by a requester. -/
def State.klwRegWrite (s : State) (req off size : Nat) (v : Word) : State :=
  match off / 8 * 8 with
  | 0x100 => if off % 8 = 0 then s.klwLockWrite req (regValue Reg.CIP_KLW_LOCK (s.rd Reg.CIP_KLW_LOCK 0) 0 size v) else s
  | 0x108 => s.klwCmdWrite req (regValue Reg.CIP_KLW_CMD (s.rd Reg.CIP_KLW_CMD 0) (off % 8) size v)
  | 0x110 => s
  | _ => let k := (off - 0x200) / 8
         s.klwDataWrite req k (regValue Reg.CIP_KLW_DATA (s.rd Reg.CIP_KLW_DATA k) (off % 8) size v)

/-- What a read of a CIP_KLW_ register returns. -/
def State.klwRegRead (s : State) (off : Nat) : Word :=
  match off / 8 * 8 with
  | 0x100 => readFields Reg.CIP_KLW_LOCK (s.rd Reg.CIP_KLW_LOCK 0)
  | 0x108 => readFields Reg.CIP_KLW_CMD (s.rd Reg.CIP_KLW_CMD 0) &&& ~~~(fieldAt 1 63)
  | 0x110 => readFields Reg.CIP_KLW_STATUS (s.rd Reg.CIP_KLW_STATUS 0)
  | _ => 0

/-! ### BAR layout (Table 09-3) -/

/-- What an offset of a BAR names, with the offset inside it. -/
inductive BarPlace where
  | status (off : Nat) | mbxCtl (off : Nat) | mbxSram (off : Nat) | view | doorbell (off : Nat) | nvme (off : Nat) | klw (off : Nat)
  | msixTab (off : Nat) | pba (off : Nat) | reserved
  deriving DecidableEq, Repr

/-- The doorbell region of a function: doorbells, or NVMe controller registers (R300). -/
def State.dbPlace (s : State) (i off : Nat) : BarPlace :=
  if s.nvmeOn i then .nvme off else if off < 0x1800 then .doorbell off else .reserved

def State.barPlace (s : State) (i bar off : Nat) : BarPlace :=
  if vfOf i = 0 then
    match bar with
    | 0 =>
      if off < 4 then .status off
      else if 0x1000 ≤ off ∧ off < 0x1008 then .mbxCtl (off - 0x1000)
      else if 0x2000 ≤ off ∧ off < 0x11000 then .mbxSram off
      else if 0x1000000 ≤ off ∧ off < 0x1000000 + 0x30000 * 1024 then .view
      else .reserved
    | 2 => if off < 0x4000 then s.dbPlace i off else .reserved
    | 4 =>
      if off < 0x1000 then (if klwAt off then .klw off else .reserved)
      else if 0x10000 ≤ off ∧ off < 0x18000 then .msixTab (off - 0x10000)
      else if 0x18000 ≤ off ∧ off < 0x18100 then .pba (off - 0x18000)
      else .reserved
    | _ => .reserved
  else if bar ≠ 0 then .reserved
  else if off < 0x4000 then s.dbPlace i off
  else if off < 0xC000 then .msixTab (off - 0x4000)
  else if off < 0xC100 then .pba (off - 0xC000)
  else if 0xF000 ≤ off ∧ off < 0xF004 then .status (off - 0xF000)
  else .reserved

/-- The function has the BAR. -/
def hasBar (i bar : Nat) : Bool := bar == 0 || (vfOf i == 0 && (bar == 2 || bar == 4))

/-- The DPA of a PF's mailbox SRAM at a BAR0 offset (Table 18-2). -/
def mbxDpa (p off : Nat) : Nat := 0x010001000000 + 0x20000 * p + off

/-! ### NVMe controller registers (Table 13-1; field places of NVMe 2.0, PRESUMED, log entry 41) -/

/-- CAP: MQES 0x7FFF, CQR 1, TO 4 and CSS bit 0. -/
def nvmeCap : Word := fieldAt 0x7FFF 0 ||| fieldAt 1 16 ||| fieldAt 4 24 ||| fieldAt 1 37

/-- The 4-byte word of a controller register, none at a reserved offset; doorbells read as zero. -/
def State.nvmeWord (s : State) (i off : Nat) : Option Nat :=
  if 0x1000 ≤ off then some 0
  else match off with
    | 0x00 => some (bits nvmeCap 31 0)
    | 0x04 => some (bits nvmeCap 63 32)
    | 0x08 => some 0x00020000
    | 0x14 => some (s.fget Fld.STO_CTRL_W0_CC i)
    | 0x1C => some (bits (s.rd Reg.STO_CTRL_W1 i) 3 0)
    | 0x24 => some (s.fget Fld.STO_CTRL_W2_AQA i)
    | 0x28 => some (bits (s.rd Reg.STO_CTRL_W3 i) 31 0)
    | 0x2C => some (bits (s.rd Reg.STO_CTRL_W3 i) 63 32)
    | 0x30 => some (bits (s.rd Reg.STO_CTRL_W4 i) 31 0)
    | 0x34 => some (bits (s.rd Reg.STO_CTRL_W4 i) 63 32)
    | _ => none

/-- A 4-byte doorbell write at an offset of the controller registers: an even slot is a tail, an odd one a head. -/
def State.nvmeDb (s : State) (i off v : Nat) : State :=
  let y := (off - 0x1000) / 8
  let cq := decide (off % 8 = 4)
  if y = 0 then s.unlessDark i fun s => s.adminDb i cq (v % 65536) else s.nvmeIoDb i y cq (v % 65536)

/-- A host write of controller registers; a write of 8 bytes at a pair of doorbells applies its low half first (R300). -/
def State.nvmeBarWrite (s : State) (i off size : Nat) (v : Word) : State :=
  if 0x1000 ≤ off then
    let s := s.nvmeDb i off (bits v 31 0)
    if size = 8 then s.nvmeDb i (off + 4) (bits v 63 32) else s
  else s.unlessDark i fun s =>
    let half (old : Word) : Word := if size = 8 then v else if off % 8 = 0 then fieldAt (bits old 63 32) 32 ||| fieldAt (bits v 31 0) 0
      else fieldAt (bits v 31 0) 32 ||| fieldAt (bits old 31 0) 0
    match off with
    | 0x14 => s.nvmeCc i (bits v 31 0)
    | 0x24 => s.nvmeAdmin i 0 (fieldAt (bits v 31 0) 0)
    | 0x28 | 0x2C => s.nvmeAdmin i 1 (half (s.rd Reg.STO_CTRL_W3 i))
    | 0x30 | 0x34 => s.nvmeAdmin i 2 (half (s.rd Reg.STO_CTRL_W4 i))
    | _ => s

/-! ### MSI-X -/

/-- Words of the MSI-X table are written; only the Mask bit of Vector Control is. What a vector's unmasking releases is sent. -/
def State.msixWrite (s : State) (i off size : Nat) (v : Word) : State :=
  let put (s : State) (k w : Nat) : State := s.setMsixWord i k (if k % 4 = 3 then w % 2 else w)
  let s := put s (off / 4) (bits v 31 0)
  (if size = 8 then put s (off / 4 + 1) (bits v 63 32) else s).msixFlush i

/-- A 4-byte word of the PBA. -/
def State.pbaWord (s : State) (i off : Nat) : Nat :=
  ((List.range 32).map fun b => if mget false s.msixPba (i * 2048 + 8 * off + b) then 2 ^ b else 0).sum

/-! ### Reads and writes -/

/-- Two 4-byte words, as far as a read of `size` bytes returns them. -/
def pairRead (size a b : Nat) : Word := if size = 8 then fieldAt a 0 ||| fieldAt b 32 else fieldAt a 0

/-- What a BAR read of a served offset returns, outside the dark period. -/
def State.barRead (s : State) (i size : Nat) : BarPlace → Word × State
  | .status o => (if o = 0 then fieldAt (s.funcStatus i) 0 else 0, s)
  | .mbxCtl o => (readPart (readFields Reg.PCI_MBX_CTL (s.rd Reg.PCI_MBX_CTL i)) o size, s)
  | .mbxSram o => (BitVec.ofNat 64 (s.memN (mbxDpa i o) size), s)
  | .view => let (w, s) := s.drawWord; (readPart w 0 size, s)
  | .doorbell o => (if o % 8 = 0 then s.doorbellWord i (o / 0x800) (o % 0x800 / 8) else 0, s)
  | .nvme o => (pairRead size ((s.nvmeWord i o).getD 0) ((s.nvmeWord i (o + 4)).getD 0), if (s.nvmeWord i o).isSome then s
      else s.bumpPci Fld.PCIC_BAR_RESERVED_COUNT i)
  | .klw o => (readPart (s.klwRegRead o) (o % 8) size, s)
  | .msixTab o => (pairRead size (s.msixWord i (o / 4)) (s.msixWord i (o / 4 + 1)), s)
  | .pba o => (pairRead size (s.pbaWord i o) (s.pbaWord i (o + 4)), s)
  | .reserved => (0, s.bumpPci Fld.PCIC_BAR_RESERVED_COUNT i)

/-- What a BAR write of a served offset does. The mailbox's request area is closed while BUSY (R273). -/
def State.barWrite (s : State) (i size : Nat) (v : Word) : BarPlace → State
  | .status _ => s.unlessDark i id
  | .mbxCtl o => s.unlessDark i fun s => s.mbxHostWrite i (regValue Reg.PCI_MBX_CTL (s.rd Reg.PCI_MBX_CTL i) o size v) (decide (4 < o + size))
  | .mbxSram o => s.unlessDark i fun s =>
      if s.fbit Fld.PCI_MBX_CTL_BUSY i && decide (o < 0xA000) then s.fset Fld.PCI_MBX_CTL_REFUSED i 1
      else s.memStore (mbxDpa i o) ((wordBytesLE v).take size)
  | .doorbell o =>
      if o % 8 = 0 then s.doorbell i (o / 0x800) (o % 0x800 / 8) (bits v 15 0) (decide (0x1000 ≤ o) && bit v 31) else s.unlessDark i id
  | .nvme o =>
      if o < 0x1000 && (s.nvmeWord i o).isNone then s.unlessDark i fun s => s.bumpPci Fld.PCIC_BAR_RESERVED_COUNT i
      else s.nvmeBarWrite i o size v
  | .klw o => s.unlessDark i fun s => s.klwRegWrite (0xD000 + i) o size v
  | .msixTab o => s.msixWrite i o size v
  | .pba _ => s
  | .view | .reserved => s.unlessDark i fun s => s.bumpPci Fld.PCIC_BAR_RESERVED_COUNT i

/-- The places whose reads return words of memories on chip, which may hold an uncorrectable one (R221). -/
def BarPlace.inSram : BarPlace → Bool
  | .mbxSram _ | .view | .doorbell _ | .msixTab _ | .pba _ => true
  | _ => false

/-- Accesses are naturally aligned and of 4 or 8 bytes (R212). -/
def barSizeOk (off size : Nat) : Bool := (size == 4 || size == 8) && off % size == 0

/-- Whether an offset is served as usual in the dark period: the status page, the MSI-X table and the PBA (R229). -/
def BarPlace.inDark : BarPlace → Bool
  | .status _ | .msixTab _ | .pba _ => true
  | _ => false

/-- HOST_BAR_WRITE (R212, R221, R225, R228, R229). -/
def execHostBarWrite (inst : Fin 4096) (bar : Fin 6) (offset size : Nat) (value : Word) (tlp : Tlp) (s : State) : Out :=
  let i := inst.val
  match s.tlpCheck i tlp with
  | (none, s) => .next s
  | (some true, s) => .next ((s.aerLog i .poisonedTlp).bumpPci Fld.PCIC_POISON_RX_COUNT i)
  | (some false, s) =>
    if !s.funcExists i then .next s
    else if !s.memEnabled i || !hasBar i bar then .next (s.postedUr i)
    else if !barSizeOk offset size then .next (s.bumpPci Fld.PCIC_BAR_BAD_SIZE_COUNT i)
    else .next (s.barWrite i size (if size = 4 then fieldAt (bits value 31 0) 0 else value) (s.barPlace i bar offset))

/-- HOST_BAR_READ (R212, R221, R225, R228, R229). A word that answers it and is uncorrectable makes the completion poisoned. -/
def execHostBarRead (inst : Fin 4096) (bar : Fin 6) (offset size : Nat) (tlp : TlpRead) (s : State) : Out :=
  let i := inst.val
  match s.tlpCheck i tlp.tlp with
  | (none, s) => .next s
  | (some _, s) =>
    if !s.funcExists i then .next (s.emit (.barAnswer i none))
    else if !s.memEnabled i || !hasBar i bar then .next ((s.aerLog i .unsupportedRequest).emit (.barAnswer i none))
    else if !barSizeOk offset size then 
      .next (((s.bumpPci Fld.PCIC_BAR_BAD_SIZE_COUNT i).aerLog i .unsupportedRequest).emit (.barAnswer i none))
    else
      let p := s.barPlace i bar offset
      if s.dark && !p.inDark then .next (s.emit (.barAnswer i (some 0)))
      else
        let (w, s) := s.barRead i size p
        let ep := tlp.bad && p.inSram
        .next ((if ep then s.bumpPci Fld.PCIC_POISON_TX_COUNT i else s).emit (.barAnswer i (some w) ep))

end Sys2Proof.Machine
end

