-- ==== Sys2Proof/Machine/MemSys.lean ====
section
/-! DEFINITION. DDR5 training, interleaving, scrubbing and secret regions, and the L3 boot window (R398 to R404). -/

namespace Sys2Proof.Machine

/-- The contents of a DDR5 channel are lost: what the interleaved map places there (R398, R399). -/
def State.loseChannel (s : State) (c : Nat) : State :=
  let named := (List.range 8).filter fun k => (s.fget Fld.MEM_CFG_CH_MASK 0).testBit k
  match named.findIdx? fun k => k == c with
  | some k => s.lose ⟨0, 2 ^ 39, s.free, false, some (named.length, k)⟩
  | none => s

/-- TRAIN (R399): ignored while STATE = TRAINING. The contents of a channel in self-refresh are discarded; of a channel in another state
the spec says nothing, and they are free too. -/
def State.memTrain (s : State) (c : Nat) : State :=
  if s.fget Fld.MEM_CH_BOOT_STATE c = 1 then s
  else
    let s := if s.fget Fld.MEM_CH_BOOT_STATE c = 4 then s.fset Fld.MEM_CH_BOOT_RETAINED c 0 else s
    { (s.loseChannel c).fset Fld.MEM_CH_BOOT_STATE c 1 with pwrSelfRef := mset false s.pwrSelfRef c false }

/-- RESTORE (R399): from SELF_REFRESH alone. -/
def State.memRestore (s : State) (c : Nat) : State :=
  if s.fget Fld.MEM_CH_BOOT_STATE c = 4 then
    { (s.fset Fld.MEM_CH_BOOT_STATE c 2).fset Fld.MEM_CH_BOOT_RETAINED c 1 with pwrSelfRef := mset false s.pwrSelfRef c false }
  else s

/-- A write of MEM_CH_CTL. Which of TRAIN and RESTORE in one write comes first the spec does not say. -/
def State.memChCtl (s : State) (c : Nat) (v : Word) : State :=
  match bit v 0, bit v 1 with
  | true, true =>
    let (b, s) := s.drawBool
    if b then (s.memTrain c).memRestore c else (s.memRestore c).memTrain c
  | true, false => s.memTrain c
  | false, true => s.memRestore c
  | false, false => s
/-- MEM_TRAIN (R399). -/
def execMemTrain (ch : Fin 8) (s : State) : Out := .next (s.memTrain ch)
/-- MEM_RESTORE (R399). -/
def execMemRestore (ch : Fin 8) (s : State) : Out := .next (s.memRestore ch)

/-- MEM_TRAIN_DONE (R399): the sequencer writes what it found; a channel that fails reads FAILED. -/
def execMemTrainDone (ch : Fin 8) (result : Option TrainResult) (s : State) : Out :=
  .next (if s.fget Fld.MEM_CH_BOOT_STATE ch ≠ 1 then s
    else match result with
      | none => s.fset Fld.MEM_CH_BOOT_STATE ch 3
      | some r =>
        let s := ((s.fset Fld.MEM_CH_BOOT_STATE ch 2).fset Fld.MEM_CH_BOOT_RANKS ch r.ranks.toNat).fset Fld.MEM_CH_BOOT_RATE ch r.rate.toNat
        (List.range 32).foldl (fun s k => s.wr Reg.MEM_CH_TRAIN (ix2 32 ch k) (r.data.getD k 0)) s)

/-- Whether CH_MASK may hold a value: 1, 2, 4 or 8 channels, all TRAINED (R398). -/
def State.maskOk (s : State) (m : Nat) : Bool :=
  [1, 2, 4, 8].contains (popCount m 8) && (List.range 8).all fun c => !m.testBit c || s.fget Fld.MEM_CH_BOOT_STATE c == 2

/-- A write of MEM_CFG whose bits reach the mask `m` (R8, R398): behind the lock only the RWL fields are refused; a CH_MASK that is not
allowed drops the write; a change of CH_MASK or CH_SIZE leaves the contents of DDR5 undefined. -/
def State.memCfgPut (s : State) (v m : Word) : State :=
  let old := s.rd Reg.MEM_CFG 0
  let locked := s.fbit Fld.MEM_CFG_LOCK 0
  let reach := hasRwl Reg.MEM_CFG m
  if !locked && reach && !s.maskOk (Fld.MEM_CFG_CH_MASK.of v) then s.fset Fld.MEM_STATUS_CFG_REFUSED 0 1
  else
    let new := writeFields locked Reg.MEM_CFG old v
    let s := s.wr Reg.MEM_CFG 0 new
    let s := if locked && reach then s.fset Fld.MEM_STATUS_LOCKED_WRITE 0 1 else s
    if Fld.MEM_CFG_CH_MASK.of old ≠ Fld.MEM_CFG_CH_MASK.of new ∨ Fld.MEM_CFG_CH_SIZE.of old ≠ Fld.MEM_CFG_CH_SIZE.of new then
      s.loseRange 0 (2 ^ 39) false
    else s
/-- MEM_CFG_WRITE (R398). -/
def execMemCfgWrite (value : Word) (s : State) : Out := .next (s.memCfgPut value (BitVec.allOnes 64))
/-- MEM_LOCK (R8). -/
def execMemLock (s : State) : Out := .next (s.fset Fld.MEM_CFG_LOCK 0 1)

/-- A write of MEM_L3_CTL: MODE := 1 alone has an effect, and the window's contents are lost (R404). -/
def State.l3Put (s : State) (v : Word) : State :=
  if bit v 0 && !s.fbit Fld.MEM_L3_CTL_MODE 0 then (s.fset Fld.MEM_L3_CTL_MODE 0 1).loseRange bootWindow (bootWindow + 2 ^ 24) true else s
/-- L3_MODE_SWITCH (R404). -/
def execL3ModeSwitch (s : State) : Out := .next (s.l3Put 1)

/-! ### Secret lines (R402) -/

/-- Where the treatment of lines may change: the ends of the regions and of the save area, below the end of DDR5. -/
def State.secretEdges (s : State) : List Nat :=
  ((List.range 15).map fun i =>
    [s.fget Fld.MEM_SECRET_LO_BASE i * 4096, (s.fget Fld.MEM_SECRET_HI_LIMIT i + 1) * 4096]).flatten ++
  (let b := s.fget Fld.PWR_CFG_SAVE_BASE 0 * 2 ^ 28; [b, b + 34 * 2 ^ 22])

/-- Lines whose treatment differs before and after a change read back as unpredictable data with valid ECC (R402). -/
def State.secretChange (old new : State) : State :=
  let cuts := (((0 :: 2 ^ 39 :: old.secretEdges ++ new.secretEdges).filter fun a => decide (a ≤ 2 ^ 39)).mergeSort fun a b => decide (a ≤ b))
  (cuts.zip (cuts.drop 1)).foldl (fun s p =>
    if p.1 < p.2 ∧ old.secretAt p.1 ≠ new.secretAt p.1 then s.loseRange p.1 p.2 true else s) new

/-- A write of a half of MEM_SECRET (R8, R402). -/
def State.secretPut (s : State) (r : RegDesc) (i : Nat) (v : Word) : State :=
  if s.fbit Fld.MEM_CFG_LOCK 0 then s.fset Fld.MEM_STATUS_LOCKED_WRITE 0 1
  else s.secretChange (s.wr r i (writeFields false r (s.rd r i) v))
/-- SECRET_REGION_WRITE (R402). -/
def execSecretRegionWrite (region : Fin 15) (hi : Bool) (value : Word) (s : State) : Out :=
  .next (s.secretPut (if hi then Reg.MEM_SECRET_HI else Reg.MEM_SECRET_LO) region value)

/-- A write of PWR_CFG: the governor's switch, and the save area, which is secret (R362, R365). -/
def State.pwrCfgPut (s : State) (v : Word) : State :=
  (s.secretChange (s.wr Reg.PWR_CFG 0 (writeFields false Reg.PWR_CFG (s.rd Reg.PWR_CFG 0) v))).pwrUpdate

/-! ### Patrol scrub (R400, R401) -/

/-- SCRUB_READ (R401): a line of the interleaved capacity, unless scrubbing is off or a MEM domain is at depth 2 or deeper. -/
def execScrubRead (line : Nat) (ecc : EccEvent) (s : State) : Out :=
  let a := 64 * line
  .next (if s.ddrCapacity ≤ a ∨ s.fget Fld.MEM_CFG_SCRUB_H 0 = 0 ∨ 2 ≤ s.depth 30 ∨ 2 ≤ s.depth 31 then s
    else if s.poisoned a 64 then s.noteUncorr a
    else match ecc with
      | .corrected => (s.noteCorr a).bump Fld.MEMC_SCRUB_FIX_COUNT (s.ddrChannel a)
      | .uncorrectable => (s.setPoison line true).noteUncorr a
      | .clean | .parity | .falseHit _ | .falseMiss _ => s)

end Sys2Proof.Machine
end

