-- ==== Sys2Proof/Machine/Soundpost.lean ====
section
/-! DEFINITION. Soundpost: the management port, the crash log, the watchdog, debug tokens, DICE, approved mode, the entropy source, supplies
and straps (chapters 19 and 20). -/

namespace Sys2Proof.Machine

/-! ### The management port (R415 to R417, R439; codes of DSP0236, DSP0240 and DSP0274 PRESUMED, log entry 53) -/

/-- A request that the management port serves; while TEST_MODE is high it answers only ReadStatus (R439). -/
def State.mgmt (s : State) (f : State → State) : State := if mget false s.hold 1 then s else f s
/-- A response. -/
def State.mgmtAnswer (s : State) (code : Nat) (data : List Word) : State := s.emit (.mgmtResponse code data)

/-- SET_ENDPOINT_ID (R415): IDs 0 and 0xFF are invalid. -/
def execSetEndpointId (eid : Byte) (s : State) : Out :=
  .next (s.mgmt fun s =>
    if eid = 0 ∨ eid = 0xFF then s.mgmtAnswer 2 []
    else (s.fset Fld.SP_MGMT_CFG_EID 0 eid.toNat).mgmtAnswer 0 [eid.zeroExtend 64])

/-- GET_TID (R416). -/
def execGetTid (s : State) : Out := .next (s.mgmt fun s => s.mgmtAnswer 0 [BitVec.ofNat 64 s.tid])
/-- SET_TID (R416): TIDs 0 and 0xFF are invalid. -/
def execSetTid (tid : Byte) (s : State) : Out :=
  .next (s.mgmt fun s => if tid = 0 ∨ tid = 0xFF then s.mgmtAnswer 2 [] else { s with tid := tid.toNat }.mgmtAnswer 0 [])

/-- GET_PLDM_VERSION (R416): 1.1.0 for type 0; the version of the OEM type is not stated. -/
def execGetPldmVersion (type : Byte) (s : State) : Out :=
  .next (s.mgmt fun s =>
    if type = 0 then s.mgmtAnswer 0 [0xF1F1F000]
    else if type = 0x3F then let (w, s) := s.drawWord; s.mgmtAnswer 0 [w]
    else s.mgmtAnswer 0x83 [])
/-- GET_PLDM_TYPES (R416): types 0 and 0x3F. -/
def execGetPldmTypes (s : State) : Out := .next (s.mgmt fun s => s.mgmtAnswer 0 [0x8000000000000001])
/-- GET_PLDM_COMMANDS (R416, Table 19-3): a bit for each command of a type. -/
def execGetPldmCommands (type : Byte) (s : State) : Out :=
  .next (s.mgmt fun s =>
    if type = 0 then s.mgmtAnswer 0 [0x3E, 0, 0, 0]
    else if type = 0x3F then s.mgmtAnswer 0 [0x7E, 0, 0, 0]
    else s.mgmtAnswer 0x83 [])

/-- READ_TELEMETRY (R414, Table 19-3): Tj, throttle level, the seven rails (mV, mW), total mW, one word each. -/
def execReadTelemetry (s : State) : Out :=
  .next (s.mgmt fun s => s.mgmtAnswer 0
    ([BitVec.ofNat 64 (s.fget Fld.PWR_THERMAL_TJ 0), BitVec.ofNat 64 (s.fget Fld.PWR_THERMAL_LEVEL 0)] ++
      ((List.range 7).map fun r => [BitVec.ofNat 64 (s.fget Fld.PWR_RAIL_MV r), BitVec.ofNat 64 (s.fget Fld.PWR_RAIL_MW r)]).flatten ++
      [BitVec.ofNat 64 (s.fget Fld.PWR_TOTAL_MW 0)]))

/-- READ_CRASH_LOG (Table 19-3): 1 to 30 records from a slot on. -/
def execReadCrashLog (first count : Nat) (s : State) : Out :=
  .next (s.mgmt fun s =>
    if count = 0 ∨ 30 < count ∨ 2048 ≤ first then s.mgmtAnswer 2 []
    else s.mgmtAnswer 0 ((List.range count).map fun k =>
      (List.range 4).map fun j => s.rd Reg.SP_LOG_WIN (ix2 4 ((first + k) % 2048) j)).flatten)

/-- SP_WDOG_STATUS as it reads: REMAIN counts. -/
def State.wdogStatus (s : State) : Word := Fld.SP_WDOG_STATUS_REMAIN.ins (s.rd Reg.SP_WDOG_STATUS 0) s.wdogRemain
/-- INDICATOR (R429). -/
def State.indicator (s : State) : Bool := s.fbit Fld.SP_APPROVED_ACTIVE 0 && s.fbit Fld.CIP_SELFTEST_READY 0 && !s.keyless
/-- SP_APPROVED as it reads. -/
def State.approvedStatus (s : State) : Word :=
  readFields Reg.SP_APPROVED (Fld.SP_APPROVED_INDICATOR.ins (s.rd Reg.SP_APPROVED 0) (b2n s.indicator)) &&& ~~~(fieldAt 1 0)

/-- READ_STATUS (Table 19-3): answered even while TEST_MODE is high. -/
def execReadStatus (s : State) : Out :=
  .next (s.mgmtAnswer 0
    ([s.rd Reg.SP_PART 0, s.rd Reg.SP_BOOT_STATUS 0, s.rd Reg.SP_RESET_CAUSE 0, s.rd Reg.SP_TAMPER 0, s.wdogStatus, s.approvedStatus] ++
      (List.range 4).map fun k => s.rd Reg.SP_ERR_COUNT k))

/-- A control command: NOT_PERMITTED (0x80) while CTRL_EN = 0; otherwise what it does, or REFUSED (0x81). An accepted command writes a MGMT
record (R416, R417). -/
def State.control (s : State) (cmd : Nat) (f : State → Option State) : State :=
  s.mgmt fun s =>
    if !s.fbit Fld.SP_MGMT_CFG_CTRL_EN 0 then s.mgmtAnswer 0x80 []
    else match f (s.crashLog 0xB 0xFF cmd 0 0) with
      | some t => t.mgmtAnswer 0 []
      | none => s.mgmtAnswer 0x81 []

/-- Every slot of the crash log is empty again, and its numbers start anew (R418, Table 19-4). -/
def State.logClear (s : State) : State :=
  { s with regs := s.regs.filter fun c => match regOf c.1 with
      | some r => r.rid != Reg.SP_LOG_WIN.rid && r.rid != Reg.SP_LOG_STATUS.rid
      | none => true }

/-- CLEAR_CRASH_LOG: the command's own record comes after the clear (R418). -/
def execClearCrashLog (s : State) : Out :=
  .next (s.control 4 fun t => some (t.logClear.crashLog 0xB 0xFF 4 0 0))

/-- REQUEST_RESET (Table 19-3, R386, R416): 0 a warm restart, whose refusal sets REFUSED, 1 a fundamental reset; other values are
invalid. -/
def execRequestReset (kind : Byte) (s : State) : Out :=
  .next (s.mgmt fun s =>
    if 1 < kind.toNat then s.mgmtAnswer (if s.fbit Fld.SP_MGMT_CFG_CTRL_EN 0 then 2 else 0x80) []
    else if kind = 0 then
      (if s.fbit Fld.SP_MGMT_CFG_CTRL_EN 0 && (s.warmBegin true).isNone then (s.fset Fld.SP_WARM_CTL_REFUSED 0 1).mgmtAnswer 0x81 []
      else s.control 5 fun t => t.warmBegin true)
    else s.control 5 fun t => some (t.fundReset 2 []))

/-- FORCE_POWER_OFF (Table 19-3, R411): domains 32 and 33 are refused. -/
def execForcePowerOff (mask : BitVec 34) (s : State) : Out :=
  .next (s.control 6 fun t => if mask.getLsbD 32 || mask.getLsbD 33 then none else some (t.forceOff mask.toNat))

/-- An SPDM ERROR with code Busy (R417). -/
def spdmBusyBytes : List Byte := [0x13, 0x7F, 0x03, 0x00]
/-- SPDM_REQUEST (R417): it waits for firmware in Soundpost's mailbox; Soundpost answers Busy where no firmware runs. -/
def execSpdmRequest (secured : Bool) (bytes : List Byte) (s : State) : Out :=
  .next (s.mgmt fun s =>
    if s.fget Fld.SP_BOOT_STATUS_PHASE 0 = 3 then { s with spdmBox := s.spdmBox ++ [(secured, bytes)] }
    else s.emit (.spdmResponse spdmBusyBytes))
/-- SPDM_BUSY (R417): firmware has not taken the oldest request within 1 s. -/
def execSpdmBusy (s : State) : Out :=
  .next (match s.spdmBox with
    | [] => s
    | _ :: rest => { s with spdmBox := rest }.emit (.spdmResponse spdmBusyBytes))
/-- MGMT_BUS_TIMEOUT (R447). -/
def execMgmtBusTimeout (s : State) : Out := .next (s.emit .mgmtRelease)

/-! ### The crash log (R418) -/

/-- LOG_CLEAR. -/
def execLogClear (s : State) : Out := .next s.logClear
/-- The write that commits a FIRMWARE record. Its UNIT and CODE are not stated. -/
def State.logAppend (s : State) (info1 : Word) : State :=
  let (u, s) := s.drawNat
  let (c, s) := s.drawNat
  s.crashLog 9 u c (s.rd Reg.SP_LOG_APPEND0 0) info1
/-- LOG_APPEND. -/
def execLogAppend (info1 : Word) (s : State) : Out := .next (s.logAppend info1)

/-! ### The watchdog (R419) -/

/-- The count starts again at TIMEOUT_MS. -/
def State.wdogRestart (s : State) : State :=
  { s.fset Fld.SP_WDOG_STATUS_WARNED 0 0 with wdogNs := s.ns }.fset Fld.SP_WDOG_STATUS_REMAIN 0 s.wdogTimeout

/-- The watchdog bites: `code` 2, or 3 for a bad kick. A warm restart that R386 refuses sets REFUSED. -/
def State.wdogBite_ (s : State) (code : Nat) : State :=
  let s := (s.bump Fld.SP_WDOG_STATUS_BITES).crashLog 4 0xFF code 0 0
  let s := s.wdogRestart
  if s.fbit Fld.SP_WDOG_ACTION 0 then s.fundReset 2 []
  else (s.warmBegin true).getD (s.fset Fld.SP_WARM_CTL_REFUSED 0 1)

/-- A write of SP_WDOG: ACTION and TIMEOUT_MS are ignored while EN = 1; EN starts the count; then KICK acts. -/
def State.wdogPut (s : State) (v : Word) : State :=
  let was := s.fbit Fld.SP_WDOG_EN 0
  let s := s.fset Fld.SP_WDOG_WARN_MS 0 (bits v 31 16)
  let s := if was then s else (s.fset Fld.SP_WDOG_ACTION 0 (bits v 62 62)).fset Fld.SP_WDOG_TIMEOUT_MS 0 (bits v 47 32)
  let s := if !was && bit v 63 then (s.fset Fld.SP_WDOG_EN 0 1).wdogRestart else s
  if bits v 7 0 = 0 ∨ !s.fbit Fld.SP_WDOG_EN 0 then s
  else if bits v 7 0 = 0xC3 then s.wdogRestart
  else s.wdogBite_ 3
/-- WDOG_START. -/
def execWdogStart (value : Word) (s : State) : Out := .next (s.wdogPut (value ||| fieldAt 1 63))
/-- WDOG_KICK. -/
def execWdogKick (value : Word) (s : State) : Out := .next (s.wdogPut value)

/-- WDOG_WARNING: once per count, unless WARN_MS = 0; the count does not run while a warm restart pauses it. -/
def execWdogWarning (s : State) : Out :=
  .next (if s.fbit Fld.SP_WDOG_EN 0 && !s.wdogHeld && s.fget Fld.SP_WDOG_WARN_MS 0 != 0 && !s.fbit Fld.SP_WDOG_STATUS_WARNED 0 then
      ((s.fset Fld.SP_WDOG_STATUS_WARNED 0 1).irq 537).crashLog 4 0xFF 1 0 0
    else s)
/-- WDOG_BITE: the count reaches zero. -/
def execWdogBite (s : State) : Out := .next (if s.fbit Fld.SP_WDOG_EN 0 && !s.wdogHeld then s.wdogBite_ 2 else s)

/-! ### Debug tokens (R423, R424, Table 19-6) -/

/-- What the checks of R423 find in a token, by the codes of RESULT. The Ecgor debug key is Config's slot 16. -/
def State.tokenResult (s : State) (ws : List Word) : Nat :=
  let w (k : Nat) : Word := ws.getD k 0
  let slot := bits (w 0) 15 8
  let key := if slot = 0 then 16 else slot
  if bits (w 0) 63 32 ≠ 0x51444247 ∨ bits (w 0) 31 16 ≠ 1 ∨ bits (w 0) 7 0 ≠ 1 ∨ ((ws.drop 4).take 4).any (fun v => v != 0) then 2
  else if w 1 ≠ Config.serial then 3
  else if !s.chalValid ∨ w 2 ≠ s.rd Reg.SP_DBG_CHAL 0 ∨ w 3 ≠ s.rd Reg.SP_DBG_CHAL 1 then 4
  else if 1 < slot ∨ !Config.enrolled key then 5
  else if signed key (((ws.take 8).map wordBytesLE).flatten) (((ws.drop 8).take 12).map wordBytesLE).flatten then 1
  else 6

/-- A token is checked: refused in approved mode; otherwise the challenge is used, and an accepted token raises the alarm, whose erase comes
before the unlock. -/
def State.dbgToken (s : State) (ws : List Word) : State :=
  if s.fbit Fld.SP_APPROVED_ACTIVE 0 then (s.fset Fld.SP_DBG_RESULT 0 7).crashLog 8 0xFF 7 0 0
  else
    let r := s.tokenResult ws
    let s := ({ s with chalValid := false }.fset Fld.SP_DBG_RESULT 0 r).crashLog 8 0xFF r 0 0
    if r = 1 then (s.keyAlarm 4).fset Fld.SP_DBG_UNLOCKED 0 1 else s

/-- The signals of Table 20-4 and of R436 and R437, in the groups that the boundary-scan rule tells apart (R449). -/
inductive BallGroup where
  | ethSerdes | pcieSerdes | ddrCk | ddrOther | corner
  deriving DecidableEq, Repr

/-- Whether the balls of a group are in the boundary-scan chain: the SerDes balls and the DDR5 CK balls are not (R449). -/
def BallGroup.scanned : BallGroup → Bool
  | .ethSerdes | .pcieSerdes | .ddrCk => false
  | .ddrOther | .corner => true

/-- What the JTAG port does under an instruction shifted into it: until an unlock every instruction but BYPASS, IDCODE, SAMPLE/PRELOAD and
DBG_TOKEN acts as BYPASS (R422); boundary scan by SAMPLE/PRELOAD needs no unlock (R449). -/
def State.jtagActs (s : State) (i : JtagInsn) : JtagInsn :=
  match i with
  | .bypass | .idcode | .samplePreload | .dbgToken => i
  | .other c => if s.fbit Fld.SP_DBG_UNLOCKED 0 then .other c else .bypass

/-- An instruction is shifted into the JTAG port. -/
def State.jtagShift (s : State) (i : JtagInsn) : State := { s with jtagIr := s.jtagActs i }

/-- DBG_TOKEN_GO: the token in the window. -/
def execDbgTokenGo (s : State) : Out := .next (s.dbgToken ((List.range 20).map fun k => s.rd Reg.SP_TOKEN k))
/-- JTAG_DBG_TOKEN (R422). -/
def execJtagDbgToken (token : List Word) (s : State) : Out := .next ((s.jtagShift .dbgToken).dbgToken token)

/-- NEW_CHALLENGE: 16 bytes of the DRBG. -/
def State.newChallenge (s : State) : State :=
  let (a, s) := s.drawWord
  let (b, s) := s.drawWord
  { (s.wr Reg.SP_DBG_CHAL 0 a).wr Reg.SP_DBG_CHAL 1 b with chalValid := true }
/-- NEW_CHALLENGE. -/
def execNewChallenge (s : State) : Out := .next s.newChallenge
/-- A write of SP_DBG. -/
def State.dbgPut (s : State) (v : Word) : State :=
  let s := if bit v 0 then s.newChallenge else s
  if bit v 1 then s.dbgToken ((List.range 20).map fun k => s.rd Reg.SP_TOKEN k) else s

/-! ### Approved mode (R428, R429) -/

/-- Why approved mode is refused, by the codes of REASON; 0 when it is not. -/
def State.approvedReason (s : State) : Nat :=
  if !(s.listed Reg.CIP_CTX_W0).all (fun c => s.fget Fld.CIP_CTX_W0_STATE c == 0) then 1
  else if (List.range 8).any fun k => s.fget Fld.SP_TUNE_USER (144 + k) != 0 then 2
  else if s.fbit Fld.SP_DBG_UNLOCKED 0 then 3
  else if s.spTestFail || s.rngDead || !s.fbit Fld.CIP_SELFTEST_READY 0 then 4
  else if s.keyless then 5
  else 0
/-- A write of SP_APPROVED. -/
def State.approvedPut (s : State) (v : Word) : State :=
  let s := if bit v 29 then s.fset Fld.SP_APPROVED_REFUSED 0 0 else s
  if !bit v 0 then s
  else match s.approvedReason with
    | 0 => s.fset Fld.SP_APPROVED_ACTIVE 0 1
    | r => (s.fset Fld.SP_APPROVED_REFUSED 0 1).fset Fld.SP_APPROVED_REASON 0 r
/-- APPROVED_ENTER (R428). -/
def execApprovedEnter (s : State) : Out := .next (s.approvedPut 1)

/-! ### DICE, random numbers and entropy (R426, R430, R431) -/

/-- DICE_SEAL (R426): the window reads zero until the next boot or warm restart. -/
def execDiceSeal (s : State) : Out := .next { s with diceSealed := true }

/-- Word `k` of the DICE window, as control core 0 in M reads it; every other reader sees zero (R426). -/
def State.diceRead (s : State) (req k : Nat) : Word :=
  if req = 0xE000 ∧ (mget Core.init s.cores 0).priv = .m ∧ s.diceKeys ∧ !s.diceSealed then
    Config.aliasWord deviceSeed (diceCdi s.diceD s.diceSvn s.diceSlot s.diceDebug) k
  else 0

/-- A read of SP_RNG: DRBG output, or zero once an entropy test has failed. The DRBG reseeds after 2^20 requests. -/
def State.rng (s : State) : Word × State :=
  let s := { s with drbgCount := if 2 ^ 20 ≤ s.drbgCount + 1 then 0 else s.drbgCount + 1 }
  if s.rngDead then (0, s) else s.drawWord
/-- RNG_READ. -/
def execRngRead (req : Nat) (s : State) : Out := .next (let (w, s) := s.rng; s.emit (.readAnswer req w))
/-- DRBG_RESEED (R430). -/
def execDrbgReseed (s : State) : Out := .next { s with drbgCount := 0 }
/-- ENTROPY_SAMPLE (R430, R431). -/
def execEntropySample (pass : Bool) (s : State) : Out := .next (if pass then s else { s with rngDead := true }.keyAlarm 5)

/-! ### Supplies, the shield and straps (R420, R439, R441) -/

/-- SUPPLY_OUT_OF_RANGE (R380, R420, R441): after sequencing, the alarm, and the die in reset until the rail returns. -/
def execSupplyOutOfRange (rail : Fin 7) (s : State) : Out :=
  .next (if s.seqLeft ≠ 0 ∨ mget false s.hold (10 + rail) then s
    else ((s.keyAlarm 0).setHold (10 + rail) true).fundReset 2 [])
/-- RAIL_RETURNS (R380). -/
def execRailReturns (rail : Fin 7) (s : State) : Out := .next (s.setHold (10 + rail) false)
/-- SHIELD_BREACH (R420). -/
def execShieldBreach (s : State) : Out := .next (s.keyAlarm 3)

/-- SEQ_STAGE (R441): SEQ_EN0, SEQ_EN1 and SEQ_EN2 rise in turn as the rails of the stage before come into range; with the last rails every
supply is up. -/
def execSeqStage (s : State) : Out :=
  .next (match s.seqLeft with
    | 0 => s
    | 1 => { s with seqLeft := 0 }.setHold 4 false
    | n + 2 => { s with seqLeft := n + 1 }.emit (.seqEn (2 - min 2 n) true))
/-- SEQ_FAIL (R441): a rail is not in range within 20 ms. The record's CODE is not stated. -/
def execSeqFail (s : State) : Out :=
  .next (if s.seqLeft = 0 then s
    else
      let (code, s) := s.drawNat
      let s := s.crashLog 0xA 0xFF code (BitVec.ofNat 64 (2 ^ 34 - 1)) 0
      let s := ((s.emit (.seqEn 0 false)).emit (.seqEn 1 false)).emit (.seqEn 2 false)
      { s with seqLeft := 4 }.setHold 4 true)

/-- TEST_MODE_PIN (R439). -/
def execTestModePin (high : Bool) (s : State) : Out :=
  .next (if high then (if mget false s.hold 1 then s else (s.setHold 1 true).fundReset 2 []) else s.setHold 1 false)

/-- A write of SP_MGMT_CFG (R8): block SP has no LOCKED_WRITE bit. -/
def State.mgmtCfgPut (s : State) (v : Word) : State :=
  s.wr Reg.SP_MGMT_CFG 0 (writeFields (s.fbit Fld.SP_MGMT_CFG_LOCK 0) Reg.SP_MGMT_CFG (s.rd Reg.SP_MGMT_CFG 0) v)

end Sys2Proof.Machine
end

