-- ==== Sys2Proof/Machine/ThreadEvents.lean ====
section
/-! DEFINITION. The events of threads, channels, send ports and pegs (chapter 03), and the image swap (R56 to R58). -/

namespace Sys2Proof.Machine

/-! ### Image swap -/

/-- A thread that waits in chrd.pb with nothing taken leaves its wait, adopts the epoch and begins at the entry (R56). -/
def State.adoptAtCommit (s : State) (t : Nat) : State :=
  let th := s.thr t
  match th.wait with
  | some (.read _ _ _ true) =>
    if th.st = .waitRd then
      let s := s.leaveFifos t
      s.setThr t (s.adopt t { th with st := .ready, wait := none })
    else s
  | _ => s

/-- IMAGE_COMMIT (R56, R58): ignored with SWAP_REFUSED while OLD_COUNT ≠ 0; otherwise the epoch advances, the image flips, and the
threads waiting in chrd.pb adopt at once. -/
def execImageCommit (c : Fin 8) (s : State) : Out :=
  if s.oldCount c ≠ 0 then .next (s.fset Fld.CLU_IMAGE_STATUS_SWAP_REFUSED c 1)
  else
    let s := s.finc Fld.CLU_PROG_EPOCH_EPOCH c
    let s := s.fset Fld.CLU_PROG_EPOCH_ACTIVE_IMAGE c (1 - s.fget Fld.CLU_PROG_EPOCH_ACTIVE_IMAGE c)
    .next ((cluThreads c).foldl State.adoptAtCommit s)

/-- Whether any non-halted thread of a cluster runs an image (R58). -/
def State.imageInUse (s : State) (c : Nat) (imageB : Bool) : Bool :=
  (cluThreads c).any fun t => (s.thr t).st != .halted && (s.thr t).image == imageB

/-- PROGRAM_MEMORY_WRITE (R58): a write that touches an image in use is dropped with IMAGE_WRITE_REFUSED. -/
def State.programWrite (s : State) (c : Nat) (target : ProgTarget) : State :=
  match target with
  | .entry imageB v =>
    if s.imageInUse c imageB then s.fset Fld.CLU_IMAGE_STATUS_IMAGE_WRITE_REFUSED c 1
    else s.fset (if imageB then Fld.CLU_IMAGE_CTL_ENTRY_B else Fld.CLU_IMAGE_CTL_ENTRY_A) c v.toNat
  | .bytes off data =>
    if data.isEmpty || 0x80000 < off + data.length then s
    else if (off < 0x40000 && s.imageInUse c false) || (0x40000 < off + data.length && s.imageInUse c true) then
      s.fset Fld.CLU_IMAGE_STATUS_IMAGE_WRITE_REFUSED c 1
    else s.storeBytes (programBase c + off) data

def execProgramMemoryWrite (c : Fin 8) (target : ProgTarget) (s : State) : Out := .next (s.programWrite c target)

/-! ### Thread control (R62, R87 to R90) -/

/-- START (R56, R62): a halted thread adopts the epoch and becomes READY at the entry. -/
def State.startThread (s : State) (t : Nat) : State :=
  let th := s.thr t
  if th.st = .halted then s.setThr t (s.adopt t { th with st := .ready, wait := none }) else s

/-- STOP (R87): a non-halted thread stops at its instruction boundary; a waiting one leaves its FIFO; a granted peg.acq completes
first. -/
def State.stopThread (s : State) (t : Nat) : State :=
  let th := s.thr t
  if th.st = .halted || th.st = .stopped then s
  else match th.wait with
    | some (.peg rd _ (some broken)) =>
      s.setThr t { th with st := .stopped, wait := none, a := (th.a.setG rd (BitVec.ofNat 64 (b2n broken))).retireAt (th.a.pc + 4) }
    | _ =>
      let s := s.leaveFifos t
      s.setThr t { th with st := .stopped, wait := none }

/-- RESUME (R88): a stopped thread becomes READY; it re-executes the instruction it was waiting in, at which its pc still stands. -/
def State.resumeThread (s : State) (t : Nat) : State :=
  let th := s.thr t
  if th.st = .stopped then s.setThr t { th with st := .ready } else s

def execThreadStart (t : Fin 1536) (s : State) : Out := .next (s.startThread t)
def execThreadStop (t : Fin 1536) (s : State) : Out := .next (s.stopThread t)
def execThreadResume (t : Fin 1536) (s : State) : Out := .next (s.resumeThread t)
def execThreadKill (t : Fin 1536) (s : State) : Out := .next (s.killThread t)

/-- One write of CLU_THR_CTL acts on its highest-priority bit only: KILL, STOP, RESUME, START (R90). -/
def State.thrCtl (s : State) (t : Nat) (v : Word) : State :=
  if bit v 3 then s.killThread t else if bit v 2 then s.stopThread t else if bit v 1 then s.resumeThread t
  else if bit v 0 then s.startThread t else s

/-- THREAD_SHARE_WRITE (R65): dropped with SHARE_REFUSED where the thread runs or the reservations would pass 1,536 engine slots
or 384 packet slots. A zero ENG or PKT stores 1. -/
def State.shareWrite (s : State) (t : Nat) (value : Word) : State :=
  let c := cluOf t
  let v := writeFields false Reg.CLU_THR_SHARE (s.rd Reg.CLU_THR_SHARE t) value
  let v := if Fld.CLU_THR_SHARE_ENG.of v = 0 then Fld.CLU_THR_SHARE_ENG.ins v 1 else v
  let v := if Fld.CLU_THR_SHARE_PKT.of v = 0 then Fld.CLU_THR_SHARE_PKT.ins v 1 else v
  let n := s.wr Reg.CLU_THR_SHARE t v
  if (s.thr t).st != .halted || 1536 < n.engStatic c || 384 < n.pktStatic c then s.fset Fld.CLU_SHARE_POOL_SHARE_REFUSED c 1
  else n

def execThreadShareWrite (t : Fin 1536) (value : Word) (s : State) : Out := .next (s.shareWrite t value)

/-! ### Channels -/

/-- CHANNEL_CFG_WRITE (R74): ignored for index 0x000, dropped with CFG_BUSY while the channel holds a word or a waiter. -/
def State.chanCfgWrite (s : State) (id : Nat) (value : Word) : State :=
  let c := s.chan id
  if id % 2048 = 0 then s
  else if c.committed + c.reserved ≠ 0 || !c.readers.isEmpty || !c.writers.isEmpty then s.fset Fld.CLU_CHAN_STATUS_CFG_BUSY id 1
  else s.wr Reg.CLU_CHAN_CFG id (writeFields false Reg.CLU_CHAN_CFG (s.rd Reg.CLU_CHAN_CFG id) value)

def execChannelCfgWrite (c : Fin 8) (index : Fin 2048) (value : Word) (s : State) : Out :=
  .next (s.chanCfgWrite (c.val * 2048 + index.val) value)

/-- A message with an uncorrectable word is discarded, with the packet it brings (Table 19-9). -/
def State.discardMsg (s : State) (k : Nat) (m : Msg) : State :=
  let c := s.chan k
  let s := s.setChan k { c with msgs := c.msgs.erase m }
  match m.pkt with
  | some h => (s.bump Fld.ACTC_ORPHAN_DROP_COUNT).dropFrame h
  | none => s

/-- MESSAGE_DELIVERED (R63, R71): the first blocked reader with an eligible message takes it; if a word of the message is uncorrectable,
the message is discarded and the reader faults with BUS, whose value is its buffer's address (Table 19-9; DESIGN CHOICE, log entry 74). -/
def execMessageDelivered (d : Delivery) (s : State) : Out :=
  let ch := d.ch
  let c := s.chan ch
  match c.readers.find? fun t => (s.messageFor t c).isSome with
  | none => .next s
  | some t =>
    match s.messageFor t c, (s.thr t).wait with
    | some m, some (.read rd _ addr pb) =>
      let a : Word := BitVec.ofNat 64 addr
      if d.bad then .next (((s.discardMsg ch m).noteThreadEcc t a).peoshFault t 0x08 (s.currentInsn t) a)
      else .next (s.takeMsg t ch m rd addr pb)
    | _, _ => .next s

/-- A word of a channel is reserved for a thread, which stages `v` (R34). -/
def State.stageWord (s : State) (t k : Nat) (v : Word) : State :=
  let c := s.chan k
  let s := s.setChan k { c with reserved := c.reserved + 1, writers := c.writers.erase (.thread t) }
  let th := s.thr t
  let words := match th.openMsg with | some m => m.words | none => []
  s.setThr t { th with st := .ready, wait := none, openMsg := some { ch := k, words := words ++ [v] }, a := th.a.retireAt (th.a.pc + 4) }

/-- WORD_RESERVED (R63, R68): the head of the writer FIFO is granted a word, unless a unit message waits. -/
def execWordReserved (ch : Nat) (s : State) : Out :=
  let c := s.chan ch
  match c.writers with
  | .thread t :: _ =>
    match (s.thr t).wait with
    | some (.write _ v) => .next (if c.units.isEmpty && 0 < c.room then s.stageWord t ch v else s)
    | _ => .next s
  | _ => .next s

/-- UNIT_MESSAGE_COMMIT (R68): the oldest waiting unit message that fits is committed, and the engine slot of a reply is freed (R64). -/
def execUnitMessageCommit (ch : Nat) (s : State) : Out :=
  match (s.chan ch).commitUnit with
  | none => .next s
  | some (m, c) => .next (match m.eng with | some t => (s.setChan ch c).freeEng t | none => s.setChan ch c)

/-! ### Send ports (R75 to R77) -/

/-- Results of a send-port command (PEG_SEND_STATUS.RESULT): 0 where the command is accepted. -/
def State.portResult (s : State) (id count : Nat) : Nat :=
  if !chanValid id then 1
  else if !(if id < 0x4000 then id % 2048 != 0 && s.chanEn id && decide (2 ≤ s.fget Fld.CLU_CHAN_CFG_WR_SCOPE id)
      else id == 0x8000 || id == 0x8001) then 2
  else if count = 0 || 16 < count then 3
  else 0

/-- SEND_PORT_GO (R75, R76, R77): refused with a result, or joined to the channel's writer FIFO. -/
def execSendPortGo (req : Nat) (k : Fin 16) (count : Fin 32) (channel : BitVec 16) (s : State) : Out :=
  if req ≠ 0xE000 + k.val then .next s
  else if s.fbit Fld.PEG_SEND_STATUS_BUSY k then .next (s.fset Fld.PEG_SEND_STATUS_REFUSED k 1)
  else
    let s := (s.fset Fld.PEG_SEND_CMD_COUNT k count).fset Fld.PEG_SEND_CMD_CHANNEL k channel.toNat
    let r := s.portResult channel.toNat count
    if r ≠ 0 then .next (s.fset Fld.PEG_SEND_STATUS_RESULT k r)
    else
      let key := chanKey channel.toNat 8
      let c := s.chan key
      let s := s.setChan key { c with writers := c.writers ++ [.port k] }
      .next ({ s with ports := mput s.ports k { ch := key, count := count } }.fset Fld.PEG_SEND_STATUS_BUSY k 1)

/-- SEND_PORT_ABORT (R77): withdraws a busy command; RESULT reads ABORTED. -/
def execSendPortAbort (req : Nat) (k : Fin 16) (s : State) : Out :=
  if req ≠ 0xE000 + k.val then .next s
  else match mfind s.ports k with
    | none => .next s
    | some p =>
      let c := s.chan p.ch
      let s := s.setChan p.ch { c with writers := c.writers.erase (.port k) }
      let s := { s with ports := merase s.ports k }
      .next ((s.fset Fld.PEG_SEND_STATUS_BUSY k 0).fset Fld.PEG_SEND_STATUS_RESULT k 4)

/-- SEND_DATA_WRITE (R77): ignored with REFUSED while BUSY; ignored from any other requester. -/
def execSendDataWrite (req : Nat) (k : Fin 16) (word : Fin 16) (value : Word) (s : State) : Out :=
  if req ≠ 0xE000 + k.val then .next s
  else if s.fbit Fld.PEG_SEND_STATUS_BUSY k then .next (s.fset Fld.PEG_SEND_STATUS_REFUSED k 1)
  else .next (s.wr Reg.PEG_SEND_DATA (ix2 16 k word) value)

/-- SEND_PORT_COMMIT (R76): at the head of the writer FIFO, with room for all its words and no unit message waiting, the port
commits its message with source ID 0xE000 + k. -/
def execSendPortCommit (k : Fin 16) (s : State) : Out :=
  match mfind s.ports k with
  | none => .next s
  | some p =>
    let c := s.chan p.ch
    if c.writers.head? = some (.port k) && c.units.isEmpty && p.count ≤ c.room then
      let words := (List.range p.count).map fun i => s.rd Reg.PEG_SEND_DATA (ix2 16 k i)
      let m : Msg := { src := 0xE000 + k, words := words }
      let s := s.setChan p.ch { c with writers := c.writers.tail, msgs := c.msgs ++ [m] }
      let s := { s with ports := merase s.ports k }
      let s := (s.fset Fld.PEG_SEND_STATUS_BUSY k 0).fset Fld.PEG_SEND_STATUS_RESULT k 0
      .next (s.finc Fld.PEG_SEND_STATUS_SENT k)
    else .next s

/-! ### Pegs -/

/-- PEG_GRANTED (R63, R78): the grant reaches the waiting thread: gd := 0, or 1 if the peg was broken. -/
def execPegGranted (t : Fin 1536) (s : State) : Out :=
  let th := s.thr t
  match th.st, th.wait with
  | .waitPeg, some (.peg rd _ (some broken)) =>
    .next (s.setThr t { th with st := .ready, wait := none, a := (th.a.setG rd (BitVec.ofNat 64 (b2n broken))).retireAt (th.a.pc + 4) })
  | _, _ => .next s

/-- HOLD_WATCHDOG_EXPIRY (R80): one watchdog record per hold, and with KILL = 1 the holder is killed. -/
def execHoldWatchdogExpiry (peg : Nat) (s : State) : Out :=
  let p := s.peg peg
  match p.holder with
  | none => .next s
  | some t =>
    if !s.fbit Fld.PEG_WDOG_EN 0 || p.wdogDone then .next s
    else
      let s := s.setPeg peg { p with wdogDone := true }
      let m := faultRecord (cluOf t) 3 0 t (s.thr t).a.pc (s.currentInsn t) (BitVec.ofNat 64 (pegId peg)) 0 0
      let s := s.sendRecord (cluOf t) m
      .next (if s.fbit Fld.PEG_WDOG_KILL 0 then s.killThread t else s)

/-! ### The silence detector (R84 to R86) -/

/-- A stuck thread waits on a cluster channel, at chwr, or in peg.acq with no grant on its way. -/
def Thread.stuck (th : Thread) : Bool :=
  match th.st, th.wait with
  | .waitRd, some (.read _ k _ _) => decide (k < 0x4000)
  | .waitWr, _ => true
  | .waitPeg, some (.peg _ _ none) => true
  | _, _ => false

/-- The conditions of R84 as they stand. -/
def State.silent (s : State) (c : Nat) : Bool :=
  let ts := (cluThreads c).filter fun t => (s.thr t).st != .halted
  !ts.isEmpty && (ts.all fun t => (s.thr t).stuck) && ((cluThreads c).all fun t => (s.thr t).engHeld == 0) &&
    (ts.all fun t => match (s.thr t).wait with | some (.read _ k _ _) => (s.messageFor t (s.chan k)).isNone | _ => true)

/-- The bitmap words of the threads of a cluster that satisfy a test (Table 03-4). -/
def State.threadMap (s : State) (c : Nat) (p : Thread → Bool) : List Word :=
  (List.range 3).map fun i =>
    BitVec.ofNat 64 ((List.range 64).map fun j => if p (s.thr (c * 192 + 64 * i + j)) then 2 ^ j else 0).sum

/-- The silence record (Table 03-4), with SILENCE_COUNT after this trap. -/
def State.silenceRecord (s : State) (c : Nat) (pc : Word) (count : Nat) : List Word :=
  let n (st : ThreadState) : Nat := ((cluThreads c).filter fun t => (s.thr t).st == st).length
  [pc, fieldAt (count % 65536) 32 ||| fieldAt (n .waitRd) 24 ||| fieldAt (n .waitPeg) 16 ||| fieldAt (n .waitWr) 8 |||
    fieldAt (n .halted) 0] ++ s.threadMap c (·.st == .waitRd) ++ s.threadMap c (·.st == .waitPeg) ++
    s.threadMap c (·.st == .waitWr) ++ [0]

/-- SILENCE_DETECTED (R85, R86): with a stuck supervisor the silence trap is taken; with a halted one the escalation is raised. -/
def execSilenceDetected (c : Fin 8) (s : State) : Out :=
  if !s.fbit Fld.CLU_SUPV_SILENCE_EN c || !s.silent c then .next s
  else
    let t := s.supervisor c
    let th := s.thr t
    let s' := s.finc Fld.CLU_SUPV_STATUS_SILENCE_COUNT c
    if th.st = .halted then .next ((s'.fset Fld.CLU_SUPV_STATUS_SILENCE_ESC c 1).irq (512 + c))
    else
      let rec' := s.silenceRecord c th.a.pc (s'.fget Fld.CLU_SUPV_STATUS_SILENCE_COUNT c)
      let s' := s'.leaveFifos t
      let vec := if th.image then s.fget Fld.CLU_SUPV_SILENCE_VEC_B c else s.fget Fld.CLU_SUPV_SILENCE_VEC_A c
      .next (s'.setThr t { th with
        st := .ready, wait := none, scratch := mwrBytes th.scratch 0xF80 (rec'.map wordBytesLE).flatten,
        a := { th.a with pc := BitVec.ofNat 64 (4 * vec) } })

end Sys2Proof.Machine
end

