-- ==== Sys2Proof/Machine/DevAccess.lean ====
section
/-! DEFINITION. Reads and writes of block registers, the table and TM windows and the aliases, by requester and DPA (R7 to R9, R393 to R395,
R406 to R409). -/

namespace Sys2Proof.Machine

/-- An access to a register: the requester's identity (R168), the element, the first byte within it and the size. -/
structure RegAcc where
  req : Nat
  i : Nat
  off : Nat
  size : Nat
  deriving DecidableEq, Repr

/-- What a write does to one register array: the value is that of the whole register (`regValue`). -/
abbrev RegWrite := State → RegAcc → Word → State

/-- The state after a command that always goes on. -/
def stepTo (s : State) : Out → State
  | .next t => t
  | _ => s

/-- A write by access types alone (R7, R8). -/
def plainWrite (r : RegDesc) : RegWrite := fun s a v => s.wr r a.i (writeFields false r (s.rd r a.i) v)

/-! ### Registers whose writes do more than set fields -/

/-- CLU_IMAGE_CTL (R58): each entry field that the write reaches. -/
def imageCtlWrite : RegWrite := fun s a v =>
  let s := if byteMask a.off a.size &&& fieldAt 0xFFFF 0 != 0 then s.programWrite a.i (.entry false (v.extractLsb' 0 16)) else s
  if byteMask a.off a.size &&& fieldAt 0xFFFF 16 != 0 then s.programWrite a.i (.entry true (v.extractLsb' 16 16)) else s

/-- CLU_SUPV: a SUPV_THREAD above 191 is ignored. -/
def supvWrite : RegWrite := fun s a v =>
  let new := writeFields false Reg.CLU_SUPV (s.rd Reg.CLU_SUPV a.i) v
  s.wr Reg.CLU_SUPV a.i (if 191 < Fld.CLU_SUPV_SUPV_THREAD.of new then
    Fld.CLU_SUPV_SUPV_THREAD.ins new (s.fget Fld.CLU_SUPV_SUPV_THREAD a.i) else new)

/-- PEG_SEND_CMD (R76, R77): ABORT alone, or GO, or the fields of a port that is not busy, at which ABORT has no effect; only its own
core writes a port. -/
def sendCmdWrite : RegWrite := fun s a v =>
  let k := Fin.ofNat 16 a.i
  if bit v 30 && s.fbit Fld.PEG_SEND_STATUS_BUSY a.i then stepTo s (execSendPortAbort a.req k s)
  else if bit v 31 && !bit v 30 then stepTo s (execSendPortGo a.req k (Fin.ofNat 32 (bits v 20 16)) (v.extractLsb' 0 16) s)
  else if a.req ≠ 0xE000 + a.i then s
  else if s.fbit Fld.PEG_SEND_STATUS_BUSY a.i then s.fset Fld.PEG_SEND_STATUS_REFUSED a.i 1
  else plainWrite Reg.PEG_SEND_CMD s a (v &&& ~~~(fieldAt 3 30))

/-- The registers of clusters and of block PEG. -/
def cluWrites : List (RegDesc × RegWrite) := [
  (Reg.CLU_IMAGE_CTL, imageCtlWrite),
  (Reg.CLU_PROG_EPOCH, fun s a v => if bit v 0 then stepTo s (execImageCommit (Fin.ofNat 8 a.i) s) else s),
  (Reg.CLU_THR_SHARE, fun s a v => s.shareWrite a.i v),
  (Reg.CLU_CHAN_CFG, fun s a v => s.chanCfgWrite a.i v),
  (Reg.CLU_SUPV, supvWrite),
  (Reg.CLU_THR_CTL, fun s a v => s.thrCtl a.i v),
  (Reg.PEG_SEND_CMD, sendCmdWrite),
  (Reg.PEG_SEND_STATUS, fun s a v => if a.req = 0xE000 + a.i then plainWrite Reg.PEG_SEND_STATUS s a v else s),
  (Reg.PEG_SEND_DATA, fun s a v => stepTo s (execSendDataWrite a.req (Fin.ofNat 16 (a.i / 16)) (Fin.ofNat 16 (a.i % 16)) v s))]

/-- PAR_GRAPH_CTL (R95): no frame is part-way through a walk between two commands. -/
def graphCtlWrite : RegWrite := fun s a v =>
  let s := plainWrite Reg.PAR_GRAPH_CTL s a (v &&& ~~~(fieldAt 1 0))
  if bit v 0 then stepTo s (execParseGraphCommit false s) else s

/-- A word of the parse memory, with its bank (R95). -/
def parseWrite (r : RegDesc) : RegWrite := fun s a v => s.parseMemWrite r a.i (outerIx r a.i) v

/-- PAR_SRC_CFG: a write of ENG_MAP 0 stores 0xFF. -/
def srcCfgWrite : RegWrite := fun s a v =>
  let t := plainWrite Reg.PAR_SRC_CFG s a v
  if t.fget Fld.PAR_SRC_CFG_ENG_MAP a.i = 0 then t.fset Fld.PAR_SRC_CFG_ENG_MAP a.i 0xFF else t

/-- TM_FLUSH (R159): only a write that reaches QUEUE starts a flush. -/
def tmFlushWrite : RegWrite := fun s a v =>
  if byteMask a.off a.size &&& fieldAt 0x3FFFF 0 != 0 then s.tmFlush v
  else if bit v 62 then s.fset Fld.TM_FLUSH_REFUSED 0 0 else s

/-- The registers of blocks PAR, ACT, TBL and TM. -/
def pathWrites : List (RegDesc × RegWrite) := [
  (Reg.PAR_SRC_CFG, srcCfgWrite),
  (Reg.PAR_GRAPH_CTL, graphCtlWrite),
  (Reg.PAR_FC_QUOTA, fun s a v => s.isoWrite a.i (plainWrite Reg.PAR_FC_QUOTA s a v)),
  (Reg.PAR_STATE_W0, parseWrite Reg.PAR_STATE_W0),
  (Reg.PAR_STATE_W1, parseWrite Reg.PAR_STATE_W1),
  (Reg.PAR_TRANS_W0, parseWrite Reg.PAR_TRANS_W0),
  (Reg.PAR_TRANS_W1, parseWrite Reg.PAR_TRANS_W1),
  (Reg.PAR_EXT_W0, parseWrite Reg.PAR_EXT_W0),
  (Reg.ACT_MIRROR, fun s a v => stepTo s (execMirrorWrite (Fin.ofNat 64 a.i) v s)),
  (Reg.TBL_EM_TABLE, fun s a v => s.emTableWrite a.i v),
  (Reg.TBL_EM_BANK, fun s a v => s.emBankWrite a.i v),
  (Reg.TBL_FRET, fun s a v => s.fretPut a.i v),
  (Reg.TBL_LOCK, fun s a v => s.lockWrite a.i v),
  (Reg.TBL_PUBLISH, fun s _ v => s.publish v),
  (Reg.TBL_LEARN_CAP, fun s a v => s.isoWrite a.i (plainWrite Reg.TBL_LEARN_CAP s a v)),
  (Reg.TM_CFG, fun s _ v => s.tmCfgWrite v),
  (Reg.TM_FLUSH, tmFlushWrite),
  (Reg.TM_INST_BUF, fun s a v => s.instBufWrite a.i v),
  (Reg.TM_NODE_W0, fun s a v => s.tmWrite a.i 0 v),
  (Reg.TM_NODE_W1, fun s a v => s.tmWrite a.i 1 v),
  (Reg.TM_NODE_W2, fun s a v => s.tmWrite a.i 2 v),
  (Reg.TM_NODE_W3, fun s a v => s.tmWrite a.i 3 v),
  (Reg.TM_NODE_W4, fun s a v => s.tmWrite a.i 4 v),
  (Reg.TM_POL_W0, fun s a v => s.polWrite a.i 0 v),
  (Reg.TM_POL_W1, fun s a v => s.polWrite a.i 1 v),
  (Reg.TM_POL_W2, fun s a v => s.polWrite a.i 2 v),
  (Reg.TM_POL_W3, fun s a v => s.polWrite a.i 3 v)]

/-- The key contexts and the other registers of blocks CIP, PRT and CUE. -/
def portWrites : List (RegDesc × RegWrite) := [
  (Reg.CIP_KLW_LOCK, fun s a v => s.klwRegWrite a.req 0x100 8 v),
  (Reg.CIP_KLW_CMD, fun s a v => s.klwRegWrite a.req 0x108 8 v),
  (Reg.CIP_KLW_STATUS, fun s a v => s.klwRegWrite a.req 0x110 8 v),
  (Reg.CIP_KLW_DATA, fun s a v => s.klwRegWrite a.req (0x200 + 8 * a.i) 8 v),
  (Reg.CIP_SELFTEST, fun s _ v => s.selftestWrite v),
  (Reg.CIP_CTX_W0, fun s a v => s.ctxWrite a.i 0 v),
  (Reg.CIP_CTX_W1, fun s a v => s.ctxWrite a.i 1 v),
  (Reg.CIP_CTX_W2, fun s a v => s.ctxWrite a.i 2 v),
  (Reg.CIP_CTX_W3, fun s a v => s.ctxWrite a.i 3 v),
  (Reg.CIP_CTX_W4, fun s a v => s.ctxWrite a.i 4 v),
  (Reg.CIP_CTX_W5, fun s a v => s.ctxWrite a.i 5 v),
  (Reg.CIP_CTX_W6, fun s a v => s.ctxWrite a.i 6 v),
  (Reg.CIP_CTX_W7, fun s a v => s.ctxWrite a.i 7 v),
  (Reg.PRT_PORT_CFG, fun s a v => s.portCfgWrite a.i v),
  (Reg.PRT_TS_HEAD, fun s a v => if bit v 0 then s.tsPop a.i else s),
  (Reg.PRT_TOD_STEP, fun s _ v => s.todStep v),
  (Reg.CUE_WIN_CTL, fun s a v =>
    let s := plainWrite Reg.CUE_WIN_CTL s a (v &&& ~~~(fieldAt 1 0))
    if bit v 0 then s.winCommitOp a.i else s),
  (Reg.CUE_CFG, fun s _ v => s.cueCfgWrite v)]

/-- CAPO_LOG_BASE: LOG2SIZE is ignored while LOG_EN = 1. -/
def logBaseWrite : RegWrite := fun s a v =>
  let t := plainWrite Reg.CAPO_LOG_BASE s a v
  if s.fbit Fld.CAPO_INST_CTL_LOG_EN a.i then t.fset Fld.CAPO_LOG_BASE_LOG2SIZE a.i (s.fget Fld.CAPO_LOG_BASE_LOG2SIZE a.i) else t

/-- CAPO_XFER_ADDR and CAPO_XFER_CFG are dropped while a transfer is BUSY. -/
def xferWrite (r : RegDesc) : RegWrite := fun s a v => if s.fbit Fld.CAPO_XFER_STATUS_BUSY 0 then s else plainWrite r s a v

/-- The registers of blocks PCI, HQE and CAPO. -/
def hostWrites : List (RegDesc × RegWrite) := [
  (Reg.PCI_TAG_QUOTA, fun s a v => s.tagQuotaWrite a.i v),
  (Reg.PCI_LTR_CFG, fun s a v => s.ltrWrite a.i v),
  (Reg.PCI_READY, fun s _ v => s.readyWrite v),
  (Reg.PCI_MBX_CTL, fun s a v => s.mbxFwWrite a.i v),
  (Reg.PCI_HB_RANGE_LO, fun s a v => s.hbRangeWrite (a.i / 16) (a.i % 16) false v),
  (Reg.PCI_HB_RANGE_HI, fun s a v => s.hbRangeWrite (a.i / 16) (a.i % 16) true v),
  (Reg.HQE_INST_RINGS, fun s a v => s.ringMapWrite (a.i / 3) (a.i % 3) v),
  (Reg.HQE_MODE, fun s _ v => s.modeWrite v),
  (Reg.HQE_PATCH_LOAD, fun s _ v => s.patchWrite v),
  (Reg.HQE_UC_CTX_CTL, fun s a v => s.ucCtlWrite a.i v),
  (Reg.HQE_UC_DBG, fun s a v => s.ucDbgWrite a.i v .clean),
  (Reg.HQE_SQ_W0, fun s a v => s.ringWrite 0 a.i 0 v),
  (Reg.HQE_SQ_W1, fun s a v => s.ringWrite 0 a.i 1 v),
  (Reg.HQE_SQ_W2, fun s a v => s.ringWrite 0 a.i 2 v),
  (Reg.HQE_SQ_W3, fun s a v => s.ringWrite 0 a.i 3 v),
  (Reg.HQE_RQ_W0, fun s a v => s.ringWrite 1 a.i 0 v),
  (Reg.HQE_RQ_W1, fun s a v => s.ringWrite 1 a.i 1 v),
  (Reg.HQE_RQ_W2, fun s a v => s.ringWrite 1 a.i 2 v),
  (Reg.HQE_RQ_W3, fun s a v => s.ringWrite 1 a.i 3 v),
  (Reg.HQE_CQ_W0, fun s a v => s.ringWrite 2 a.i 0 v),
  (Reg.HQE_CQ_W1, fun s a v => s.ringWrite 2 a.i 1 v),
  (Reg.HQE_CQ_W2, fun s a v => s.ringWrite 2 a.i 2 v),
  (Reg.HQE_CQ_W3, fun s a v => s.ringWrite 2 a.i 3 v),
  (Reg.CAPO_INST_CTL, fun s a v => s.capoCtlWrite a.i v),
  (Reg.CAPO_XFER_ADDR, xferWrite Reg.CAPO_XFER_ADDR),
  (Reg.CAPO_XFER_CFG, xferWrite Reg.CAPO_XFER_CFG),
  (Reg.CAPO_LOG_BASE, logBaseWrite)]

/-- The registers of blocks STO and BOW. -/
def stoBowWrites : List (RegDesc × RegWrite) :=
  ([(Reg.STO_CTRL_W0, 0), (Reg.STO_CTRL_W1, 1), (Reg.STO_CTRL_W2, 2), (Reg.STO_CTRL_W3, 3), (Reg.STO_CTRL_W4, 4), (Reg.STO_CTRL_W5, 5),
    (Reg.STO_CTRL_W6, 6), (Reg.STO_CTRL_W7, 7)].map fun p => (p.1, fun s a v => s.ctrlWrite a.i p.2 v)) ++
  ([0, 1, 2, 3].map fun w => (nsReg w, fun s a v => s.nsWrite (a.i / 16) (a.i % 16) w v)) ++
  ((List.range 16).map fun w => (connReg w, fun s a v => s.connWrite a.i w v)) ++
  [(Reg.STO_CFG, fun s a v => (plainWrite Reg.STO_CFG s a v).storageGo),
   (Reg.BOW_CH_CFG, fun s a v => s.bowCfgPut a.i v),
   (Reg.BOW_CH_CTL, fun s a v => s.bowCtl a.i v),
   (Reg.BOW_CH_SHD_W0, fun s a v => s.bowShadowPut a.i 0 v),
   (Reg.BOW_CH_SHD_W1, fun s a v => s.bowShadowPut a.i 1 v),
   (Reg.BOW_CH_SHD_W2, fun s a v => s.bowShadowPut a.i 2 v),
   (Reg.BOW_CH_SHD_W3, fun s a v => s.bowShadowPut a.i 3 v),
   (Reg.BOW_CQ_CFG, fun s a v => s.bowCqCfg a.i v),
   (Reg.BOW_CQ_IDX, fun s a v => if byteMask a.off a.size &&& fieldAt 0xFFFF 0 != 0 then s.bowCqIdx a.i v
     else plainWrite Reg.BOW_CQ_IDX s a v)]

/-- ICU_SRC_STATE (R351): PENDING is W1C, and SET raises the source. -/
def srcStateWrite : RegWrite := fun s a v =>
  let s := if bit v 31 then stepTo s (execIcuPendingClear (Fin.ofNat 2048 a.i) s) else s
  if bit v 0 then s.icuPend a.i else s

/-- The registers of blocks ICU, PWR, MEM and SP. -/
def sysWrites : List (RegDesc × RegWrite) := [
  (Reg.ICU_SRC_CFG, fun s a v => stepTo s (execIcuSrcCfgWrite (Fin.ofNat 2048 a.i) v s)),
  (Reg.ICU_SRC_STATE, srcStateWrite),
  (Reg.ICU_EOI, fun s a v => stepTo s (execIcuEoi a.req (Fin.ofNat 16 a.i) (Fin.ofNat 2048 (bits v 10 0)) s)),
  (Reg.PWR_CFG, fun s _ v => s.pwrCfgPut v),
  (Reg.PWR_INST_BUD, fun s a v => s.budgetPut Reg.PWR_INST_BUD a.i v),
  (Reg.PWR_DOM_CFG, fun s a v => s.budgetPut Reg.PWR_DOM_CFG a.i v),
  (Reg.PWR_DOM_CTL, fun s a v => s.domCtl a.i v),
  (Reg.MEM_CFG, fun s a v => s.memCfgPut v (byteMask a.off a.size)),
  (Reg.MEM_CH_CTL, fun s a v => s.memChCtl a.i v),
  (Reg.MEM_SECRET_LO, fun s a v => s.secretPut Reg.MEM_SECRET_LO a.i v),
  (Reg.MEM_SECRET_HI, fun s a v => s.secretPut Reg.MEM_SECRET_HI a.i v),
  (Reg.MEM_L3_CTL, fun s _ v => s.l3Put v),
  (Reg.SP_CORE_RELEASE, fun s _ v => s.coreReleaseWrite v),
  (Reg.SP_WARM_CTL, fun s _ v => s.warmCtl v),
  (Reg.SP_TUNE, fun s a v => if byteMask a.off a.size &&& fieldAt 0xFFFF 16 != 0 then s.tunePut a.i v else s),
  (Reg.SP_MGMT_CFG, fun s _ v => s.mgmtCfgPut v),
  (Reg.SP_LOG_STATUS, fun s _ v => if bit v 63 then s.logClear else s),
  (Reg.SP_WDOG, fun s _ v => s.wdogPut v),
  (Reg.SP_DBG, fun s _ v => s.dbgPut v),
  (Reg.SP_APPROVED, fun s _ v => s.approvedPut v),
  (Reg.SP_LOG_APPEND1, fun s _ v => s.logAppend v),
  (Reg.SP_DICE_SEAL, fun s _ v => if bit v 0 then { s with diceSealed := true } else s)]

/-- Every register array whose writes do more than set fields. -/
def regWrites : List (RegDesc × RegWrite) := cluWrites ++ pathWrites ++ portWrites ++ hostWrites ++ stoBowWrites ++ sysWrites

/-- A write of `size` bytes at byte `off` of element `i` of a register array. -/
def State.regPut (s : State) (r : RegDesc) (a : RegAcc) (v : Word) : State :=
  let v := regValue r (s.rd r a.i) a.off a.size v
  match regWrites.find? fun e => e.1.rid == r.rid with
  | some e => e.2 s a v
  | none => plainWrite r s a v

/-! ### Reads -/

/-- The code of a thread's state (CLU_THR_STATUS.STATE). -/
def threadStateCode : ThreadState → Nat
  | .halted => 0 | .ready => 1 | .waitRd => 2 | .waitWr => 3 | .waitPeg => 4 | .waitEng => 5 | .stopped => 6

/-- What CLU_THR_STATUS shows of a thread. -/
def State.thrView (s : State) (t : Nat) : Word :=
  let th := s.thr t
  fieldAt (th.a.pc.toNat % 2 ^ 18) 32 ||| fieldAt ((th.openMsg.map fun m => m.words.length).getD 0) 24 ||| fieldAt th.pegs.length 16 |||
    fieldAt (threadStateCode th.st) 12 ||| fieldAt (b2n th.image) 8 ||| fieldAt th.epoch.toNat 0

/-- What CLU_CHAN_STATUS shows of a channel. -/
def State.chanView (s : State) (k : Nat) : Word :=
  let c := s.chan k
  let w := s.rd Reg.CLU_CHAN_STATUS k
  w ||| fieldAt (min 255 c.readers.length) 32 ||| fieldAt (min 255 c.writers.length) 24 ||| fieldAt c.reserved 16 |||
    fieldAt c.committed 8 ||| fieldAt c.msgs.length 0

/-- What PEG_STATE and CLU_PEG_STATE show of a peg. -/
def State.pegView (s : State) (k : Nat) : Word :=
  let p := mget Peg.init s.pegs k
  fieldAt (b2n p.holder.isSome) 31 ||| fieldAt (b2n p.broken) 30 ||| fieldAt (p.holder.getD 0) 16 ||| fieldAt (min 255 p.waiters.length) 0

/-- What CLU_SHARE_POOL shows. -/
def State.shareView (s : State) (c : Nat) : Word :=
  fieldAt (s.fget Fld.CLU_SHARE_POOL_SHARE_REFUSED c) 63 ||| fieldAt (s.engStatic c) 48 ||| fieldAt (s.engFree c) 32 |||
    fieldAt (s.pktStatic c) 16 ||| fieldAt (s.pktFree c) 0

/-- Fault records of a cluster that the supervisor has not taken. -/
def State.recordsPending (s : State) (c : Nat) : Nat :=
  let ch := s.chan (2048 * c)
  ((ch.msgs ++ ch.units).filter fun m => m.src == 0xF0C0 + c).length

/-- What ICU_SRC_STATE shows. -/
def State.srcView (s : State) (src : Nat) : Word :=
  let w := s.rd Reg.ICU_SRC_STATE src
  let k := s.icuRouted src
  let routed := if bit w 30 then bits w 19 16 else k
  fieldAt (bits w 31 30) 30 ||| fieldAt (b2n (s.icuDeliverable src k)) 29 ||| fieldAt (b2n (mget 0 s.icuHold src == 1)) 28 |||
    fieldAt (b2n (mget false s.latch src)) 27 ||| fieldAt routed 16

/-- What ICU_CORE_STATUS shows. -/
def State.coreView (s : State) (k : Nat) : Word :=
  let w := s.rd Reg.ICU_CORE_STATUS k
  let top := match s.icuStackOf k with | (_, src) :: _ => src | [] => 0
  fieldAt (bits w 63 63) 63 ||| fieldAt (b2n (s.coreAwake k)) 62 ||| fieldAt (s.icuStackOf k).length 52 ||| fieldAt (s.icuRunning k) 40 |||
    fieldAt (bits w 26 16) 16 ||| fieldAt top 0

/-- What ICU_STACK shows: entry 0 is the bottom. -/
def State.stackView (s : State) (i : Nat) : Word :=
  match (s.icuStackOf (i / 16)).reverse[i % 16]? with
  | some (p, src) => fieldAt 1 31 ||| fieldAt p 24 ||| fieldAt src 0
  | none => 0

/-- The raw word of an element with a field replaced by what it shows now. -/
def State.shown (s : State) (f : Field) (i v : Nat) : Word := f.ins (s.rd f.reg i) v

/-- What CLU_CHAN_CFG shows: index 0x000 always EN = 1 and RD_SCOPE = 2, with its reader the supervisor (R74). -/
def State.chanCfgView (s : State) (id : Nat) : Word :=
  if id % 2048 = 0 then
    let l := s.fget Fld.CLU_SUPV_SUPV_THREAD (id / 2048)
    fieldAt 1 31 ||| fieldAt 2 24 ||| fieldAt (l / 16) 8 ||| fieldAt (l % 16) 4
  else s.rd Reg.CLU_CHAN_CFG id

/-- The registers that show a state kept elsewhere, by array: what element `i` holds now. -/
def regViews : List (RegDesc × (State → Nat → Nat → Word)) := [
  (Reg.CLU_THR_STATUS, fun s _ i => s.thrView i),
  (Reg.CLU_CHAN_CFG, fun s _ i => s.chanCfgView i),
  (Reg.CLU_CHAN_STATUS, fun s _ i => s.chanView i),
  (Reg.CLU_SHARE_POOL, fun s _ i => s.shareView i),
  (Reg.CLU_IMAGE_STATUS, fun s _ i => s.shown Fld.CLU_IMAGE_STATUS_OLD_COUNT i (s.oldCount i)),
  (Reg.CLU_PEG_STATE, fun s _ i => s.pegView (0x10000 + i)),
  (Reg.PEG_STATE, fun s _ i => s.pegView i),
  (Reg.CLU_SUPV_STATUS, fun s _ i => s.shown Fld.CLU_SUPV_STATUS_RECORDS_PENDING i (min 255 (s.recordsPending i))),
  (Reg.PAR_KEY_PROFILE, fun s _ i => s.shown Fld.PAR_KEY_PROFILE_KEY_LEN i (min 63 (2 + ((s.keySegs i).map fun g => g.2).sum))),
  (Reg.PAR_FC_QUOTA, fun s _ i => s.shown Fld.PAR_FC_QUOTA_USED i (s.fcUsed i)),
  (Reg.TBL_LOCK, fun s _ i =>
    s.shown Fld.TBL_LOCK_PENDING i ((mget [] s.overlay i).length + (s.draining.filter fun e => e.slot == i).length)),
  (Reg.TM_BUF_POOL, fun s _ _ => fieldAt (s.fget Fld.TM_BUF_POOL_RESV_REFUSED 0) 63 ||| fieldAt s.resvTotal 40 |||
    fieldAt s.sharedFree 20 ||| fieldAt s.ingFree 0),
  (Reg.TM_INST_USE, fun s _ i => fieldAt (s.resvUsed i) 44 ||| fieldAt (s.sharedUsed i) 24 ||| fieldAt (s.ovfUsed i) 0),
  (Reg.TM_NODE_W3, fun s _ i => (s.tmRefill i).shown Fld.TM_NODE_W3_BACKLOG i (b2n (s.tmBacklog i))),
  (Reg.TM_POL_W2, fun s _ i => (s.polRefill i).rd Reg.TM_POL_W2 i),
  (Reg.TM_NODE_W5, fun s _ i => if tmLevel i = 4 then
      fieldAt (s.qlen i) 44 ||| fieldAt (s.qlenOvf i) 20 ||| fieldAt (b2n (s.tmXoff i)) 0 else 0),
  (Reg.PCI_TAG_QUOTA, fun s _ i => Fld.PCI_TAG_QUOTA_QUARANTINED.ins (s.shown Fld.PCI_TAG_QUOTA_USED i (s.tagUsed i)) (s.tagQuar i)),
  (Reg.PCI_TAG_POOL, fun s _ i => fieldAt (s.fget Fld.PCI_TAG_POOL_QUOTA_REFUSED i) 63 ||| fieldAt (s.tagResv i) 32 |||
    fieldAt (8192 - s.poolUsed i) 16 ||| fieldAt (s.poolQuar i) 0),
  (Reg.PCI_SEG_STATUS, fun s _ i => s.shown Fld.PCI_SEG_STATUS_LEAD i (b2n (s.leadSeg i == i))),
  (Reg.HQE_SQ_W2, fun s _ i => s.shown Fld.HQE_SQ_W2_ONCHIP i (s.onChip 0 i)),
  (Reg.HQE_RQ_W2, fun s _ i => s.shown Fld.HQE_RQ_W2_ONCHIP i (s.onChip 1 i)),
  (Reg.STO_CONN_W13, fun s _ i => s.shown Fld.STO_CONN_W13_CMDS i (s.slotCmds i).length),
  (Reg.STO_CONN_W14, fun s _ i => s.shown Fld.STO_CONN_W14_STAGED i (s.staged i)),
  (Reg.ICU_SRC_STATE, fun s _ i => s.srcView i),
  (Reg.ICU_CORE_STATUS, fun s _ i => s.coreView i),
  (Reg.ICU_STACK, fun s _ i => s.stackView i),
  (Reg.PWR_DOM_STATUS, fun s _ i => s.domStatus i),
  (Reg.PWR_RESIDENCY, fun s _ i => BitVec.ofNat 64 (s.residency (i / 5) (i % 5))),
  (Reg.CIP_KLW_LOCK, fun s _ _ => s.klwRegRead 0x100),
  (Reg.CIP_KLW_CMD, fun s _ _ => s.klwRegRead 0x108),
  (Reg.CIP_KLW_STATUS, fun s _ _ => s.klwRegRead 0x110),
  (Reg.SP_APPROVED, fun s _ _ => s.approvedStatus),
  (Reg.SP_WDOG_STATUS, fun s _ _ => s.wdogStatus),
  (Reg.SP_DICE_WIN, fun s req i => s.diceRead req i)]

/-- What an element of a register array shows to a requester, before its write-only fields are hidden. -/
def State.regView (s : State) (r : RegDesc) (req i : Nat) : Word :=
  match regViews.find? fun e => e.1.rid == r.rid with
  | some e => e.2 s req i
  | none => s.rd r i

/-- What a read leaves of the RC fields it reaches. -/
def clearRcIn (r : RegDesc) (m v : Word) : Word :=
  r.fields.foldl (fun a f => match f.acc with | .rc => if f.mask &&& m != 0 then a &&& ~~~f.mask else a | _ => a) v

/-- A read of `size` bytes at byte `off` of element `i` of a register array: the value, and the state it leaves (RC fields, an interrupt
accepted, a DRBG output used). -/
def State.regGet (s : State) (r : RegDesc) (a : RegAcc) : Word × State :=
  if r.rid = Reg.ICU_CLAIM.rid then let (t, w) := s.icuClaimOp a.req a.i; (readPart w a.off a.size, t)
  else if r.rid = Reg.SP_RNG.rid then let (w, t) := s.rng; (readPart w a.off a.size, t)
  else (readPart (readFields r (s.regView r a.req a.i)) a.off a.size,
    s.wr r a.i (clearRcIn r (byteMask a.off a.size) (s.rd r a.i)))

/-! ### By DPA -/

/-- Register access by any requester wakes the domain that holds the register, whatever its WAKE_EN (R368, Table 16-3). -/
def State.regWake (s : State) (r : RegDesc) (i : Nat) : State :=
  match regDomain r i with
  | some d => if s.depth d = 0 ∧ s.phase d = 0 then s else s.wakeStart d
  | none => s

/-- A write to a device region other than the aliases: a register, or a reserved offset, which drops it (R394); the table windows take whole
elements (R117). -/
def State.devStore (s : State) (req a size : Nat) (v : Word) : State :=
  match s.region a with
  | .table | .ext _ => s.tblWrite (size + 1) a ((wordBytesLE v).take size)
  | .regs | .tm => match regAt a with
    | some (r, i, b) => (s.regWake r i).regPut r { req := req, i := i, off := b, size := size } v
    | none => s
  | _ => s

/-- The element arrays of Table 18-7: base, stride and count. -/
def aliasArray (A : Nat) : Option (Nat × Nat × Nat) :=
  let at_ (r : RegDesc) (stride n : Nat) : Option (Nat × Nat × Nat) := some (r.base, stride, n)
  if 0x40 ≤ A ∧ A < 0x60 then
    let c := A % 8 * 0x1000000
    match (A - 0x40) / 8 with
    | 0 => some (Reg.CLU_THR_CTL.base + c, 8, 192)
    | 1 => some (Reg.CLU_THR_SHARE.base + c, 8, 192)
    | 2 => some (Reg.CLU_CHAN_CFG.base + c, 8, 2048)
    | _ => some (Reg.CLU_SYS_RD.base + c, 8, 32)
  else match A with
    | 0x00 => at_ Reg.HQE_SQ_W0 32 65536
    | 0x01 => at_ Reg.HQE_RQ_W0 32 65536
    | 0x02 => at_ Reg.HQE_CQ_W0 32 65536
    | 0x03 => at_ Reg.BOW_CH_CFG 256 512
    | 0x04 => at_ Reg.BOW_TIMER 8 64
    | 0x05 => at_ Reg.CIP_CTX_W0 64 65536
    | 0x06 | 0x07 | 0x08 | 0x09 | 0x0A =>
      let l := 10 - A
      some (Reg.TM_NODE_W0.base + 64 * tmFirst l, 64, tmCount l)
    | 0x0B => at_ Reg.TM_POL_W0 32 1048576
    | 0x0C => at_ Reg.ICU_SRC_CFG 8 2048
    | 0x0D => at_ Reg.ICU_SRC_STATE 8 2048
    | 0x0E => at_ Reg.PRT_PORT_CFG 0x1000 4
    | 0x0F => at_ Reg.PRT_MAC_CFG 0x400 32
    | 0x10 => at_ Reg.PWR_DOM_CFG 8 34
    | 0x11 => at_ Reg.PWR_INST_BUD 8 4096
    | 0x12 => at_ Reg.STO_NS_W0 32 65536
    | 0x13 => at_ Reg.STO_CONN_W0 128 16384
    | 0x14 => some (0x020011000000, 0x1000000, 8)
    | _ => none

/-- Bit `k` of the membership bitmap of a group (R406, R408), as the walk reaches it. A bitmap outside DDR5 names no member. -/
def State.aliasMember (s : State) (A S k : Nat) : Bool :=
  let a := s.fget Fld.MEM_ALIAS_CFG_BITMAP_BASE 0 * 2 ^ 29 + A * 0x200000 + S * 0x20000 + k / 8
  decide (a < s.ddrCapacity) && (s.memByte a).getLsbD (k % 8)

/-- A write to the alias space (R406, R407): dropped and recorded, or one write of each member, in ascending order. -/
def State.aliasPut (s : State) (req addr size : Nat) (v : Word) : State :=
  let o := addr - 0x030000000000
  let A := o / 2 ^ 32
  let S := o / 2 ^ 27 % 32
  let x := o % 2 ^ 27
  let bad := ((s.bump Fld.MEMC_ALIAS_BAD_COUNT).fset Fld.MEM_STATUS_ALIAS_BAD 0 1).fset Fld.MEM_STATUS_ALIAS_LAST 0 addr
  match aliasArray A with
  | none => bad
  | some (base, stride, n) =>
    if !((size == 4 || size == 8) && addr % size == 0) || decide (16 < S) || decide (stride ≤ x) ||
        (decide (S < 16) && !s.fbit Fld.MEM_ALIAS_CFG_BITMAP_EN 0) then bad
    else (List.range n).foldl (fun s k =>
      if S = 16 || s.aliasMember A S k then s.devStore req (base + k * stride + x) size v else s) (s.bump Fld.MEMC_ALIAS_WRITES_COUNT)

/-- A read of the alias space returns zero and is recorded (R409). -/
def State.aliasGet (s : State) (addr : Nat) : State :=
  ((s.bump Fld.MEMC_ALIAS_READS_COUNT).fset Fld.MEM_STATUS_ALIAS_READ 0 1).fset Fld.MEM_STATUS_ALIAS_LAST 0 addr

/-- A write of 1, 2, 4 or 8 bytes to a device region inside the adapter. -/
def State.devWrite (s : State) (req a size : Nat) (v : Word) : State :=
  match s.region a with
  | .aliases => s.aliasPut req a size v
  | _ => s.devStore req a size v

/-- A read of 1, 2, 4 or 8 bytes of a device region inside the adapter. -/
def State.devRead (s : State) (req a size : Nat) : Word × State :=
  match s.region a with
  | .aliases => (0, s.aliasGet a)
  | .table | .ext _ => (BitVec.ofNat 64 (leNat ((List.range size).map fun k => s.tblByte (a + k))), s)
  | .regs | .tm => match regAt a with
    | some (r, i, b) => (s.regWake r i).regGet r { req := req, i := i, off := b, size := size }
    | none => (0, s)
  | _ => (0, s)

/-- REGISTER_WRITE (R8): a write of 4 or 8 bytes, naturally aligned, to a register of a block. -/
def execRegisterWrite (req addr size : Nat) (value : Word) (s : State) : Out :=
  .next (if (size = 4 ∨ size = 8) ∧ addr % size = 0 then s.devStore req addr size value else s)
/-- ALIAS_WRITE (R406 to R408). -/
def execAliasWrite (req addr size : Nat) (value : Word) (s : State) : Out :=
  .next (match s.region addr with | .aliases => s.aliasPut req addr size value | _ => s)
/-- ALIAS_READ (R409). -/
def execAliasRead (req addr size : Nat) (s : State) : Out :=
  .next (match s.region addr with | .aliases => (s.aliasGet addr).emit (.readAnswer req (readPart 0 0 size)) | _ => s)

end Sys2Proof.Machine
end

