-- ==== Sys2Proof/Machine/Bow.lean ====
section
/-! DEFINITION. The Bow engine: blocks, bursts, chains, failures, orphaning and completion (R324 to R328, R332 to R345). -/

namespace Sys2Proof.Machine

/-! ### The fields of a block (Table 14-1) -/

def blkW (ws : List Word) (k : Nat) : Word := ws.getD k 0
def blkEnd (ws : List Word) : Bool := bit (blkW ws 0) 63
def blkFence (ws : List Word) : Bool := bit (blkW ws 0) 59
def blkKind (ws : List Word) : Nat := bits (blkW ws 0) 58 56
def blkNext (ws : List Word) : Nat := bits (blkW ws 0) 47 0
def blkSrc (ws : List Word) : Nat := (blkW ws 1).toNat
def blkDst (ws : List Word) : Nat := (blkW ws 2).toNat
def blkLen (ws : List Word) : Nat := bits (blkW ws 3) 63 32
def blkSrcHost (ws : List Word) : Bool := bit (blkW ws 3) 31
def blkDstHost (ws : List Word) : Bool := bit (blkW ws 3) 30
def blkInst (ws : List Word) : Nat := bits (blkW ws 3) 27 16

/-- BAD_DESC (R327). -/
def blkBad (ws : List Word) (chain : Bool) : Bool :=
  let kind := blkKind ws
  decide (2 < kind) || (blkLen ws == 0) != (kind == 2) || bits (blkW ws 0) 55 48 != 0 || bits (blkW ws 3) 29 28 != 0 ||
    (kind == 2 && (blkW ws 1 != 0 || blkW ws 2 != 0)) || (kind == 0 && !blkSrcHost ws && bits (blkW ws 1) 63 48 != 0) ||
    (decide (kind < 2) && !blkDstHost ws && bits (blkW ws 2) 63 48 != 0) || (chain && !blkEnd ws && bits (blkW ws 0) 4 0 != 0)

/-- Whether a block addresses its INSTANCE's host memory (R328). -/
def blkUsesHost (ws : List Word) : Bool := (blkKind ws == 0 && blkSrcHost ws) || (decide (blkKind ws < 2) && blkDstHost ws)

/-- A block of a generation that is no longer its instance's is orphaned (R343). -/
def State.blkOrphan (s : State) (ws : List Word) (gen : Nat) : Bool := blkUsesHost ws && gen != s.gen (blkInst ws)

/-! ### Accesses -/

/-- The identity under which Bow reaches registers: no control core's and no PF's. -/
def bowReq : Nat := 0x10000

/-- The instance, generation and host address that an address names, if it names host memory: by its HOST bit, or through a host window
(R328, R397). -/
def State.bowHost (s : State) (ws : List Word) (gen : Nat) (host : Bool) (a : Nat) : Option (Nat × Nat × Nat) :=
  if host then some (blkInst ws, gen, a)
  else match s.region a with
    | .host i => some (i, s.gen i, s.fget Fld.MEM_HOST_WIN_BASE i * 2 ^ 32 + a % 2 ^ 32)
    | _ => none

/-- The largest naturally aligned access of a register burst. -/
def accSize (a n : Nat) : Nat :=
  if a % 8 = 0 ∧ 8 ≤ n then 8 else if a % 4 = 0 ∧ 4 ≤ n then 4 else if a % 2 = 0 ∧ 2 ≤ n then 2 else 1

/-- Bytes written to device registers. -/
def State.bowPut : Nat → State → Nat → List Byte → State
  | 0, s, _, _ => s
  | fuel + 1, s, a, bs =>
    if bs.isEmpty then s
    else
      let n := accSize a bs.length
      State.bowPut fuel (s.devWrite bowReq a n (BitVec.ofNat 64 (leNat (bs.take n)))) (a + n) (bs.drop n)

/-- Bytes read from a device region. -/
def State.bowGet : Nat → State → Nat → Nat → List Byte × State
  | 0, s, _, _ => ([], s)
  | fuel + 1, s, a, n =>
    if n = 0 then ([], s)
    else
      let k := accSize a n
      let (w, s) := s.devRead bowReq a k
      let (rest, s) := State.bowGet fuel s (a + k) (n - k)
      ((wordBytesLE w).take k ++ rest, s)

/-- A host write that the Hatband refuses, or that the function may not send (R230, R274, R342). -/
def State.bowBarred (s : State) (i g a n : Nat) : Bool := !s.usable i || s.hatband i a n true (some g) == .refused

/-- One write burst of a block; none where it fails (R342). -/
def State.bowWrite (s : State) (c : Nat) (b : BowBlk) (a : Nat) (bs : List Byte) : Option State :=
  match s.bowHost b.words b.gen (blkDstHost b.words) a with
  | some (i, g, h) =>
    if s.bowBarred i g h bs.length then none
    else some ((pieces (min (s.maxPayload i) 4096) (bs.length + 1) h bs.length).foldl (fun s p =>
      let d := (bs.drop (p.1 - h)).take p.2
      (s.hostWrite i g p.1 d false false false (.bow c b.id (b.done + (p.1 - h)) i g p.1 d)).1) s)
  | none =>
    match s.region a with
    | .peer w => s.cueRequest w 1 (a % 2 ^ 38) bs.length 0 bs
    | .table | .ext _ => some (s.tblWrite (bs.length + 1) a bs)
    | .regs | .tm | .aliases => some (State.bowPut bs.length s a bs)
    | .unmapped | .host _ => none
    | _ => some (s.memStore a bs)

/-! ### Reads of host memory and of peers -/

/-- A read that is out. -/
def HostRead.isOut (r : HostRead) : Bool := r.res.isNone && r.parts.any fun p => p.sent && p.got.isNone

/-- The reads of a channel that are out, those of abandoned blocks included. -/
def State.bowReadsOut (s : State) (c : Nat) : Bool :=
  (s.hreads.any fun r => (match r.who with | .bow k _ => k == c || k == c + 512 | _ => false) && r.isOut) ||
    s.cueReads.any fun r => (r.ch == c || r.ch == c + 512) && r.st == .waiting

/-- Reads of abandoned blocks that have returned are forgotten. -/
def State.bowSweep (s : State) (c : Nat) : State :=
  { s.dropReads (fun r => (match r.who with | .bow k _ => k == c + 512 | _ => false) && !r.isOut) with
    cueReads := s.cueReads.filter fun r => !(r.ch == c + 512 && r.st != .waiting && r.st != .dead) }

/-- The chunks of data that have been read and not all written: one for each 4 KiB of the source they come from. Less than the 64 bytes that a
write burst needs hold none, or BUF_CAP = 1 could stop a block for good (R324, R325; DEDUCED, log entry 54). -/
def BowBlk.held (b : BowBlk) : Nat :=
  if b.buf.length < 64 then 0
  else
    let a := blkSrc b.words + b.done
    (a + b.buf.length - 1) / 4096 - a / 4096 + 1

/-- The chunks that a channel holds: those of reads that are out or have come back, and of data whose writes are not accepted yet (R324). -/
def State.bowChunks (s : State) (c : Nat) : Nat :=
  (match (s.bowX c).blk with | some b => b.held | none => 0) +
  (s.hreads.filter fun r => (match r.who with | .bow k _ => k == c || k == c + 512 | _ => false)).length +
    (s.cueReads.filter fun r => (r.ch == c || r.ch == c + 512) && r.st != .dead).length

/-- The channels that are not DISABLED. -/
def State.bowEnabled (s : State) : List Nat := (s.listed Reg.BOW_CH_STATUS).filter fun c => s.bowSt c != 0

/-- Whether a channel may take another chunk: its own reserved one, or one of the pool, up to BUF_CAP (R324). -/
def State.bowMayTake (s : State) (c : Nat) : Bool :=
  let n := s.bowChunks c
  let on := s.bowEnabled
  n == 0 || (decide (n < s.fget Fld.BOW_CH_CFG_BUF_CAP c) &&
    decide ((on.map fun k => s.bowChunks k - 1).sum < 2048 - on.length))

/-- The length of the read burst at an address: to the next 4 KiB boundary (R325). -/
def burst (a n : Nat) : Nat := min n (4096 - a % 4096)

/-- The read burst at offset `off` is issued, if it goes to the host or to a peer. A disabled slot fails it at once (R205). -/
def State.bowAsk (s : State) (c : Nat) (b : BowBlk) (off : Nat) : Option State :=
  let a := blkSrc b.words + off
  let n := burst a (blkLen b.words - off)
  match s.bowHost b.words b.gen (blkSrcHost b.words) a with
  | some (i, _, h) => some (s.hostRead (.bow c off) i h n false)
  | none =>
    match s.region a with
    | .peer w =>
      if s.slotOff w then some { s with cueReads := s.cueReads ++ [(⟨0, c, off, .failed⟩ : CueRead)] }
      else if 4096 ≤ s.readsOut then none
      else
        let (t, u) := s.cueTag
        { u with cueReads := u.cueReads ++ [(⟨t, c, off, .waiting⟩ : CueRead)] }.cueRequest w 2 (a % 2 ^ 38) n t []
    | _ => none

/-- The running block takes its progress. -/
def State.bowKeep (s : State) (c : Nat) (b : BowBlk) : State := s.setBowX c { s.bowX c with blk := some b }

/-- Whether the reads of a block must wait: for an earlier block where FENCE = 1, or for writes that have failed (R325, R342). -/
def State.bowHeldUp (s : State) (c : Nat) (b : BowBlk) : Bool :=
  (blkFence b.words && blkKind b.words != 1 && !(s.bowX c).ended.isEmpty) || !(s.bowX c).late.isEmpty

/-- The next read burst of a channel is issued, where its block has one to the host or a peer and a chunk for it (R324, R325). A read that
must be issued again has its chunk. -/
def State.bowServeOne (s : State) (c : Nat) : Option State :=
  if s.bowSt c ≠ 2 then none
  else (s.bowX c).blk.bind fun b =>
    if blkKind b.words ≠ 0 ∨ b.dead.isSome ∨ s.blkOrphan b.words b.gen ∨ s.bowHeldUp c b then none
    else match b.reask with
      | some off => (s.bowAsk c b off).map fun t => t.bowKeep c { b with reask := none }
      | none =>
        if b.asked < blkLen b.words ∧ s.bowMayTake c then
          (s.bowAsk c b b.asked).map fun t =>
            t.bowKeep c { b with asked := b.asked + burst (blkSrc b.words + b.asked) (blkLen b.words - b.asked) }
        else none

/-- The channels of a PRIO that are not DISABLED, from the one whose turn it is. -/
def State.bowTurn (s : State) (p : Nat) : List Nat :=
  let on := s.bowEnabled.filter fun c => s.fget Fld.BOW_CH_CFG_PRIO c == p
  let k := mget 0 s.bowPtr p
  on.filter (fun c => k ≤ c) ++ on.filter fun c => c < k

/-- The read engine serves the channels that have data to fetch and a chunk: the highest PRIO first, those of one PRIO in turn (R324). -/
def State.bowServe (s : State) : Nat → State
  | 0 => s
  | fuel + 1 =>
    match ([3, 2, 1, 0].flatMap s.bowTurn).findSome? fun c => (s.bowServeOne c).map fun t => (c, t) with
    | none => s
    | some (c, t) => { t with bowPtr := mset 0 t.bowPtr (t.fget Fld.BOW_CH_CFG_PRIO c) (c + 1) }.bowServe fuel

/-- A block's reads are issued ahead of its writes, with those of every other channel. -/
def State.bowAhead (s : State) (c : Nat) (b : BowBlk) : State × BowBlk :=
  let t := (s.bowKeep c b).bowServe 4096
  (t, (t.bowX c).blk.getD b)

/-- What a read burst comes to. -/
inductive BowRead where
  | data (bs : List Byte) (s : State) | wait | fail

/-- The read burst at offset `off`: data, not there yet, or failed. A failed result stays where it is. -/
def State.bowRead (s : State) (c : Nat) (b : BowBlk) (off : Nat) : BowRead :=
  if off < b.asked then
    match s.takeRead (.bow c off) with
    | some (.ok bs, t) => .data bs t
    | some _ => .fail
    | none =>
      match s.cueReads.find? fun r => r.ch == c && r.off == off && r.st != .dead with
      | some r => match r.st with
        | .data bs => .data bs { s with cueReads := s.cueReads.erase r }
        | .failed => .fail
        | _ => .wait
      | none => .wait
  else
    let a := blkSrc b.words + off
    let n := burst a (blkLen b.words - off)
    if blkSrcHost b.words then .wait
    else match s.region a with
      | .host _ | .peer _ => .wait
      | .unmapped => .fail
      | .table | .ext _ | .regs | .tm | .aliases =>
        if (s.extPoison a n).isSome then .fail else let (bs, t) := State.bowGet n s a n; .data bs t
      | _ => match s.memLoad a n with
        | some bs => .data bs s
        | none => .fail

/-! ### A block runs -/

/-- How far a block has come: all written, waiting for data, stopped by a failing read or write burst, or orphaned. -/
inductive BowGo where
  | fin | wait | failRead | failWrite | orphan
  deriving DecidableEq, Repr

/-- The bytes of a fill from offset `off` on (R326). -/
def fillBytes (ws : List Word) (off n : Nat) : List Byte :=
  (List.range n).map fun k => (blkW ws 1).extractLsb' (8 * ((off + k) % 8)) 8

/-- The length of the next write burst: within a 4 KiB page of the destination and, unless it reaches `stop`, to a 64-byte boundary. -/
def BowBlk.writeLen (b : BowBlk) (stop : Nat) : Nat :=
  let have_ := if blkKind b.words = 1 then stop - b.done else b.buf.length
  let e := b.done + burst (blkDst b.words + b.done) have_
  (if e < stop then e - (blkDst b.words + e) % 64 else e) - b.done

/-- The next write burst is made: none where it fails. -/
def State.bowStep (s : State) (c : Nat) (b : BowBlk) (n : Nat) : Option (State × BowBlk) :=
  let bs := if blkKind b.words = 1 then fillBytes b.words b.done n else b.buf.take n
  (s.bowWrite c b (blkDst b.words + b.done) bs).map fun t =>
    ((t.fadd Fld.BOWC_BYTES_WRITTEN_COUNT 0 n).fset Fld.BOW_CH_REMAIN_REMAIN c (blkLen b.words - b.done - n),
      { b with done := b.done + n, buf := b.buf.drop n, tries := 0 })

/-- A block's bursts run as far as they can. -/
def State.bowLoop (c : Nat) : Nat → State → BowBlk → State × BowBlk × BowGo
  | 0, s, b => (s, b, .wait)
  | fuel + 1, s, b =>
    let len := blkLen b.words
    if s.blkOrphan b.words b.gen then (s, b, .orphan)
    else if len ≤ b.done then (s, b, .fin)
    else
      let n := b.writeLen len
      if n ≠ 0 then
        match s.bowStep c b n with
        | some (t, u) => State.bowLoop c fuel t u
        | none => (s, b, .failWrite)
      else
        let off := b.done + b.buf.length
        match s.bowRead c b off with
        | .data bs t =>
          State.bowLoop c fuel (t.fadd Fld.BOWC_BYTES_READ_COUNT 0 bs.length)
            { b with buf := b.buf ++ bs, asked := max b.asked (off + bs.length), tries := 0 }
        | .wait => (s, b, .wait)
        | .fail => (s, b, .failRead)

/-- The bursts of a block are issued and run; it waits while FENCE = 1 and an earlier block has not completed (R325), and while a write or a
read has failed for good or waits to be issued again (R342). -/
def State.bowRun (s : State) (c : Nat) (b : BowBlk) : State × BowBlk × BowGo :=
  if s.blkOrphan b.words b.gen then (s, b, .orphan)
  else if s.bowHeldUp c b || b.dead.isSome then (s, b, .wait)
  else
    let (s, b) := (s.bowSweep c).bowAhead c b
    let (s, b, go) := State.bowLoop c (blkLen b.words / 16 + 64) s b
    match go with
    | .wait => let (s, b) := s.bowAhead c b; (s, b, .wait)
    | _ => (s, b, go)

/-- What has been read before a failing burst is written (R342). -/
def State.bowFlush (c : Nat) : Nat → State → BowBlk → State × BowBlk
  | 0, s, b => (s, b)
  | fuel + 1, s, b =>
    let n := b.writeLen (b.done + b.buf.length)
    if n = 0 then (s, b)
    else match s.bowStep c b n with
      | some (t, u) => State.bowFlush c fuel t u
      | none => (s, b)

/-! ### Starts, fetches and halts -/

/-- A hand-over sample (R333). -/
def State.bowSample (s : State) (c : Nat) : State :=
  if s.bowArmed c then
    let s := s.setBowActive c ((List.range 4).map fun k => s.rd (bowShadow k) c)
    ((s.fset Fld.BOW_CH_STATUS_ACTIVE_VALID c 1).fset Fld.BOW_CH_STATUS_ARM c 0).finc Fld.BOW_CH_STATUS_HSEQ c
  else s

/-- A fetch is issued, with the value of CHAIN_TAP as its snapshot (R336). -/
def State.bowFetch (s : State) (c addr : Nat) (word0 : Bool) : State :=
  s.setBowX c { s.bowX c with fetch := some ⟨addr, s.fget Fld.BOW_CH_CHAIN_TAP_TAP c, word0, 0⟩ }

/-- The channel halts (R342, R348). Reads that are out are discarded when they return. -/
def State.bowHalt (s : State) (c status addr remain : Nat) : State :=
  let x := s.bowX c
  let s := s.setBowX c { x with
    blk := none, next := none, fetch := none, late := x.late.filter fun w => x.ended.any fun e => e.id == w.id && e.status == 0,
    lateTries := 0 }
  let s := ((s.setBowSt c 5).fset Fld.BOW_CH_STATUS_ERR c status).fset Fld.BOW_CH_REMAIN_REMAIN c remain
  let s := s.fset Fld.BOW_CH_ERRADDR_ADDR c addr
  let s := if status = 3 then s else s.bump Fld.BOWC_BUS_ERR_COUNT
  ((s.bowStale c).irq 535).errReport 2 6 status (BitVec.ofNat 64 addr)

/-- A block joins those that have ended (R339). -/
def State.bowEnds (s : State) (c : Nat) (b : BowBlk) (status err : Nat) : State :=
  let x := s.bowX c
  s.setBowX c { x with
    blk := none,
    ended := x.ended ++ [(⟨b.id, b.words, b.desc, b.hseq, b.gen, status, b.done, err, false, false⟩ : BowEnd)] }

/-- A block starts (R327, R333, R335, R336): a chain increments HSEQ and fetches what follows. -/
def State.bowBegin (s : State) (c : Nat) (b : BowBlk) : State :=
  let chain := s.bowChain c
  let s := if chain then
      ((s.finc Fld.BOW_CH_STATUS_HSEQ c).setBowActive c b.words).fset Fld.BOW_CH_CUR_CUR c b.desc
    else s
  let b := { b with hseq := s.fget Fld.BOW_CH_STATUS_HSEQ c, id := (s.bowX c).serial }
  let s := (s.setBowX c { s.bowX c with serial := b.id + 1 }).setBowSt c 2
  if blkBad b.words chain then (s.bowEnds c b 3 0).bowHalt c 3 0 (blkLen b.words)
  else
    let s := s.fset Fld.BOW_CH_REMAIN_REMAIN c (blkLen b.words)
    let s := if chain && !blkEnd b.words then s.bowFetch c (blkNext b.words) false else s
    let s := if !chain && blkKind b.words == 2 then s.bowSample c else s
    (s.bowKeep c b).bowServe 4096

/-- A block read from the registers or from a descriptor. -/
def State.newBlk (s : State) (ws : List Word) (desc snap : Nat) : BowBlk :=
  ⟨0, ws, desc, 0, s.gen (blkInst ws), snap, 0, [], 0, 0, none, none⟩

/-- BOW_TRIGGER_CONSUME (R332, R333, R336, R337, R345). No block starts in the dark period of a warm restart (R386). -/
def execBowTriggerConsume (c : Fin 512) (s : State) : Out :=
  let st := s.bowSt c
  if (st ≠ 1 ∧ st ≠ 4) ∨ s.fget Fld.BOW_CH_STATUS_PENDING c = 0 ∨ s.dark then .next s
  else
    let s := s.fsub Fld.BOW_CH_STATUS_PENDING c 1
    if s.bowChain c then
      if st = 1 then .next ((s.setBowSt c 2).bowFetch c (s.rd Reg.BOW_CH_HEAD c).toNat false)
      else .next ((s.setBowSt c 2).bowFetch c (s.fget Fld.BOW_CH_CUR_CUR c) true)
    else if !s.fbit Fld.BOW_CH_STATUS_ACTIVE_VALID c && !s.bowArmed c then .next (s.bump Fld.BOWC_TRIG_DROPPED_COUNT)
    else
      let s := if s.fbit Fld.BOW_CH_STATUS_ACTIVE_VALID c then s else s.bowSample c
      .next (s.bowBegin c (s.newBlk (s.bowActiveWords c) 0 0))

/-- A fetch that can succeed: its address lies in normal memory, and no line of it is poisoned (R336, R342). -/
def State.bowFetched (s : State) (f : BowFetch) : Option (List Word) :=
  let n := if f.word0 then 8 else 32
  if s.normalAt f.addr n then (s.memLoad f.addr n).map fun bs =>
    (List.range (n / 8)).map fun k => BitVec.ofNat 64 (leNat ((bs.drop (8 * k)).take 8))
  else none

/-- The channel stops at the end of its chain. -/
def State.bowAtEnd (s : State) (c desc : Nat) : State := (s.setBowSt c 4).fset Fld.BOW_CH_CUR_CUR c desc

/-- BOW_DESC_ARRIVE (R336, R337): a fetch that fails waits for BOW_ACCESS_FAIL. -/
def execBowDescArrive (c : Fin 512) (s : State) : Out :=
  if s.bowSt c ≠ 2 then .next s
  else match (s.bowX c).fetch with
    | none => .next s
    | some f =>
      match s.bowFetched f with
      | none => .next s
      | some ws =>
        let t := s.setBowX c { s.bowX c with fetch := none }
        if f.word0 then
          if blkEnd ws then .next (t.bowAtEnd c f.addr) else .next (t.bowFetch c (blkNext ws / 32 * 32) false)
        else if blkEnd ws && s.fget Fld.BOW_CH_CHAIN_TAP_TAP c != f.snap then .next (t.bowFetch c f.addr false)
        else
          let b := s.newBlk ws f.addr f.snap
          if (s.bowX c).blk.isNone && !s.dark then .next (t.bowBegin c b)
          else .next (t.setBowX c { t.bowX c with next := some b })

/-! ### Ends -/

/-- What follows the end of a block (R333, R336, Table 14-5). -/
def State.bowAfter (s : State) (c : Nat) (b : BowBlk) : State :=
  if s.bowChain c then
    if blkEnd b.words then
      if s.fget Fld.BOW_CH_CHAIN_TAP_TAP c = b.snap then s.bowAtEnd c b.desc else s.bowFetch c b.desc true
    else match (s.bowX c).next with
      | some n => if s.dark then s else (s.setBowX c { s.bowX c with next := none }).bowBegin c n
      | none => s
  else (if blkKind b.words = 2 then s else s.bowSample c).setBowSt c 1

/-- BOW_BLOCK_END (R325, R326, R333, R336, R343): the block's bursts run; when its last write has been accepted it ends, and one whose
instance has a new generation ends ORPHANED. Until then the command stands for the progress it makes. -/
def execBowBlockEnd (c : Fin 512) (s : State) : Out :=
  if s.bowSt c ≠ 2 then .next s
  else match (s.bowX c).blk with
    | none => .next s
    | some b =>
      let (t, b, go) := s.bowRun c b
      match go with
      | .fin => .next ((t.bowEnds c b 0 0).bowAfter c b)
      | .orphan => .next (((t.bowStale c).bowEnds c b 2 0).bowAfter c b)
      | _ => .next (t.bowKeep c b)

/-! ### Failures (R342) -/

/-- A failed read burst is noted, and its result taken. -/
def State.bowReadNote (s : State) (c : Nat) (b : BowBlk) (off : Nat) : State :=
  let a := blkSrc b.words + off
  if off < b.asked then
    match s.takeRead (.bow c off) with
    | some (_, t) => t
    | none => { s with cueReads := s.cueReads.filter fun r => !(r.ch == c && r.off == off && r.st == .failed) }
  else match s.region a with
    | .unmapped => s.bump Fld.MEMC_UNMAPPED_COUNT
    | _ =>
      let n := burst a (blkLen b.words - off)
      match s.extPoison a n with
      | some d => s.noteUncorr d
      | none => s.noteUncorrs a n

/-- A failed write burst is noted: a refusal at the Hatband, or an address in no region. -/
def State.bowWriteNote (s : State) (b : BowBlk) : State :=
  let a := blkDst b.words + b.done
  match s.bowHost b.words b.gen (blkDstHost b.words) a with
  | some (i, _, h) => s.hbRefuse i h
  | none => match s.region a with
    | .unmapped => s.bump Fld.MEMC_UNMAPPED_COUNT
    | _ => s

/-- RETRY of a channel. -/
def State.bowRetry (s : State) (c : Nat) : Nat := s.fget Fld.BOW_CH_CFG_RETRY c

/-- The running block fails at an address. -/
def State.bowBlockFail (s : State) (c : Nat) (b : BowBlk) (addr : Nat) : State :=
  (s.bowEnds c b 1 addr).bowHalt c 1 addr (blkLen b.words - b.done)

/-- A read burst has failed for good: what was read before it is written, each write under RETRY of its own, and the block fails. -/
def State.bowFlushFail (s : State) (c : Nat) (b : BowBlk) (off : Nat) : State :=
  let (s, d) := State.bowFlush c (b.buf.length + 1) s b
  if d.buf.isEmpty then s.bowBlockFail c d (blkSrc b.words + off)
  else
    let s := s.bowWriteNote d
    if d.tries < s.bowRetry c then (s.bump Fld.BOWC_RETRIES_COUNT).bowKeep c { d with tries := d.tries + 1 }
    else s.bowBlockFail c d (blkDst d.words + d.done)

/-- A failing burst of the running block. A read of a peer that finds no tag free waits to be issued again. -/
def State.bowBurstFail (s : State) (c : Nat) (b : BowBlk) : State :=
  match b.dead with
  | some off => if s.blkOrphan b.words b.gen then s else s.bowFlushFail c b off
  | none =>
    let (s, b, go) := s.bowRun c b
    let more := b.tries < s.bowRetry c
    match go with
    | .failRead =>
      let off := b.done + b.buf.length
      let s := s.bowReadNote c b off
      if more then
        let b := { b with tries := b.tries + 1, reask := if off < b.asked then some off else none }
        ((s.bump Fld.BOWC_RETRIES_COUNT).bowKeep c b).bowServe 4096
      else s.bowFlushFail c { b with dead := some off, tries := 0 } off
    | .failWrite =>
      let s := s.bowWriteNote b
      if more then (s.bump Fld.BOWC_RETRIES_COUNT).bowKeep c { b with tries := b.tries + 1 }
      else s.bowBlockFail c b (blkDst b.words + b.done)
    | _ => s.bowKeep c b

/-- A failing descriptor fetch: issued again, or the channel halts once the block before it has ended. -/
def State.bowFetchFail (s : State) (c : Nat) (f : BowFetch) : State :=
  let n := if f.word0 then 8 else 32
  let note := if s.region f.addr = .unmapped then s.bump Fld.MEMC_UNMAPPED_COUNT
    else if s.normalAt f.addr n then s.noteUncorrs f.addr n else s
  if f.tries < s.bowRetry c then
    (note.bump Fld.BOWC_RETRIES_COUNT).setBowX c { s.bowX c with fetch := some { f with tries := f.tries + 1 } }
  else if (s.bowX c).blk.isSome then s
  else (note.fset Fld.BOW_CH_CUR_CUR c f.addr).bowHalt c 4 f.addr 0

/-- An ended block fails at a byte: an accepted write of it that the Hatband has refused. -/
def BowEnd.failAt (e : BowEnd) (off : Nat) : BowEnd := { e with status := 1, err := blkDst e.words + off, bytes := off }

/-- Accepted writes are posted again in order, up to one that fails once more. -/
def State.bowRepost (c : Nat) : List BowLate → State → State
  | [], s => s
  | w :: ws, s =>
    if s.bowBarred w.inst w.gen w.addr w.data.length then
      (s.hbRefuse w.inst w.addr).setBowX c { s.bowX c with late := w :: ws, lateTries := 0 }
    else State.bowRepost c ws (s.hostWrite w.inst w.gen w.addr w.data false false false (.bow c w.id w.off w.inst w.gen w.addr w.data)).1

/-- An accepted host write that the Hatband has refused since is posted again, or its block fails there, running or ended, and the channel
halts; no later byte of the block is written (R342). A channel that has halted already keeps its ERR. -/
def State.bowLateFail (s : State) (c : Nat) (w : BowLate) (rest : List BowLate) : State :=
  let x := s.bowX c
  if x.lateTries < s.bowRetry c then
    let s := s.bump Fld.BOWC_RETRIES_COUNT
    if s.bowBarred w.inst w.gen w.addr w.data.length then (s.hbRefuse w.inst w.addr).setBowX c { x with lateTries := x.lateTries + 1 }
    else State.bowRepost c (w :: rest) (s.setBowX c { x with late := [], lateTries := 0 })
  else
    let s := s.setBowX c { x with
      late := rest.filter (fun v => v.id != w.id), lateTries := 0,
      ended := x.ended.map fun e => if e.id = w.id then e.failAt w.off else e }
    match x.blk.filter fun b => b.id == w.id with
    | some b => s.bowBlockFail c { b with done := w.off } (blkDst b.words + w.off)
    | none =>
      if s.bowSt c = 5 then s
      else s.bowHalt c 1 (((x.ended.find? fun e => e.id == w.id).map fun e => blkDst e.words + w.off).getD w.addr)
        ((x.blk.map fun b => blkLen b.words - b.done).getD 0)

/-- BOW_ACCESS_FAIL (R342): a burst, a fetch or an accepted write fails; it is issued again, or the channel halts. -/
def execBowAccessFail (c : Fin 512) (s : State) : Out :=
  let st := s.bowSt c
  let x := s.bowX c
  match x.late with
  | w :: rest => if 1 ≤ st ∧ st ≤ 5 then .next (s.bowLateFail c w rest) else .next s
  | [] =>
    if st ≠ 2 then .next s
    else match x.fetch with
      | some f =>
        if (s.bowFetched f).isNone && (decide (f.tries < s.bowRetry c) || x.blk.isNone) then .next (s.bowFetchFail c f)
        else match x.blk with
          | some b => .next (s.bowBurstFail c b)
          | none => .next s
      | none => match x.blk with
        | some b => .next (s.bowBurstFail c b)
        | none => .next s

/-! ### Completion (R339 to R341) -/

/-- The words of a completion record (Table 14-4). -/
def bowRecord (c : Nat) (e : BowEnd) (status : Nat) (phase : Bool) : List Word :=
  [ fieldAt (b2n phase) 63 ||| fieldAt status 56 ||| fieldAt e.hseq 32 ||| fieldAt (bits (blkW e.words 3) 15 0) 16 ||| fieldAt c 0,
    fieldAt (e.bytes % 2 ^ 32) 0, fieldAt (e.desc % 2 ^ 48) 0, BitVec.ofNat 64 e.err ]

/-- Room in completion queue `q` (R340). -/
def State.bowCqRoom (s : State) (q : Nat) : Bool :=
  decide ((s.fget Fld.BOW_CQ_IDX_TAIL q + 65536 - s.fget Fld.BOW_CQ_IDX_HEAD q) % 65536 < 2 ^ s.fget Fld.BOW_CQ_CFG_LOG2SIZE q)

/-- A record is appended to queue `q`. -/
def State.bowAppend (s : State) (c q : Nat) (e : BowEnd) (status : Nat) : State :=
  let tail := s.fget Fld.BOW_CQ_IDX_TAIL q
  let lg := s.fget Fld.BOW_CQ_CFG_LOG2SIZE q
  let a := s.fget Fld.BOW_CQ_CFG_BASE q * 4096 + 32 * (tail % 2 ^ lg)
  let bs := ((bowRecord c e status (!tail.testBit lg)).map wordBytesLE).flatten
  let s := if a + 32 ≤ s.ddrCapacity then s.memStore a bs else s
  s.finc Fld.BOW_CQ_IDX_TAIL q

/-- The channel waits for room. -/
def State.bowWait (s : State) (c : Nat) (e : BowEnd) : State :=
  let x := s.bowX c
  let st := s.bowSt c
  let s := s.setBowX c { x with
    ended := { e with stalled := true } :: x.ended.drop 1,
    back := if st = 5 then none else some st }
  if st = 5 then s else s.setBowSt c 3

/-- The channel leaves WAIT. -/
def State.bowResume (s : State) (c : Nat) : State :=
  match (s.bowX c).back with
  | some st => (s.setBowX c { s.bowX c with back := none }).setBowSt c st
  | none => s

/-- What is left of the completion of the oldest ended block (R339): the record, the message, the interrupt and the triggers, in this order.
A block that failed gives its record and message alone. -/
def State.bowFinish (s : State) (c : Nat) (e : BowEnd) : State :=
  let status := if e.status = 0 && s.blkOrphan e.words e.gen then 2 else e.status
  let w0 := blkW e.words 0
  let q := s.fget Fld.BOW_CH_CFG_CQ c
  let rec_ := bit w0 61 && !e.recorded
  if rec_ && s.fbit Fld.BOW_CQ_CFG_EN q && !s.bowCqRoom q then
    (if e.stalled then s else s.bump Fld.BOWC_CQ_STALL_COUNT).bowWait c e
  else
    let s := if rec_ then
        (if s.fbit Fld.BOW_CQ_CFG_EN q then s.bowAppend c q e status else s.bump Fld.BOWC_CQ_OFF_COUNT)
      else s
    let e := { e with recorded := true, status := status }
    let ch := s.fget Fld.BOW_CH_CFG_NOTIFY_CH c
    let msg := bit w0 60 && ch != 0
    if msg && decide (ch < 0x4000) && s.chanEn ch && (decide ((s.chan ch).room < 4) || !(s.chan ch).units.isEmpty) then s.bowWait c e
    else
      let s := if msg then s.unitReply ch { src := 0xF080, words := bowRecord c e status false } else s
      let s := (s.setBowX c { s.bowX c with ended := (s.bowX c).ended.drop 1 }).bowResume c
      if status = 0 ∨ status = 2 then
        let s := s.bump Fld.BOWC_BLOCKS_COUNT
        let s := if status = 2 then s.bump Fld.BOWC_ORPHANED_COUNT else s
        let s := if bit w0 62 then s.irq c else s
        (s.bowSelected 2 c).foldl (fun s k => s.bowStart k) s
      else s

/-- Whether posted writes of a block have not yet passed the Hatband. -/
def State.bowWritesOut (s : State) (c id : Nat) : Bool :=
  (s.hwq.any fun p => p.2.any fun w => match w.owner with | .bow k b _ _ _ _ _ => k == c && b == id | _ => false) ||
    (s.bowX c).late.any fun w => w.id == id

/-- BOW_BLOCK_COMPLETE (R339): the oldest block that has ended completes once its writes are visible. -/
def execBowBlockComplete (c : Fin 512) (s : State) : Out :=
  match (s.bowX c).ended with
  | e :: _ => if e.stalled || s.bowWritesOut c e.id then .next s else .next (s.bowFinish c e)
  | [] => .next s

/-- BOW_CQ_ROOM (R340, R341): the record or message that waits is placed, if there is room. -/
def execBowCqRoom (c : Fin 512) (s : State) : Out :=
  match (s.bowX c).ended with
  | e :: _ => if e.stalled then .next ((s.bowResume c).bowFinish c e) else .next s
  | [] => .next s

/-- BOW_DISABLE_DONE (R344): every read has returned or failed, and its data is discarded. -/
def execBowDisableDone (c : Fin 512) (s : State) : Out :=
  if s.bowSt c ≠ 6 ∨ s.bowReadsOut c then .next s else .next (((s.bowSweep c).setBowX c BowX.init).setBowSt c 0)

end Sys2Proof.Machine
end

