-- ==== Sys2Proof/Machine/Egress.lean ====
section
/-! DEFINITION. A frame leaves: selection at a level-0 point (R146, R150, R151), the egress to a MAC, to a Cuelrun port or to a host
controller (R192, R196, R204, R282), and late checks (R114). -/

namespace Sys2Proof.Machine

/-! ### Selection -/

/-- V of a node becomes F of the child it has chosen (R146). -/
def State.tmSetV (s : State) : List Nat → State
  | a :: b :: rest => (s.fset Fld.TM_NODE_W4_V a (s.fget Fld.TM_NODE_W2_F b)).tmSetV (b :: rest)
  | _ => s

/-- A frame is sent through an element: its tokens pay for it (R150). -/
def State.tmPay (s : State) (f : Frame) (n : Nat) : State :=
  if s.fget Fld.TM_NODE_W1_RATE n = 0 then s
  else
    let s := s.tmRefill n
    s.setTokens n (s.tmTokens n - (s.tmLen n f : Int))

/-- A child that has been selected and stays backlogged: F grows by the increment of its new head frame (R145). -/
def State.tmNextF (s : State) (n : Nat) : State :=
  if s.tmBacklog n then s.fset Fld.TM_NODE_W2_F n (s.fget Fld.TM_NODE_W2_F n + s.tmHeadInc n) else s

/-- A point's selection: the path from the point down to a queue. -/
def State.tmChoose (s : State) (point : Nat) : Option (List Nat) :=
  let root := 348160 + point
  if s.fbit Fld.TM_NODE_W0_VALID root && s.tmShaped root then s.tmPath 4 root else none

/-- The head frame of a queue leaves it, and the tree takes the selection (R145, R146, R150, R151). -/
def State.tmTake (s : State) (path : List Nat) (h : Nat) (f : Frame) : State :=
  let q := path.getD 4 0
  let s := s.tmSetV path
  let s := path.foldl (fun s n => s.tmPay f n) s
  let s := s.setFifo q ((s.fifo q).erase h)
  ((path.drop 1).reverse).foldl (fun s n => s.tmNextF n) s

/-! ### Egress -/

/-- A frame that has started to leave a MAC is away once the MAC takes the next one. -/
def State.sendDone (s : State) (point : Nat) : State :=
  ((s.frames.filter fun c => c.2.stage == .sending point).map fun c => c.1).foldl (fun s h => s.freeFrame h) s

/-- A TS_REQ job learns that its frame has left, and when (R244). -/
def State.jobSent (s : State) (f : Frame) (stamp : Word) : State :=
  match f.job with
  | some j => { s with txGone := s.txGone ++ [(j, some stamp)] }
  | none => s

/-- A MAC starts to send a frame: the PTP capture, then MACsec (R192, R194, R196, R197). -/
def State.sendMac (s : State) (m h : Nat) (f : Frame) : State :=
  match (s.ptpCapture m f.bytes).macsecTx m f.bytes with
  | (.drop, s) => s.dropFrame h
  | (.pass d _, s) =>
    let s := (s.bump Fld.PRTC_TX_FRAMES_COUNT m).fadd Fld.PRTC_TX_BYTES_COUNT m (d.length + 4)
    let s := s.jobSent f (BitVec.ofNat 64 (s.stamp (s.fget Fld.PRT_PTP_DELAY_TX m)))
    (s.setFrame h { f with stage := .sending m, job := none }).emit (.wireTx m d)

/-- A Cuelrun port takes a frame: it goes under the header that the level-2 node's CUE_L2_DEST gives (R204). -/
def State.sendCue (s : State) (p l2 h : Nat) (f : Frame) : State :=
  let d := s.fget Fld.CUE_L2_DEST_DEADLINE l2
  if d = 0 then (s.bump Fld.CUEC_NO_ROUTE_COUNT).dropFrame h
  else
    let g := { linkFrame 0 0 with
      dst := s.fget Fld.CUE_L2_DEST_DST l2, src := s.devId, cls := s.fget Fld.CUE_L2_DEST_CLASS l2, type := 0, deadline := d,
      payload := f.bytes }
    ((s.setFrame h f).cueEnq p ⟨false, none, s.ns, false, g, some h⟩).cueKick

/-- A host controller takes a frame. -/
def State.sendHost (s : State) (q h : Nat) (f : Frame) : State :=
  { s.setFrame h { f with stage := .host q } with hostOut := s.hostOut ++ [h] }

/-- The rate of a trained PCIe link, per lane, in tenths of a Gb/s (PCI_SEG_STATUS.RATE). -/
def laneGts : Nat → Nat
  | 1 => 25 | 2 => 50 | 3 => 80 | 4 => 160 | 5 => 320 | 6 => 640 | 7 => 1280 | _ => 0

/-- The capacity of a host controller in Gb/s: the sum of its trained links, each carrying 235 of 256 parts of its lanes' rate
(R17, R210; the ratio is that of Table 01-1's "about 235 GB/s", DESIGN CHOICE, log entry 76). -/
def State.hostRate (s : State) (k : Nat) : Nat :=
  ([2 * k, 2 * k + 1].map fun g =>
    if s.leadSeg g == g && s.fbit Fld.PCI_SEG_STATUS_LINK_UP g then
      s.fget Fld.PCI_SEG_STATUS_WIDTH g * laneGts (s.fget Fld.PCI_SEG_STATUS_RATE g) * 235 / 2560 else 0).sum

/-- The rate in Gb/s of an egress point. -/
def State.egressRate (s : State) (point : Nat) : Nat :=
  if point < 32 then portRate (s.modeOf point) else if point < 36 then 1600 else s.hostRate (point - 36)

/-- Whether the egress of a point can take a frame at all: a link that is UP, or a host controller with a trained link (R17, R141,
R187, R210). -/
def State.pointReady (s : State) (point : Nat) : Bool :=
  if point < 32 then s.modeOf point != 4 && s.linkExists point && s.linkSt point == 4
  else if point < 36 then s.cueUp (point - 32)
  else s.hostRate (point - 36) != 0

/-- Whether a frame may start to leave a point before its last byte is in the buffer (R113). A frame not above CT_BYTES is whole by then. -/
def State.cutThrough (s : State) (point : Nat) (f : Frame) : Bool :=
  !f.storeFwd && !f.copy && decide (s.egressRate point ≤ f.inRate) && decide (max 64 (s.fget Fld.ACT_CFG_CT_BYTES 0) < f.lenFcs)

/-- TM_SELECT (R141, R146, R282): a level-0 point whose egress has room selects a frame and sends it; a frame of an older generation of
its instance is discarded. -/
def execTmSelect (point : Fin 38) (room : Bool) (s : State) : Out :=
  if !room || !s.pointReady point then .next s
  else
    let s := if point.val < 32 then s.sendDone point else s
    match s.tmChoose point with
    | none => .next s
    | some path =>
      let q := path.getD 4 0
      match (s.tmReady q).bind fun h => (s.frame? h).map fun f => (h, f) with
      | none => .next s
      | some (h, f) =>
        let s := s.tmTake path h f
        if s.frameOrphan f then .next ((s.bump Fld.CAPOC_ORPHAN_FRAMES_COUNT).dropFrame h)
        else
          let s := (s.bump Fld.TM_QCNT_TX_PKTS_COUNT q).fadd Fld.TM_QCNT_TX_BYTES_COUNT q f.lenFcs
          let f := { f with passed := !s.cutThrough point f }
          .next (if point.val < 32 then s.sendMac point h f
            else if point.val < 36 then s.sendCue (point - 32) (path.getD 2 0 - tmFirst 2) h f
            else s.sendHost q h f)

/-! ### Late checks (R114) -/

/-- The completion status of a late check at a host egress (Table 10-9). -/
def lateCheckStatus : LateCheck → Nat
  | .ingressFcs => 0x10 | .endsEarly => 0x11 | .hostPoison => 0x11 | .bufferError => 0x12 | .espAuth => 0x13

/-- What a late check counts of its own: a bad FCS at the MAC it came from, which is no good frame then; a failed ICV; a packet-buffer error
(R191, R193, R432). -/
def State.lateCount (s : State) (f : Frame) : LateCheck → State
  | .ingressFcs =>
    if 32 ≤ f.src then s
    else if f.macsec then s.bump Fld.CIPC_AUTH_FAIL_COUNT
    else ((s.bump Fld.PRTC_RX_FCS_ERR_COUNT f.src).fsub Fld.PRTC_RX_FRAMES_COUNT f.src 1).fsub Fld.PRTC_RX_BYTES_COUNT f.src f.lenFcs
  | .espAuth => s.bump Fld.CIPC_AUTH_FAIL_COUNT
  | .bufferError => s.errReport 1 13 0 0
  | .endsEarly | .hostPoison => s

/-- Whether a late check can still fail for a frame: only a frame of the host has host payload, only one of a port an ingress check, and a
frame that was stored and forwarded had all its checks but the packet buffer's made before it started to leave (R113). -/
def lateOpen (f : Frame) : LateCheck → Bool
  | .bufferError => true
  | .hostPoison => f.tx.isSome && !f.passed
  | .ingressFcs | .endsEarly => f.tx.isNone && !f.passed
  | .espAuth => !f.passed

/-- LATE_CHECK_FAIL (R114, R244, Table 04-11): the frame is ended where it has started to leave, and dropped where not. One
at the storage engine goes on there, and the payload drawn from it is poisoned (R221). -/
def execLateCheckFail (h : Nat) (check : LateCheck) (s : State) : Out :=
  match s.frame? h with
  | none => .next s
  | some f =>
    if !lateOpen f check then .next s
    else if check = .hostPoison then
      let f := { f with job := none }
      .next (((s.txPoison f).setFrame h f).endFrame h f (lateCheckStatus check))
    else if check = .bufferError ∧ f.stage = .storage then .next ((s.lateCount f check).setFrame h { f with late := lateCheckStatus check })
    else .next ((s.lateCount f check).endFrame h f (lateCheckStatus check))

end Sys2Proof.Machine
end

