-- ==== Sys2Proof/Machine/HostEnd.lean ====
section
/-! DEFINITION. What the host and the clock do to the endpoint's requests: completions, timeouts, the end of a quarantine, freed tags, and
configuration writes (R216 to R223, R226, R230). -/

namespace Sys2Proof.Machine

/-- COMPLETION_RECEIVED (R219 to R221, R225). A translation lets the requests that wait for it go on (R223). -/
def execCompletionReceived (inst : Fin 4096) (tag : Nat) (tlp : Tlp) (c : Cpl) (s : State) : Out :=
  match s.tlpCheck inst tlp with
  | (none, s) => .next s
  | (some poisoned, s) =>
    let (s, os) := s.cpl inst tag poisoned c
    let s := s.refusedOwners os
    match c with
    | .data _ => .next s
    | _ =>
      let (s, os) := s.hostGo inst
      .next (s.refusedOwners os)

/-- COMPLETION_TIMEOUT (R218, R219). -/
def execCompletionTimeout (inst : Fin 4096) (tag : Nat) (s : State) : Out :=
  let (s, os) := s.cplTimeout inst tag
  .next (s.refusedOwners os)

/-- QUARANTINE_END (R219): the entry and its tag are freed. -/
def execQuarantineEnd (inst : Fin 4096) (tag : Nat) (s : State) : Out :=
  .next { s with entries := s.entries.filter fun e => !(e.inst == inst.val && e.tag == tag && e.quar) }

/-- TAG_AVAILABLE (R216, R217): the requests of an instance that wait for an entry take one, in order. -/
def execTagAvailable (inst : Fin 4096) (s : State) : Out :=
  let (s, os) := s.hostGo inst
  .next (s.refusedOwners os)

/-! ### Configuration writes -/

/-- A function's configuration after a write; Device Control, LTR and the SR-IOV fields are a PF's (Table 09-2). -/
def cfgItemPut (f : Func) (pf : Bool) : CfgItem → Func
  | .busMaster b => { f with bme := b }
  | .memSpace b => if pf then { f with mem := b } else f
  | .d3hot b => { f with d3 := b }
  | .maxPayload c => if pf then { f with mps := min 3 c.val } else f
  | .maxRead c => if pf then { f with mrrs := min 5 c.val } else f
  | .tagBits n => if pf && (n == 8 || n == 10 || n == 14) then { f with tagBits := n } else f
  | .relaxed b => if pf then { f with relaxed := b } else f
  | .cplTimeout c => if pf then { f with cto := c.val } else f
  | .ats b => { f with ats := b }
  | .ltr b => if pf then { f with ltr := b } else f
  | .ltrMax a b => if pf then { f with ltrSnoop := a.toNat, ltrNoSnoop := b.toNat } else f
  | .vfEnable b => if pf then { f with vfEn := b } else f
  | .numVfs n => if pf && !f.vfEn then { f with numVfs := min 1023 n } else f
  | .vfMemSpace b => if pf then { f with vfMem := b } else f
  | .msix e m => { f with msixEn := e, msixMask := m }
  | .aerClear e => { f with aer := f.aer.filter fun x => x != e }

/-- What an instance waited for a configuration write for goes on: vectors, requests, and fetches of its rings (R230). -/
def State.funcGo (s : State) (i : Nat) : State :=
  let (s, os) := (s.msixFlush i).hostGo i
  let s := s.refusedOwners os
  [0, 1].foldl (fun s k => (s.ringsOf k i).foldl (fun s n => s.fetch k n) s) s

/-- PCI_CONFIG_WRITE (R223, R226, R228, R230). -/
def execPciConfigWrite (inst : Fin 4096) (item : CfgItem) (s : State) : Out :=
  .next (s.unlessRetry inst fun s =>
    let s := s.setFunc inst (cfgItemPut (s.func inst) (vfOf inst == 0) item)
    ((s.covered inst).foldl (fun s k => s.funcGo k) s).pwrUpdate)

end Sys2Proof.Machine
end

