-- ==== Sys2Proof/Machine/Operands.lean ====
section
/-! DEFINITION. Operand forms: immediates, shift amounts and the instruction words of every Peosh format (Tables 02-4 to 02-7). -/

namespace Sys2Proof.Machine

/-- Immediates and displacements are two's complement and sign-extended to 64 bits (R27). -/
def sext {n : Nat} (b : BitVec n) : Word := b.signExtend 64

/-- The common fields and the opcode, at their places (Table 02-4). -/
def encHead (x : Issue) (opc : Nat) : Nat :=
  (if x.pn then 1 else 0) <<< 31 + x.pred.val <<< 28 + opc <<< 22

/-- Format R. -/
def encR (x : Issue) (opc : Nat) (rd ra rb : RegIx) (fn : Nat) : Word :=
  BitVec.ofNat 64 (encHead x opc + rd.val <<< 17 + ra.val <<< 12 + rb.val <<< 7 + fn)
/-- Formats I and M. -/
def encI (x : Issue) (opc : Nat) (rd ra : RegIx) (imm : BitVec 12) : Word :=
  BitVec.ofNat 64 (encHead x opc + rd.val <<< 17 + ra.val <<< 12 + imm.toNat)
/-- Format S. -/
def encS (x : Issue) (opc : Nat) (rd ra : RegIx) (fn : Nat) (sh : Fin 64) : Word :=
  BitVec.ofNat 64 (encHead x opc + rd.val <<< 17 + ra.val <<< 12 + fn <<< 8 + sh.val)
/-- Format F. -/
def encF (x : Issue) (opc : Nat) (rd ra : RegIx) (pos lenm1 : Fin 64) : Word :=
  BitVec.ofNat 64 (encHead x opc + rd.val <<< 17 + ra.val <<< 12 + pos.val <<< 6 + lenm1.val)
/-- The code of a condition (Table 02-7). -/
def condCode : Cond → Nat
  | .eq => 0 | .ne => 1 | .lt => 2 | .ge => 3 | .ltu => 4 | .geu => 5 | .tst => 6 | .tstz => 7
/-- Format CR. -/
def encCR (x : Issue) (pd : PredIx) (ra rb : RegIx) (cc : Cond) : Word :=
  BitVec.ofNat 64 (encHead x 0x0A + pd.val <<< 17 + ra.val <<< 12 + rb.val <<< 7 + condCode cc)
/-- Format CI. -/
def encCI (x : Issue) (pd : PredIx) (cc : Cond) (ra : RegIx) (imm : BitVec 11) : Word :=
  BitVec.ofNat 64 (encHead x 0x0B + pd.val <<< 19 + (condCode cc) <<< 16 + ra.val <<< 11 + imm.toNat)
/-- Format PL. -/
def encPL (x : Issue) (pd pa pb : PredIx) (na nb : Bool) (fn : Nat) : Word :=
  BitVec.ofNat 64 (encHead x 0x0C + pd.val <<< 19 + pa.val <<< 16 + pb.val <<< 13 + (if na then 1 else 0) <<< 12 +
    (if nb then 1 else 0) <<< 11 + fn)
/-- Format B. -/
def encB (x : Issue) (disp : BitVec 22) : Word := BitVec.ofNat 64 (encHead x 0x20 + disp.toNat)
/-- Format J. -/
def encJ (x : Issue) (rd : RegIx) (disp : BitVec 17) : Word :=
  BitVec.ofNat 64 (encHead x 0x21 + rd.val <<< 17 + disp.toNat)
/-- Format H. -/
def encH (x : Issue) (rd ra : RegIx) (hvi : Nat) (fn : Nat) : Word :=
  BitVec.ofNat 64 (encHead x 0x2B + rd.val <<< 17 + ra.val <<< 12 + hvi <<< 6 + fn)
/-- Format X, with its function at [3:0]. -/
def encX (x : Issue) (opc : Nat) (ra rb : RegIx) (fn : Nat) : Word :=
  BitVec.ofNat 64 (encHead x opc + ra.val <<< 12 + rb.val <<< 7 + fn)
/-- Format X of the thread-control group, with its function at [15:12] and IMM12 at [11:0]. -/
def encT (x : Issue) (fn : Nat) (imm : BitVec 12) : Word := BitVec.ofNat 64 (encHead x 0x2C + fn <<< 12 + imm.toNat)
/-- Format C. -/
def encC (x : Issue) (opc : Nat) (rd ra : RegIx) (sr : BitVec 12) : Word :=
  BitVec.ofNat 64 (encHead x opc + rd.val <<< 17 + ra.val <<< 12 + sr.toNat)
/-- Format L, word 0 in [31:0] and word 1 in [63:32]. -/
def encL (x : Issue) (opc : Nat) (rd : RegIx) (lop : Nat) (imm : BitVec 48) : Word :=
  BitVec.ofNat 64 (encHead x opc + rd.val <<< 17 + lop <<< 16 + (imm.toNat >>> 32) + (imm.toNat % 2 ^ 32) <<< 32)

/-- ROTR: a rotation right by 0 to 63 places. -/
def rotr (a : Word) (n : Nat) : Word := a.rotateRight n

/-- Bits [pos+len−1:pos] of a word, bits beyond 63 reading as zero (ext). -/
def extField (a : Word) (pos len : Nat) : Word := BitVec.ofNat 64 ((a.toNat >>> pos) % 2 ^ len)

/-- The field sign-extended from its bit len − 1 (exts). -/
def extsField (a : Word) (pos len : Nat) : Word :=
  if len < 64 then ((extField a pos len) <<< (64 - len)).sshiftRight (64 - len) else extField a pos len

/-- The word `d` with bits [pos+len−1:pos] taken from the low bits of `a`; bits beyond 63 are discarded (ins). -/
def insField (d a : Word) (pos len : Nat) : Word :=
  let m : Word := BitVec.ofNat 64 ((2 ^ len - 1) <<< pos)
  (d &&& ~~~m) ||| ((a <<< pos) &&& m)

/-- Leading zeros; 64 for 0. -/
def clzN (a : Word) : Nat := match (List.range 64).find? fun i => a.getLsbD (63 - i) with | some i => i | none => 64
/-- Trailing zeros; 64 for 0. -/
def ctzN (a : Word) : Nat := match (List.range 64).find? fun i => a.getLsbD i with | some i => i | none => 64
/-- Set bits. -/
def popcN (a : Word) : Nat := ((List.range 64).filter fun i => a.getLsbD i).length

/-- The low `n` bytes of a word reversed and zero-extended (bswap). -/
def bswapN (n : Nat) (a : Word) : Word :=
  BitVec.ofNat 64 (((List.range n).map fun i => ((a.toNat >>> (8 * i)) % 256) <<< (8 * (n - 1 - i))).sum)

/-- Signed quotient truncating toward zero; all ones for a zero divisor; −2^63 for −2^63 ÷ −1 (Table 02-8). -/
def divS (a b : Word) : Word := if b = 0 then BitVec.allOnes 64 else BitVec.ofInt 64 (a.toInt.tdiv b.toInt)
/-- Unsigned quotient; all ones for a zero divisor. -/
def divU (a b : Word) : Word := if b = 0 then BitVec.allOnes 64 else BitVec.ofNat 64 (a.toNat / b.toNat)
/-- Signed remainder; ga for a zero divisor. -/
def remS (a b : Word) : Word := if b = 0 then a else BitVec.ofInt 64 (a.toInt.tmod b.toInt)
/-- Unsigned remainder; ga for a zero divisor. -/
def remU (a b : Word) : Word := if b = 0 then a else BitVec.ofNat 64 (a.toNat % b.toNat)
/-- The high 64 bits of the signed product. -/
def mulhS (a b : Word) : Word := BitVec.ofInt 64 ((a.toInt * b.toInt) / 2 ^ 64)
/-- The high 64 bits of the unsigned product. -/
def mulhU (a b : Word) : Word := BitVec.ofNat 64 ((a.toNat * b.toNat) / 2 ^ 64)
/-- Signed and unsigned minimum and maximum. -/
def minS (a b : Word) : Word := if a.toInt ≤ b.toInt then a else b
def maxS (a b : Word) : Word := if a.toInt ≤ b.toInt then b else a
def minU (a b : Word) : Word := if a.toNat ≤ b.toNat then a else b
def maxU (a b : Word) : Word := if a.toNat ≤ b.toNat then b else a

end Sys2Proof.Machine
end

