-- ==== Sys2Proof/Machine/Flags.lean ====
section
/-! DEFINITION. Conditions and predicates: Peosh has no flags register; compares write predicates (Table 02-8). -/

namespace Sys2Proof.Machine

/-- The conditions of cmp and cmpi (Table 02-8). -/
def condEval (cc : Cond) (a b : Word) : Bool :=
  match cc with
  | .eq => a == b
  | .ne => a != b
  | .lt => decide (a.toInt < b.toInt)
  | .ge => decide (b.toInt ≤ a.toInt)
  | .ltu => decide (a.toNat < b.toNat)
  | .geu => decide (b.toNat ≤ a.toNat)
  | .tst => (a &&& b) != 0
  | .tstz => (a &&& b) == 0

end Sys2Proof.Machine
end

