-- ==== Sys2Proof/Machine/Mmu.lean ====
section
/-! DEFINITION. Control cores: traps and their return (R45, R46), translation (R48, R49) and the memory a core reaches. -/

namespace Sys2Proof.Machine

def State.core (s : State) (k : Nat) : Core := mget Core.init s.cores k
def State.setCore (s : State) (k : Nat) (c : Core) : State := { s with cores := mset Core.init s.cores k c }

/-- The code of a privilege level (R47). -/
def Priv.code : Priv → Nat
  | .u => 0 | .s => 1 | .m => 2

/-- Entry of a trap to level M (true) or S, as one step (R45): `cls` is 0 for a fault, 1 for an environment call, 2 for an external
interrupt. -/
def Core.trapTo (c : Core) (toM : Bool) (cause : Nat) (info : Word) (cls : Nat) (pc : Word) : Core :=
  let set (r : TrapRegs) : TrapRegs :=
    { r with trpc := pc, cause := BitVec.ofNat 64 cause, info := info, trpsPriv := c.priv, trpsIe := c.ie }
  if toM then
    { c with trapM := set c.trapM, ie := false, priv := .m, idling := false,
             a := { c.a with pc := c.trapM.vbase + BitVec.ofNat 64 (0x40 * cls) } }
  else
    { c with trapS := set c.trapS, priv := .s, idling := false,
             a := { c.a with pc := c.trapS.vbase + BitVec.ofNat 64 (0x40 * cls) } }

/-- A Peosh-S fault (R45): taken at S when S_ROUTE[cause] = 1 and the privilege is S or U, otherwise at M. -/
def Core.fault (c : Core) (cause : Nat) (info : Word) : Core :=
  let cls := if 0x0A ≤ cause ∧ cause ≤ 0x0C then 1 else 0
  c.trapTo (!(bit c.route cause && c.priv != .m)) cause info cls c.a.pc

/-- An external interrupt (R46): taken at M with class 2, cause 0x40; M_TRPC is the next unexecuted instruction. -/
def Core.takeInterrupt (c : Core) : Core := c.trapTo true 0x40 0 2 c.a.pc

/-- rfe from the level it runs at (R45). -/
def Core.returnFrom (c : Core) : Core :=
  match c.priv with
  | .m => { c with priv := c.trapM.trpsPriv, ie := c.trapM.trpsIe, a := c.a.retireAt c.trapM.trpc }
  | _ => { c with priv := c.trapS.trpsPriv, a := c.a.retireAt c.trapS.trpc }

/-! ### Translation -/

/-- The kinds of access. -/
inductive AccKind where
  | fetch | load | store
  deriving DecidableEq, Repr

/-- The page fault of an access (R48). -/
def AccKind.pageFault : AccKind → Nat
  | .fetch => 0x05 | .load => 0x06 | .store => 0x07

/-- What a translation answers: a DPA with the entry's memory type if one was used, or a fault cause. -/
inductive Xlat where
  | ok (pa : Nat) (device : Option Bool)
  | fail (cause : Nat)
  deriving DecidableEq, Repr

/-- permitted(pte, access, privilege) of R48. -/
def permitted (pte : Word) (k : AccKind) (priv : Priv) (uacc : Bool) : Bool :=
  let user := bit pte 58
  let right := match k with | .fetch => bit pte 57 | .store => bit pte 56 | .load => bit pte 55
  right && (match priv, k with
    | .u, _ => user
    | _, .fetch => !user
    | _, _ => !user || uacc)

/-- The checks a leaf must pass, and the address it gives (R48). -/
def leafAccess (pte : Word) (level : Nat) (va : Nat) (k : AccKind) (priv : Priv) (uacc : Bool) : Xlat :=
  if !permitted pte k priv uacc || !bit pte 54 || (k == .store && !bit pte 53) then .fail k.pageFault
  else .ok (bits pte 47 12 <<< 12 + va % 2 ^ (12 + 9 * level)) (some (bits pte 61 60 == 1))

/-- What the walk finds: a leaf and its level, a fault cause, or an entry on a poisoned line. -/
inductive Walk where
  | leaf (pte : Word) (level : Nat)
  | fail (cause : Nat)
  | poison (a : Nat)
  deriving DecidableEq, Repr

/-- The table walk of R48 from level `n` − 1 down; its loads are normal-memory loads. One whose address lies in no normal memory (device
memory, or nothing) raises ACCESS with the virtual address: DESIGN CHOICE, log entry 74, since R48 does not say what it does. -/
def State.walk (s : State) (va : Nat) (k : AccKind) : Nat → Nat → Walk
  | 0, _ => .fail k.pageFault
  | level + 1, a =>
    let addr := a + 8 * ((va >>> (12 + 9 * level)) % 512)
    if !s.normalAt addr 8 then .fail 0x04
    else match s.memLoad64 addr with
      | none => .poison addr
      | some pte =>
        if !bit pte 63 || bits pte 11 0 ≠ 0 || 1 < bits pte 61 60 then .fail k.pageFault
        else if !bit pte 62 then
          if level = 0 || bits pte 59 53 ≠ 0 then .fail k.pageFault
          else s.walk va k level (bits pte 47 12 <<< 12)
        else if level = 3 || (bits pte 47 12 <<< 12) % 2 ^ (12 + 9 * level) ≠ 0 then .fail k.pageFault
        else .leaf pte level

/-- A cached translation serves an address: its page, and its ASID unless GLOBAL = 1 (R49). -/
def TlbEntry.hits (e : TlbEntry) (asid : BitVec 16) (va : Nat) : Bool :=
  decide (e.vbase = va / 2 ^ (12 + 9 * e.level) * 2 ^ (12 + 9 * e.level)) && (bit e.pte 59 || e.asid == asid)

/-- Translation of a virtual address for core `k` (R48, R49). A translation may be cached: where a cached one serves the address,
a free choice says whether it is used or the table is walked again. The state carries the cache. -/
def State.translate (s : State) (core : Nat) (va : Word) (k : AccKind) : Xlat × State :=
  let c := s.core core
  if c.priv = .m || !c.mmuEn then
    (if bits va 63 48 ≠ 0 then .fail 0x04 else .ok va.toNat none, s)
  else if bits va 63 48 ≠ 0 then (.fail k.pageFault, s)
  else
    let cached := c.tlb.find? fun e => e.hits c.asid va.toNat
    let (useIt, s) := match cached with | some _ => s.drawBool | none => (false, s)
    match cached, useIt with
    | some e, true => (leafAccess e.pte e.level va.toNat k c.priv c.uacc, s)
    | _, _ =>
      match s.walk va.toNat k 4 (c.root.toNat <<< 12) with
      | .fail cause => (.fail cause, s)
      | .poison a => (.fail 0x08, s.noteUncorr a)
      | .leaf pte level =>
        let e : TlbEntry := ⟨c.asid, va.toNat / 2 ^ (12 + 9 * level) * 2 ^ (12 + 9 * level), level, pte⟩
        let r := leafAccess pte level va.toNat k c.priv c.uacc
        (r, match r with
          | .ok _ _ => s.setCore core { c with tlb := e :: c.tlb }
          | .fail _ => s)

/-- tlbinv (R49): discards the cached translations for an address, or for all, and for an ASID, or for all. -/
def Core.invalidate (c : Core) (va : Option Nat) (asid : Option (BitVec 16)) : Core :=
  { c with tlb := c.tlb.filter fun e =>
      !((match va with | none => true | some v => decide (e.vbase = v / 2 ^ (12 + 9 * e.level) * 2 ^ (12 + 9 * e.level))) &&
        (match asid with | none => true | some x => e.asid == x || bit e.pte 59)) }

/-- Under translation, an entry whose MTYPE differs from its region's type raises ACCESS (R393). -/
def mtypeOk (r : Region) (device : Option Bool) : Bool :=
  match device with
  | none => true
  | some d => d == !r.normal

/-- An uncorrectable word of the on-chip memories that a control core reads is a contained error (R432, Table 19-9). Table 18-3 has no block
for the cores, so the UNIT of its record is a free value. -/
def State.noteCoreEcc (s : State) (va : Word) : State :=
  let (n, s) := s.drawNat
  s.errReport 1 (n % 256) 0 va

/-- The fetch of one instruction word at a virtual address: the cause and value of the fault it raises, if any (R31, R43, R48, R394).
`bad`: the word is uncorrectable in an on-chip memory (Table 19-9). -/
def State.fetchWordFault (s : State) (core : Nat) (va : Word) (bad : Bool) : Option (Nat × Word) × State :=
  if va.toNat % 4 ≠ 0 then (some (0x03, va), s)
  else
    let (x, s) := s.translate core va .fetch
    match x with
    | .fail cause => (some (cause, va), s)
    | .ok pa dev =>
      let r := s.region pa
      if !mtypeOk r dev || r = .unmapped || !r.normal then
        (some (0x04, va), if r = .unmapped then s.bump Fld.MEMC_UNMAPPED_COUNT else s)
      else if bad then (some (0x08, va), s.noteCoreEcc va)
      else match s.memLoad pa 4 with
        | none => (some (0x08, va), s.noteUncorr pa)
        | some _ => (none, s)

end Sys2Proof.Machine
end

