-- ==== Sys2Proof/Machine/Peosh.lean ====
section
/-! DEFINITION. The issue of one Peosh instruction by a thread or a control core: predicate, profile, faults, retirement
(R22, R25, R26, R30, R43 to R45), shared by every instruction. -/

namespace Sys2Proof.Machine

/-- What an instruction's own effect comes to: it completes and the pc moves on; it completes and the pc goes elsewhere; it faults
with a cause and the value of Table 02-11; or it stays at its pc, waiting. -/
inductive Eff where
  | done (s : State)
  | jump (s : State) (pc : Word)
  | fault (s : State) (cause : Nat) (value : Word)
  | stay (s : State)

/-- The registers of the issuer. -/
def State.arch (s : State) (w : Who) : Arch :=
  match w with | .thread t => (s.thr t).a | .core k => (s.core k).a

/-- The state with the issuer's registers replaced. -/
def State.setArch (s : State) (w : Who) (a : Arch) : State :=
  match w with
  | .thread t => s.setThr t { (s.thr t) with a := a }
  | .core k => s.setCore k { (s.core k) with a := a }

/-- The predicate of R26: p[PRED], inverted when PN = 1. -/
def issueHolds (x : Issue) (a : Arch) : Bool := a.getP x.pred != x.pn

/-- PN = 1 with PRED = 0: ILLEGAL whatever the predicate (R26). -/
def issueIllegal (x : Issue) : Bool := x.pn && x.pred == 0

/-- Which profiles have an instruction (Table 02-1): both, P or S alone, or none, for a word that the tables list nowhere (R29). -/
inductive Profile where
  | both | p | s | none
  deriving DecidableEq, Repr

/-- Whether an issuer's profile has the instruction (R22). -/
def Profile.has (prof : Profile) (w : Who) : Bool :=
  match prof, w with
  | .both, _ => true
  | .p, .thread _ => true
  | .s, .core _ => true
  | _, _ => false

/-- Retirement at the next pc (R26, Table 02-12). -/
def State.retire (s : State) (w : Who) (pc : Word) : State := s.setArch w ((s.arch w).retireAt pc)

/-- A fault of the issuer: R44 for a thread, R45 for a core. -/
def State.raise (s : State) (w : Who) (cause : Nat) (insn value : Word) : State :=
  match w with
  | .thread t => s.peoshFault t cause insn value
  | .core k => s.setCore k ((s.core k).fault cause value)

/-- The fetch of word `k` of the instruction at the issuer's pc: the cause and value of the fault it raises, if any. A thread's word
outside 0x0_0000 to 0x3_FFFF raises ACCESS (R25) with the address of the word, for word 1 the pc + 4 (DESIGN CHOICE, log entry 74: R25
speaks of the pc alone); a core's fetch follows R48; an uncorrectable word raises BUS (R30, Table 19-9). -/
def State.fetchWord (s : State) (x : Issue) (k : Nat) : Option (Nat × Word) × State :=
  let bad := x.ecc == (if k = 0 then .word0 else .word1)
  match x.who with
  | .thread t =>
    let va := (s.thr t).a.pc + BitVec.ofNat 64 (4 * k)
    if threadImageBytes < (s.thr t).a.pc.toNat + 4 * k + 4 then (some (0x04, va), s)
    else if bad then (some (0x08, va), s.noteThreadEcc t va)
    else (none, s)
  | .core c => s.fetchWordFault c ((s.core c).a.pc + BitVec.ofNat 64 (4 * k)) bad

/-- The issue proper, once word 0 has been fetched: `insn` holds word 0 in [31:0] and word 1 of a long form in [63:32]; `len` is its length
in bytes. ILLEGAL is the highest row of Table 02-11 and a false predicate raises nothing, so word 1 is fetched only after both (R26, R29,
R43); a fault of that fetch is recorded with word 0 alone. -/
def State.issueAt (s : State) (x : Issue) (insn : Word) (len : Nat) (prof : Profile) (body : State → Eff) : State :=
  let w := x.who
  let word0 : Word := BitVec.ofNat 64 (insn.toNat % 2 ^ 32)
  let next := (s.arch w).pc + BitVec.ofNat 64 len
  if issueIllegal x then s.raise w 0x01 insn word0
  else if !issueHolds x (s.arch w) then s.retire w next
  else if !prof.has w then s.raise w 0x01 insn word0
  else match if len = 8 then s.fetchWord x 1 else (none, s) with
    | (some (cause, value), t) => t.raise w cause word0 value
    | (none, t) =>
      match body t with
      | .done t => t.retire w next
      | .jump t pc => t.retire w pc
      | .fault t cause value => t.raise w cause insn value
      | .stay t => t

/-- Whether the issuer can issue: a thread is READY, a core is released and not waiting in idle (R46, R63), and the clocks of its power
domain run (Table 16-2). -/
def State.canIssue (s : State) (w : Who) : Bool :=
  match w with
  | .thread t => (s.thr t).st == .ready && s.depth (6 + t.val / 192) == 0
  | .core k => (s.core k).running && !(s.core k).idling && s.depth (14 + k.val / 2) == 0

/-- One Peosh instruction is issued. An issuer that cannot issue leaves the state unchanged. A fault at the fetch of word 0, where no word
has come, is recorded with INSN 0: DESIGN CHOICE, log entry 74, since R44 and Table 03-3 say nothing of it. -/
def peosh (x : Issue) (insn : Word) (len : Nat) (prof : Profile) (body : State → Eff) (s : State) : Out :=
  if !s.canIssue x.who then .next s
  else match s.fetchWord x 0 with
    | (some (cause, value), t) => .next (t.raise x.who cause 0 value)
    | (none, t) => .next (t.issueAt x insn len prof body)

/-- An instruction that only writes g[rd]. -/
def toG (x : Issue) (rd : RegIx) (f : Arch → Word) (s : State) : Eff :=
  .done (s.setArch x.who ((s.arch x.who).setG rd (f (s.arch x.who))))

/-- An instruction that only writes p[pd]. -/
def toP (x : Issue) (pd : PredIx) (f : Arch → Bool) (s : State) : Eff :=
  .done (s.setArch x.who ((s.arch x.who).setP pd (f (s.arch x.who))))

end Sys2Proof.Machine
end

