-- ==== Sys2Proof/Machine/PeoshChan.lean ====
section
/-! DEFINITION. The header-vector, channel, peg and thread-control instructions of packet threads, and the fences
(R24, R32 to R38, R51, R60, R63, R454). -/

namespace Sys2Proof.Machine

/-- An effect on the issuing thread; a control core never reaches it (R22). -/
def onThread (x : Issue) (f : Nat → Thread → State → Eff) (s : State) : Eff :=
  match x.who with
  | .thread t => f t (s.thr t) s
  | .core _ => .stay s

/-- The thread's header vector with view `i` set. -/
def Thread.setHv (th : Thread) (i : Nat) (v : Word) : Thread := { th with hv := th.hv.setIfInBounds i v }
/-- A view of the thread's header vector. -/
def Thread.getHv (th : Thread) (i : Nat) : Word := (th.hv[i]?).getD 0

/-- hvrd (R24). -/
def execHvrd (x : Issue) (rd : RegIx) (hvi : Fin 64) (s : State) : Out :=
  peosh x (encH x rd 0 hvi 0) 4 .p (onThread x fun t th s => .done (s.setThr t { th with a := th.a.setG rd (th.getHv hvi) })) s
/-- hvwr (R24). -/
def execHvwr (x : Issue) (ra : RegIx) (hvi : Fin 64) (s : State) : Out :=
  peosh x (encH x 0 ra hvi 1) 4 .p (onThread x fun t th s => .done (s.setThr t (th.setHv hvi (th.a.getG ra)))) s
/-- hvwrm (R24): the mask is in RD. -/
def execHvwrm (x : Issue) (rd ra : RegIx) (hvi : Fin 64) (s : State) : Out :=
  peosh x (encH x rd ra hvi 2) 4 .p (onThread x fun t th s =>
    let m := th.a.getG rd
    .done (s.setThr t (th.setHv hvi ((th.getHv hvi &&& ~~~m) ||| (th.a.getG ra &&& m))))) s
/-- hvrdx (R24): gd := hv[ga[5:0]]. -/
def execHvrdx (x : Issue) (rd ra : RegIx) (s : State) : Out :=
  peosh x (encH x rd ra 0 3) 4 .p (onThread x fun t th s =>
    .done (s.setThr t { th with a := th.a.setG rd (th.getHv ((th.a.getG ra).toNat % 64)) })) s
/-- hvwrx (R24): hv[ga[5:0]] := the value in RD. -/
def execHvwrx (x : Issue) (rd ra : RegIx) (s : State) : Out :=
  peosh x (encH x rd ra 0 4) 4 .p (onThread x fun t th s =>
    .done (s.setThr t (th.setHv ((th.a.getG ra).toNat % 64) (th.a.getG rd)))) s

/-! ### Channels -/

/-- Where a thread in cluster `c` finds the channel named by an ID. -/
def threadKey (t id : Nat) : Nat := chanKey id (cluOf t)

/-- The checks of chrd, in the order of Table 02-11: the channel, then the buffer's alignment and place (R32, R36). -/
def State.chrdFault (s : State) (t id addr : Nat) : Option (Nat × Word) :=
  let c := s.readCause t id
  if c ≠ 0 then some (c, BitVec.ofNat 64 id)
  else if addr % 8 ≠ 0 then some (0x03, BitVec.ofNat 64 addr)
  else if !(inScratch addr 128 || inShared addr 128) then some (0x04, BitVec.ofNat 64 addr)
  else none

/-- The message a thread can take from a channel at once: eligible, and not due to a reader that joined earlier (R71). -/
def State.takeable (s : State) (t k : Nat) : Option Msg :=
  let c := s.chan k
  match s.messageFor t c with
  | none => none
  | some m => if s.readerAhead c m then none else some m

/-- A message is taken at once: `takeMsg` retires. One with an uncorrectable word is discarded and the thread faults with BUS, whose value
is its buffer's address (Table 19-9; DESIGN CHOICE, log entry 74). -/
def takeOrFault (x : Issue) (s : State) (t k : Nat) (m : Msg) (rd : RegIx) (addr : Nat) (pb : Bool) : Eff :=
  if x.ecc = .data then .fault ((s.discardMsg k m).noteThreadEcc t (BitVec.ofNat 64 addr)) 0x08 (BitVec.ofNat 64 addr)
  else .stay (s.takeMsg t k m rd addr pb)

/-- chrd and chrd.pb (R32, R33): a takeable message is taken, otherwise the thread joins the reader FIFO. -/
def chrdBody (x : Issue) (rd ra rb : RegIx) (pb : Bool) : State → Eff :=
  onThread x fun t th s =>
    let id := (th.a.getG ra).toNat % 65536
    let addr := (th.a.getG rb).toNat
    match s.chrdFault t id addr with
    | some (c, v) => .fault s c v
    | none =>
      match s.takeable t (threadKey t id) with
      | some m => takeOrFault x s t (threadKey t id) m rd addr pb
      | none =>
        let k := threadKey t id
        let c := s.chan k
        let s := s.setChan k { c with readers := c.readers ++ [t] }
        .stay (s.setThr t { th with st := .waitRd, wait := some (.read rd k addr pb) })

def execChrd (x : Issue) (rd ra rb : RegIx) (s : State) : Out :=
  peosh x (encR x 0x28 rd ra rb 0) 4 .p (chrdBody x rd ra rb false) s
def execChrdPb (x : Issue) (rd ra rb : RegIx) (s : State) : Out :=
  peosh x (encR x 0x28 rd ra rb 2) 4 .p (chrdBody x rd ra rb true) s

/-- chrdn (R33): never waits, and never takes a message while a blocked reader waits on the channel (R71). -/
def execChrdn (x : Issue) (rd ra rb : RegIx) (s : State) : Out :=
  peosh x (encR x 0x28 rd ra rb 1) 4 .p (onThread x fun t th s =>
    let id := (th.a.getG ra).toNat % 65536
    let addr := (th.a.getG rb).toNat
    match s.chrdFault t id addr with
    | some (c, v) => .fault s c v
    | none =>
      let k := threadKey t id
      match s.messageFor t (s.chan k), (s.chan k).readers with
      | some m, [] => takeOrFault x s t k m rd addr false
      | _, _ => .done (s.setThr t { th with a := th.a.setG rd 0 })) s

/-- chwr (R34, R36, R68): appends gb to the open message, opening it for channel ga; waits where no unreserved word is free. -/
def execChwr (x : Issue) (ra rb : RegIx) (s : State) : Out :=
  peosh x (encR x 0x28 0 ra rb 3) 4 .p (onThread x fun t th s =>
    let id := (th.a.getG ra).toNat % 65536
    let v := th.a.getG rb
    let k := threadKey t id
    let c := s.writeCause t id
    if c ≠ 0 then .fault s c (BitVec.ofNat 64 id)
    else
      let n := match th.openMsg with | some m => m.words.length | none => 0
      if 16 ≤ n then .fault s 0x12 (BitVec.ofNat 64 id)
      else if (match th.openMsg with | some m => m.ch != k | none => false) then .fault s 0x13 (BitVec.ofNat 64 id)
      else
        let ch := s.chan k
        if 0 < ch.room && ch.units.isEmpty && ch.writers.isEmpty then .stay (s.stageWord t k v)
        else
          let s := s.setChan k { ch with writers := ch.writers ++ [.thread t] }
          .stay (s.setThr t { th with st := .waitWr, wait := some (.write k v) })) s

/-- chend (R35): the open message is committed whole; with a message to the action engine the header vector travels. -/
def execChend (x : Issue) (s : State) : Out :=
  peosh x (encR x 0x28 0 0 0 4) 4 .p (onThread x fun t th s =>
    match th.openMsg with
    | none => .fault s 0x14 0
    | some m =>
      let c := s.chan m.ch
      let hv := if 0x10010 ≤ m.ch ∧ m.ch < 0x10020 then some th.hv else none
      let s := s.setChan m.ch { c with
        reserved := c.reserved - m.words.length,
        msgs := c.msgs ++ [({ src := t, words := m.words, hv := hv } : Msg)] }
      .done (s.setThr t { th with openMsg := none })) s

/-! ### Pegs -/

/-- The checks of an acquire or a try (R38), in the order of Table 02-11. PEG_SELF and PEG_LIMIT share a row of that table: a thread that
holds 8 pegs and names one of them gets PEG_SELF (DESIGN CHOICE, log entry 74). -/
def pegFault (t : Nat) (th : Thread) (id : Nat) : Except (Nat × Word) Nat :=
  match pegKey (cluOf t) id with
  | none => .error (0x18, BitVec.ofNat 64 id)
  | some k =>
    if th.pegs.contains k then .error (0x1A, BitVec.ofNat 64 id)
    else if 8 ≤ th.pegs.length then .error (0x1B, BitVec.ofNat 64 id)
    else .ok k

/-- A free peg with no requester is granted at once: gd := 0, or 1 if it was broken; the mark is cleared (R37, R78). -/
def State.grantPeg (s : State) (t k : Nat) (th : Thread) (rd : RegIx) : State :=
  let p := s.peg k
  let s := s.setPeg k { p with holder := some t, broken := false, wdogDone := false }
  s.setThr t { th with pegs := th.pegs ++ [k], a := th.a.setG rd (BitVec.ofNat 64 (b2n p.broken)) }

/-- peg.acq (R37). -/
def execPegAcq (x : Issue) (rd ra : RegIx) (s : State) : Out :=
  peosh x (encR x 0x29 rd ra 0 0) 4 .p (onThread x fun t th s =>
    match pegFault t th ((th.a.getG ra).toNat % 65536) with
    | .error (c, v) => .fault s c v
    | .ok k =>
      let p := s.peg k
      if p.holder.isNone && p.waiters.isEmpty then .done (s.grantPeg t k th rd)
      else
        let s := s.setPeg k { p with waiters := p.waiters ++ [t] }
        .stay (s.setThr t { th with st := .waitPeg, wait := some (.peg rd k none) })) s

/-- peg.try (R37): gd := 2 where the peg is not granted. -/
def execPegTry (x : Issue) (rd ra : RegIx) (s : State) : Out :=
  peosh x (encR x 0x29 rd ra 0 1) 4 .p (onThread x fun t th s =>
    match pegFault t th ((th.a.getG ra).toNat % 65536) with
    | .error (c, v) => .fault s c v
    | .ok k =>
      let p := s.peg k
      if p.holder.isNone && p.waiters.isEmpty then .done (s.grantPeg t k th rd)
      else .done (s.setThr t { th with a := th.a.setG rd 2 })) s

/-- peg.rel (R37, R38): the peg passes to the head of its FIFO; the release sets no mark (R79). -/
def execPegRel (x : Issue) (ra : RegIx) (s : State) : Out :=
  peosh x (encR x 0x29 0 ra 0 2) 4 .p (onThread x fun t th s =>
    let id := (th.a.getG ra).toNat % 65536
    match pegKey (cluOf t) id with
    | none => .fault s 0x18 (BitVec.ofNat 64 id)
    | some k =>
      if !th.pegs.contains k then .fault s 0x19 (BitVec.ofNat 64 id)
      else .done ((s.setThr t { th with pegs := th.pegs.erase k }).releasePeg k false)) s

/-! ### Thread control -/

/-- yield (R60): the thread moves last in its core's round-robin order. -/
def execYield (x : Issue) (s : State) : Out :=
  peosh x (encT x 0 0) 4 .p (onThread x fun t _ s =>
    let core := t / 16
    let order := mget (List.range 16) s.rr core
    .done { s with rr := mset (List.range 16) s.rr core (order.erase (t % 16) ++ [t % 16]) }) s

/-- halt (R63): HALT_HOLDING with a peg or an open message; otherwise the thread stops, with no record. -/
def execHalt (x : Issue) (s : State) : Out :=
  peosh x (encT x 1 0) 4 .p (onThread x fun t th s =>
    if !th.pegs.isEmpty || th.openMsg.isSome then .fault s 0x24 0
    else .done ((s.setThr t { th with st := .halted, pkts := [] }).haltDrops t th.pkts)) s

/-- trap (R30): TRAP in Peosh-P; in Peosh-S an environment call by privilege. -/
def execTrap (x : Issue) (imm : BitVec 12) (s : State) : Out :=
  peosh x (encT x 2 imm) 4 .both (fun s =>
    match x.who with
    | .thread _ => .fault s 0x09 (imm.setWidth 64)
    | .core k => .fault s (0x0A + (s.core k).priv.code) (imm.setWidth 64)) s

/-- brk (R454): a debug stop with CLU_DBG.ATTACH = 1; otherwise BREAK. -/
def execBrk (x : Issue) (imm : BitVec 12) (s : State) : Out :=
  peosh x (encT x 3 imm) 4 .both (fun s =>
    match x.who with
    | .core _ => .fault s 0x28 (imm.setWidth 64)
    | .thread t =>
      let c := cluOf t
      if s.fbit Fld.CLU_DBG_ATTACH c then
        let s := s.setThr t { (s.thr t) with st := .stopped }
        let s := (s.fset Fld.CLU_DBG_BRK_EVENT c 1).fset Fld.CLU_DBG_LAST_THREAD c (t % 192)
        .done (s.irq (512 + c))
      else .fault s 0x28 (imm.setWidth 64)) s

/-! ### Fences (R51): in a model that performs each access whole and in order, a fence only completes -/

def execFenceR (x : Issue) (s : State) : Out := peosh x (encX x 0x1D 0 0 1) 4 .both (fun s => .done s) s
def execFenceW (x : Issue) (s : State) : Out := peosh x (encX x 0x1D 0 0 2) 4 .both (fun s => .done s) s
def execFenceRw (x : Issue) (s : State) : Out := peosh x (encX x 0x1D 0 0 3) 4 .both (fun s => .done s) s
def execFenceX (x : Issue) (s : State) : Out := peosh x (encX x 0x1D 0 0 4) 4 .s (fun s => .done s) s
def execFenceIo (x : Issue) (s : State) : Out := peosh x (encX x 0x1D 0 0 5) 4 .s (fun s => .done s) s

end Sys2Proof.Machine
end

