-- ==== Sys2Proof/Machine/PeoshEngine.lean ====
section
/-! DEFINITION. The engine instructions lkp, csub and bowgo, and a unit's acceptance of a request that waited (R39 to R42, R64). -/

namespace Sys2Proof.Machine

/-- The words of a lookup profile's key block: 3 for LPM, otherwise the key words of its table (R39, Table 05-3). -/
def State.keyWords (s : State) (profile : Nat) : Nat :=
  if s.fbit Fld.TBL_LKP_PROFILE_KIND profile then 3
  else if s.fbit Fld.TBL_EM_TABLE_KEY_WORDS2 (s.fget Fld.TBL_LKP_PROFILE_TABLE profile) then 2 else 1

/-- The check of a reply channel (R42): 0, or CHAN_INVALID or CHAN_PERM. -/
def replyCause (t id : Nat) : Nat :=
  if !chanValid id then 0x10 else if id < 0x4000 ∧ id / 2048 = cluOf t ∧ id % 2048 ≠ 0 then 0 else 0x11

/-- The check of an operand of `n` bytes (R32, R42). -/
def operandCause (a n : Nat) : Nat :=
  if a % 8 ≠ 0 then 0x03 else if inScratch a n || inShared a n then 0 else 0x04

/-- The words at an operand, read as they stand at issue. -/
def State.operandWords (s : State) (t a n : Nat) : List Word :=
  (List.range n).map fun k => BitVec.ofNat 64 (leNat (s.pRead t (a + 8 * k) 8))

/-- The fault of an engine instruction, in the order of Table 02-11. -/
def State.engineFault (s : State) (t : Nat) (a : Arch) (op : EngOp) (ra rb : RegIx) : Option (Nat × Word) :=
  let ga := a.getG ra
  let gb := (a.getG rb).toNat
  let ch := bits ga 15 0
  match op with
  | .bowgo =>
    let c := bits ga 8 0
    if (s.fget Fld.BOW_CH_CFG_BOWGO_CLU c).testBit (cluOf t) then none else some (0x22, BitVec.ofNat 64 c)
  | .lkp =>
    let p := bits ga 23 16
    let e := operandCause gb (8 * s.keyWords p)
    if replyCause t ch ≠ 0 then some (replyCause t ch, BitVec.ofNat 64 ch)
    else if !s.fbit Fld.TBL_LKP_PROFILE_VALID p then some (0x20, BitVec.ofNat 64 p)
    else if e ≠ 0 then some (e, a.getG rb) else none
  | .csub =>
    let e := operandCause gb 32
    if replyCause t ch ≠ 0 then some (replyCause t ch, BitVec.ofNat 64 ch)
    else if e ≠ 0 then some (e, a.getG rb) else none

/-- The unit accepts the request of a thread; a trigger that a channel with PENDING = 255 cannot take is not accepted (R330). A lookup or a
cipher request holds its engine slot until its reply, a trigger until it is accepted (R64). -/
def State.engineGo (s : State) (t : Nat) (a : Arch) (op : EngOp) (ra rb : RegIx) : Option State :=
  let ga := a.getG ra
  let gb := (a.getG rb).toNat
  match op with
  | .bowgo => s.bowTrig (bits ga 8 0) true
  | .lkp =>
    let p := bits ga 23 16
    let l : Lookup := { t := t, profile := p, ch := bits ga 15 0, cookie := bits ga 47 32, words := s.operandWords t gb (s.keyWords p) }
    let s := s.takeEng t
    some { s with lookups := s.lookups ++ [l] }
  | .csub => some ((s.takeEng t).csubAccept t (bits ga 15 0) (bits ga 47 32) (s.operandWords t gb 4))

/-- An engine instruction: it waits at issue while the unit's queue is full or no engine slot is free (R42, R63). -/
def engineBody (x : Issue) (op : EngOp) (ra rb : RegIx) (qFull : Bool) : State → Eff :=
  onThread x fun t th s =>
    let wait : Eff := .stay (s.setThr t { th with st := .waitEng, wait := some (.engine op ra rb) })
    match s.engineFault t th.a op ra rb with
    | some (c, v) => .fault s c v
    | none =>
      if x.ecc = .data && op != .bowgo then .fault (s.noteThreadEcc t (th.a.getG rb)) 0x08 (th.a.getG rb)
      else if qFull || !s.engSlot t then wait
      else match s.engineGo t th.a op ra rb with
        | some s => .done s
        | none => wait

def execLkp (x : Issue) (ra rb : RegIx) (qFull : Bool) (s : State) : Out :=
  peosh x (encR x 0x2A 0 ra rb 0) 4 .p (engineBody x .lkp ra rb qFull) s
def execCsub (x : Issue) (ra rb : RegIx) (qFull : Bool) (s : State) : Out :=
  peosh x (encR x 0x2A 0 ra rb 1) 4 .p (engineBody x .csub ra rb qFull) s
def execBowgo (x : Issue) (ra : RegIx) (qFull : Bool) (s : State) : Out :=
  peosh x (encR x 0x2A 0 ra 0 2) 4 .p (engineBody x .bowgo ra 0 qFull) s

/-- ENGINE_ACCEPT (R42, R63, Table 03-1): the unit accepts the request a thread waits with, once a slot is free. -/
def execEngineAccept (t : Fin 1536) (s : State) : Out :=
  let th := s.thr t
  match th.st, th.wait with
  | .waitEng, some (.engine op ra rb) =>
    if !s.engSlot t then .next s
    else match s.engineGo t th.a op ra rb with
      | none => .next s
      | some u =>
        let th := u.thr t
        .next (u.setThr t { th with st := .ready, wait := none, a := th.a.retireAt (th.a.pc + 4) })
  | _, _ => .next s

end Sys2Proof.Machine
end

