-- ==== Sys2Proof/Machine/PeoshInt.lean ====
section
/-! DEFINITION. The integer, field, compare and predicate instructions (Table 02-8), control flow and long forms (Table 02-10). -/

namespace Sys2Proof.Machine

/-- A register-register instruction of the integer group. -/
def intRR (x : Issue) (rd ra rb : RegIx) (fn : Nat) (f : Word → Word → Word) (s : State) : Out :=
  peosh x (encR x 0x01 rd ra rb fn) 4 .both (toG x rd fun r => f (r.getG ra) (r.getG rb)) s

/-- A one-operand instruction of the integer group; RB is zero. -/
def intR (x : Issue) (rd ra : RegIx) (fn : Nat) (f : Word → Word) (s : State) : Out :=
  peosh x (encR x 0x01 rd ra 0 fn) 4 .both (toG x rd fun r => f (r.getG ra)) s

/-- An immediate instruction. -/
def intI (x : Issue) (opc : Nat) (rd ra : RegIx) (imm : BitVec 12) (f : Word → Word → Word) (s : State) : Out :=
  peosh x (encI x opc rd ra imm) 4 .both (toG x rd fun r => f (r.getG ra) (sext imm)) s

/-- A shift-immediate instruction. -/
def intS (x : Issue) (rd ra : RegIx) (fn : Nat) (sh : Fin 64) (f : Word → Nat → Word) (s : State) : Out :=
  peosh x (encS x 0x06 rd ra fn sh) 4 .both (toG x rd fun r => f (r.getG ra) sh.val) s

/-- A field instruction; `f` takes gd and ga. -/
def intF (x : Issue) (opc : Nat) (rd ra : RegIx) (pos lenm1 : Fin 64) (f : Word → Word → Nat → Nat → Word) (s : State) : Out :=
  peosh x (encF x opc rd ra pos lenm1) 4 .both (toG x rd fun r => f (r.getG rd) (r.getG ra) pos.val (lenm1.val + 1)) s

/-- Predicate logic: (pa xor NA) op (pb xor NB). -/
def predOp (x : Issue) (pd pa pb : PredIx) (na nb : Bool) (fn : Nat) (f : Bool → Bool → Bool) (s : State) : Out :=
  peosh x (encPL x pd pa pb na nb fn) 4 .both (toP x pd fun r => f (r.getP pa != na) (r.getP pb != nb)) s

/-- add (R30). -/
def execAdd (x : Issue) (rd ra rb : RegIx) (s : State) : Out := intRR x rd ra rb 0x00 (fun a b => a + b) s
/-- sub (R30). -/
def execSub (x : Issue) (rd ra rb : RegIx) (s : State) : Out := intRR x rd ra rb 0x01 (fun a b => a - b) s
/-- and (R30). -/
def execAnd (x : Issue) (rd ra rb : RegIx) (s : State) : Out := intRR x rd ra rb 0x02 (fun a b => a &&& b) s
/-- or (R30). -/
def execOr (x : Issue) (rd ra rb : RegIx) (s : State) : Out := intRR x rd ra rb 0x03 (fun a b => a ||| b) s
/-- xor (R30). -/
def execXor (x : Issue) (rd ra rb : RegIx) (s : State) : Out := intRR x rd ra rb 0x04 (fun a b => a ^^^ b) s
/-- andn (R30). -/
def execAndn (x : Issue) (rd ra rb : RegIx) (s : State) : Out := intRR x rd ra rb 0x05 (fun a b => a &&& ~~~b) s
/-- sll (R30). -/
def execSll (x : Issue) (rd ra rb : RegIx) (s : State) : Out := intRR x rd ra rb 0x06 (fun a b => a <<< (b.toNat % 64)) s
/-- srl (R30). -/
def execSrl (x : Issue) (rd ra rb : RegIx) (s : State) : Out := intRR x rd ra rb 0x07 (fun a b => a >>> (b.toNat % 64)) s
/-- sra (R30). -/
def execSra (x : Issue) (rd ra rb : RegIx) (s : State) : Out := intRR x rd ra rb 0x08 (fun a b => a.sshiftRight (b.toNat % 64)) s
/-- rotr (R30). -/
def execRotr (x : Issue) (rd ra rb : RegIx) (s : State) : Out := intRR x rd ra rb 0x09 (fun a b => rotr a (b.toNat % 64)) s
/-- min (R30). -/
def execMin (x : Issue) (rd ra rb : RegIx) (s : State) : Out := intRR x rd ra rb 0x0A (fun a b => minS a b) s
/-- max (R30). -/
def execMax (x : Issue) (rd ra rb : RegIx) (s : State) : Out := intRR x rd ra rb 0x0B (fun a b => maxS a b) s
/-- minu (R30). -/
def execMinu (x : Issue) (rd ra rb : RegIx) (s : State) : Out := intRR x rd ra rb 0x0C (fun a b => minU a b) s
/-- maxu (R30). -/
def execMaxu (x : Issue) (rd ra rb : RegIx) (s : State) : Out := intRR x rd ra rb 0x0D (fun a b => maxU a b) s
/-- mul (R30). -/
def execMul (x : Issue) (rd ra rb : RegIx) (s : State) : Out := intRR x rd ra rb 0x10 (fun a b => a * b) s
/-- mulh (R30). -/
def execMulh (x : Issue) (rd ra rb : RegIx) (s : State) : Out := intRR x rd ra rb 0x11 (fun a b => mulhS a b) s
/-- mulhu (R30). -/
def execMulhu (x : Issue) (rd ra rb : RegIx) (s : State) : Out := intRR x rd ra rb 0x12 (fun a b => mulhU a b) s
/-- div (R30). -/
def execDiv (x : Issue) (rd ra rb : RegIx) (s : State) : Out := intRR x rd ra rb 0x14 (fun a b => divS a b) s
/-- divu (R30). -/
def execDivu (x : Issue) (rd ra rb : RegIx) (s : State) : Out := intRR x rd ra rb 0x15 (fun a b => divU a b) s
/-- rem (R30). -/
def execRem (x : Issue) (rd ra rb : RegIx) (s : State) : Out := intRR x rd ra rb 0x16 (fun a b => remS a b) s
/-- remu (R30). -/
def execRemu (x : Issue) (rd ra rb : RegIx) (s : State) : Out := intRR x rd ra rb 0x17 (fun a b => remU a b) s
/-- clz (R30). -/
def execClz (x : Issue) (rd ra : RegIx) (s : State) : Out := intR x rd ra 0x20 (fun a => BitVec.ofNat 64 (clzN a)) s
/-- ctz (R30). -/
def execCtz (x : Issue) (rd ra : RegIx) (s : State) : Out := intR x rd ra 0x21 (fun a => BitVec.ofNat 64 (ctzN a)) s
/-- popc (R30). -/
def execPopc (x : Issue) (rd ra : RegIx) (s : State) : Out := intR x rd ra 0x22 (fun a => BitVec.ofNat 64 (popcN a)) s
/-- bswap8 (R30). -/
def execBswap8 (x : Issue) (rd ra : RegIx) (s : State) : Out := intR x rd ra 0x23 (fun a => bswapN 8 a) s
/-- bswap4 (R30). -/
def execBswap4 (x : Issue) (rd ra : RegIx) (s : State) : Out := intR x rd ra 0x24 (fun a => bswapN 4 a) s
/-- bswap2 (R30). -/
def execBswap2 (x : Issue) (rd ra : RegIx) (s : State) : Out := intR x rd ra 0x25 (fun a => bswapN 2 a) s
/-- addi (R30). -/
def execAddi (x : Issue) (rd ra : RegIx) (imm : BitVec 12) (s : State) : Out := intI x 0x02 rd ra imm (fun a b => a + b) s
/-- andi (R30). -/
def execAndi (x : Issue) (rd ra : RegIx) (imm : BitVec 12) (s : State) : Out := intI x 0x03 rd ra imm (fun a b => a &&& b) s
/-- ori (R30). -/
def execOri (x : Issue) (rd ra : RegIx) (imm : BitVec 12) (s : State) : Out := intI x 0x04 rd ra imm (fun a b => a ||| b) s
/-- xori (R30). -/
def execXori (x : Issue) (rd ra : RegIx) (imm : BitVec 12) (s : State) : Out := intI x 0x05 rd ra imm (fun a b => a ^^^ b) s
/-- slli (R30). -/
def execSlli (x : Issue) (rd ra : RegIx) (sh : Fin 64) (s : State) : Out := intS x rd ra 0 sh (fun a n => a <<< n) s
/-- srli (R30). -/
def execSrli (x : Issue) (rd ra : RegIx) (sh : Fin 64) (s : State) : Out := intS x rd ra 1 sh (fun a n => a >>> n) s
/-- srai (R30). -/
def execSrai (x : Issue) (rd ra : RegIx) (sh : Fin 64) (s : State) : Out := intS x rd ra 2 sh (fun a n => a.sshiftRight n) s
/-- rotri (R30). -/
def execRotri (x : Issue) (rd ra : RegIx) (sh : Fin 64) (s : State) : Out := intS x rd ra 3 sh (fun a n => rotr a n) s
/-- ext (R30). -/
def execExt (x : Issue) (rd ra : RegIx) (pos lenm1 : Fin 64) (s : State) : Out :=
  intF x 0x07 rd ra pos lenm1 (fun _ a pos len => extField a pos len) s
/-- exts (R30). -/
def execExts (x : Issue) (rd ra : RegIx) (pos lenm1 : Fin 64) (s : State) : Out :=
  intF x 0x08 rd ra pos lenm1 (fun _ a pos len => extsField a pos len) s
/-- ins (R30). -/
def execIns (x : Issue) (rd ra : RegIx) (pos lenm1 : Fin 64) (s : State) : Out :=
  intF x 0x09 rd ra pos lenm1 (insField) s
/-- cmp (R30). -/
def execCmp (x : Issue) (cc : Cond) (pd : PredIx) (ra rb : RegIx) (s : State) : Out :=
  peosh x (encCR x pd ra rb cc) 4 .both (toP x pd fun r => condEval cc (r.getG ra) (r.getG rb)) s
/-- cmpi (R30). -/
def execCmpi (x : Issue) (cc : Cond) (pd : PredIx) (ra : RegIx) (imm : BitVec 11) (s : State) : Out :=
  peosh x (encCI x pd cc ra imm) 4 .both (toP x pd fun r => condEval cc (r.getG ra) (sext imm)) s
/-- pand (R30). -/
def execPand (x : Issue) (pd pa pb : PredIx) (na nb : Bool) (s : State) : Out :=
  predOp x pd pa pb na nb 0 (fun a b => a && b) s
/-- por (R30). -/
def execPor (x : Issue) (pd pa pb : PredIx) (na nb : Bool) (s : State) : Out :=
  predOp x pd pa pb na nb 1 (fun a b => a || b) s
/-- pxor (R30). -/
def execPxor (x : Issue) (pd pa pb : PredIx) (na nb : Bool) (s : State) : Out :=
  predOp x pd pa pb na nb 2 (fun a b => a != b) s

/-! ### Control flow and long forms -/

/-- br (R30): pc := pc + 4 × DISP22. -/
def execBr (x : Issue) (disp : BitVec 22) (s : State) : Out :=
  peosh x (encB x disp) 4 .both (fun s => .jump s ((s.arch x.who).pc + 4 * sext disp)) s

/-- jal (R30): gd := pc + 4; pc := pc + 4 × DISP17. -/
def execJal (x : Issue) (rd : RegIx) (disp : BitVec 17) (s : State) : Out :=
  peosh x (encJ x rd disp) 4 .both (fun s =>
    let a := s.arch x.who
    .jump (s.setArch x.who (a.setG rd (a.pc + 4))) (a.pc + 4 * sext disp)) s

/-- jalr (R30): t := ga + sext(imm12); gd := pc + 4; pc := t. ALIGN if t[1:0] ≠ 0. -/
def execJalr (x : Issue) (rd ra : RegIx) (imm : BitVec 12) (s : State) : Out :=
  peosh x (encI x 0x22 rd ra imm) 4 .both (fun s =>
    let a := s.arch x.who
    let t := a.getG ra + sext imm
    if t.toNat % 4 ≠ 0 then .fault s 0x03 t
    else .jump (s.setArch x.who (a.setG rd (a.pc + 4))) t) s

/-- jal.l (R30): gd := pc + 8; pc := sext(target48). ALIGN if target[1:0] ≠ 0. -/
def execJalL (x : Issue) (rd : RegIx) (target : BitVec 48) (s : State) : Out :=
  peosh x (encL x 0x3D rd 0 target) 8 .both (fun s =>
    let a := s.arch x.who
    let t := sext target
    if t.toNat % 4 ≠ 0 then .fault s 0x03 t
    else .jump (s.setArch x.who (a.setG rd (a.pc + 8))) t) s

/-- li.l (R30): gd := sext(imm48). -/
def execLiL (x : Issue) (rd : RegIx) (imm : BitVec 48) (s : State) : Out :=
  peosh x (encL x 0x3C rd 0 imm) 8 .both (toG x rd fun _ => sext imm) s

/-- addi.l (R30): gd := gd + sext(imm48). -/
def execAddiL (x : Issue) (rd : RegIx) (imm : BitVec 48) (s : State) : Out :=
  peosh x (encL x 0x3C rd 1 imm) 8 .both (toG x rd fun r => r.getG rd + sext imm) s

end Sys2Proof.Machine
end

