-- ==== Sys2Proof/Machine/PeoshMem.lean ====
section
/-! DEFINITION. The memory and atomic instructions (Table 02-9, R25, R31, R48, R394 to R397, R205). -/

namespace Sys2Proof.Machine

/-- The little-endian word in some bytes. -/
def wordLE (bs : List Byte) : Word := BitVec.ofNat 64 (leNat bs)
/-- The low `n` bytes of a word. -/
def lowBytes (n : Nat) (v : Word) : List Byte := (wordBytesLE v).take n
/-- The low `n` bytes of a word, sign-extended or zero-extended. -/
def extendTo (n : Nat) (signed : Bool) (v : Word) : Word := if signed then extsField v 0 (8 * n) else extField v 0 (8 * n)

/-- What a load comes to: a value, a fault, or a wait for a free read tag. -/
inductive Loaded where
  | value (w : Word) (s : State) | fault (cause : Nat) (s : State) | wait

/-! ### Packet threads -/

/-- The check of a thread's data access: ALIGN, then ACCESS (R25, R31). -/
def threadFault (a n : Nat) : Option Nat :=
  if a % n ≠ 0 then some 0x03 else if !(inScratch a n || inShared a n) then some 0x04 else none

/-! ### Control cores -/

/-- The requester identity of a control core (R168). -/
def coreReq (k : Nat) : Nat := 0xE000 + k

/-- A control core's access resolved: its DPA, or the fault it raises (R31, R48, R393, R394). -/
def State.coreAddr (s : State) (k : Nat) (va : Word) (n : Nat) (kind : AccKind) : Except Nat Nat × State :=
  if va.toNat % n ≠ 0 then (.error 0x03, s)
  else
    let (x, s) := s.translate k va kind
    match x with
    | .fail cause => (.error cause, s)
    | .ok pa dev =>
      let r := s.region pa
      if r = .unmapped then (.error 0x04, s.bump Fld.MEMC_UNMAPPED_COUNT)
      else if !mtypeOk r dev then (.error 0x04, s)
      else (.ok pa, s)

/-- The host address of a host window's DPA (R397). -/
def State.windowAddr (s : State) (i pa : Nat) : Nat := s.fget Fld.MEM_HOST_WIN_BASE i * 2 ^ 32 + pa % 2 ^ 32

/-- A core's load from a host window: refused at the Hatband it fails; behind the waiting writes of its function, or without an entry and
a tag, it waits; otherwise the host answers it as it answers any read (R213, R216, R217, R219 to R221, R274, R397, Table 09-7). -/
def State.windowLoad (s : State) (i pa n : Nat) (ext : ExtAnswer) : Loaded :=
  let h := s.windowAddr i pa
  if s.hatband i h n false none = .refused then .fault 0x08 (s.hbRefuse i h)
  else if s.writesOf i ≠ [] then .wait
  else match s.takeEntry i s.hreadCount 0 none none n with
    | none => .wait
    | some (tag, s) =>
      let s := { s with hreadCount := s.hreadCount + 1 }.emit (.hostRead i tag h n)
      match ext with
      | .data w => .value w (s.cpl i tag false (.data (lowBytes n w))).1
      | .fail => .fault 0x08 (s.cpl i tag false .ur).1
      | .poisoned => .fault 0x08 (s.cpl i tag true (.data (lowBytes n 0))).1
      | .timeout => .fault 0x08 (s.cplTimeout i tag).1

/-- A core's load from a peer window (R203, R205): a READ, which the peer answers, unless its slot is disabled, which fails it at once, or
it is dropped here. A READ that times out leaves its tag dead. A slot that names this adapter is served by its own window. -/
def State.peerLoad (s : State) (k w pa n : Nat) (ext : ExtAnswer) : Loaded :=
  if s.slotOff w then .fault 0x08 s
  else if s.fget Fld.CUE_OUT_DEST w = s.devId then
    match s.winRead (s.slotFrame w 2 (pa % 2 ^ 38) n 0 []) with
    | (.ok bs, s) => .value (wordLE bs) s
    | (.error _, s) => .fault 0x08 s
  else if 4096 ≤ s.readsOut then .wait
  else
    let (t, s) := s.cueTag
    let mine (r : CueRead) : Bool := r.tag == t && r.ch == 1024 + k
    let s := { s with cueReads := s.cueReads ++ [(⟨t, 1024 + k, 0, .waiting⟩ : CueRead)] }
    let u := (s.cueForward none false s.ns (s.slotFrame w 2 (pa % 2 ^ 38) n t []) none).cueKick
    let lost := u.cueReads.any fun r => mine r && r.st == .failed
    let done := { u with cueReads := u.cueReads.filter fun r => !mine r }
    match lost, ext with
    | false, .data w => .value w done
    | false, .timeout => .fault 0x08 { u with cueReads := u.cueReads.map fun r => if mine r then { r with st := .dead } else r }
    | _, _ => .fault 0x08 done

/-- A control core's load at a DPA. -/
def State.coreLoad (s : State) (k pa n : Nat) (ext : ExtAnswer) : Loaded :=
  match s.region pa with
  | .host i => s.windowLoad i pa n ext
  | .peer w => s.peerLoad k w pa n ext
  | .table | .ext _ | .regs | .tm | .aliases => match s.extPoison pa n with
    | some d => .fault 0x08 (s.noteUncorr d)
    | none => let (v, s) := s.devRead (coreReq k) pa n; .value v s
  | _ => match s.memLoad pa n with
    | some bs => .value (wordLE bs) s
    | none => .fault 0x08 (s.noteUncorr pa)

/-- A control core's store at a DPA: posted to a host window, a WRITE to a peer, which a disabled slot fails (R205, R397). -/
def State.coreStore (s : State) (k pa n : Nat) (v : Word) : Option State :=
  match s.region pa with
  | .host i => some (s.hostWrite i (s.gen i) (s.windowAddr i pa) (lowBytes n v) false false false .none).1
  | .peer w => s.cueRequest w 1 (pa % 2 ^ 38) n 0 (lowBytes n v)
  | .table | .ext _ | .regs | .tm | .aliases => some (s.devWrite (coreReq k) pa n v)
  | _ => some (s.memStore pa (lowBytes n v))

/-! ### Loads and stores -/

/-- An uncorrectable word of an on-chip memory raises BUS with the address (R30, Table 19-9). -/
def eccFault (x : Issue) (s : State) (va : Word) : Eff :=
  match x.who with
  | .thread t => .fault (s.noteThreadEcc t va) 0x08 va
  | .core _ => .fault (s.noteCoreEcc va) 0x08 va

/-- gd := an extended load of `n` bytes at ga + sext(off12). -/
def loadBody (x : Issue) (n : Nat) (signed : Bool) (rd ra : RegIx) (off : BitVec 12) (ext : ExtAnswer) (s : State) : Eff :=
  let va := (s.arch x.who).getG ra + sext off
  let put (s : State) (v : Word) : Eff := .done (s.setArch x.who ((s.arch x.who).setG rd (extendTo n signed v)))
  match x.who with
  | .thread t =>
    match threadFault va.toNat n with
    | some c => .fault s c va
    | none => if x.ecc = .data then eccFault x s va else put s (wordLE (s.pRead t va.toNat n))
  | .core k =>
    match s.coreAddr k va n .load with
    | (.error c, s) => .fault s c va
    | (.ok pa, s) =>
      if x.ecc = .data && (s.region pa).normal then eccFault x s va
      else match s.coreLoad k pa n ext with
      | .value v s => put s v
      | .fault c s => .fault s c va
      | .wait => .stay s

/-- mem_n(ga + off) := gs[8n−1:0]. -/
def storeBody (x : Issue) (n : Nat) (rs ra : RegIx) (off : BitVec 12) (s : State) : Eff :=
  let va := (s.arch x.who).getG ra + sext off
  let v := (s.arch x.who).getG rs
  match x.who with
  | .thread t =>
    match threadFault va.toNat n with
    | some c => .fault s c va
    | none => .done (s.pWrite t va.toNat (lowBytes n v))
  | .core k =>
    match s.coreAddr k va n .store with
    | (.error c, s) => .fault s c va
    | (.ok pa, s) =>
      match s.coreStore k pa n v with
      | some s => .done s
      | none => .fault s 0x08 va

def execLdB (x : Issue) (rd ra : RegIx) (off : BitVec 12) (ext : ExtAnswer) (s : State) : Out :=
  peosh x (encI x 0x10 rd ra off) 4 .both (loadBody x 1 true rd ra off ext) s
def execLdBu (x : Issue) (rd ra : RegIx) (off : BitVec 12) (ext : ExtAnswer) (s : State) : Out :=
  peosh x (encI x 0x11 rd ra off) 4 .both (loadBody x 1 false rd ra off ext) s
def execLdH (x : Issue) (rd ra : RegIx) (off : BitVec 12) (ext : ExtAnswer) (s : State) : Out :=
  peosh x (encI x 0x12 rd ra off) 4 .both (loadBody x 2 true rd ra off ext) s
def execLdHu (x : Issue) (rd ra : RegIx) (off : BitVec 12) (ext : ExtAnswer) (s : State) : Out :=
  peosh x (encI x 0x13 rd ra off) 4 .both (loadBody x 2 false rd ra off ext) s
def execLdW (x : Issue) (rd ra : RegIx) (off : BitVec 12) (ext : ExtAnswer) (s : State) : Out :=
  peosh x (encI x 0x14 rd ra off) 4 .both (loadBody x 4 true rd ra off ext) s
def execLdWu (x : Issue) (rd ra : RegIx) (off : BitVec 12) (ext : ExtAnswer) (s : State) : Out :=
  peosh x (encI x 0x15 rd ra off) 4 .both (loadBody x 4 false rd ra off ext) s
def execLdD (x : Issue) (rd ra : RegIx) (off : BitVec 12) (ext : ExtAnswer) (s : State) : Out :=
  peosh x (encI x 0x16 rd ra off) 4 .both (loadBody x 8 false rd ra off ext) s

def execStB (x : Issue) (rs ra : RegIx) (off : BitVec 12) (s : State) : Out :=
  peosh x (encI x 0x18 rs ra off) 4 .both (storeBody x 1 rs ra off) s
def execStH (x : Issue) (rs ra : RegIx) (off : BitVec 12) (s : State) : Out :=
  peosh x (encI x 0x19 rs ra off) 4 .both (storeBody x 2 rs ra off) s
def execStW (x : Issue) (rs ra : RegIx) (off : BitVec 12) (s : State) : Out :=
  peosh x (encI x 0x1A rs ra off) 4 .both (storeBody x 4 rs ra off) s
def execStD (x : Issue) (rs ra : RegIx) (off : BitVec 12) (s : State) : Out :=
  peosh x (encI x 0x1B rs ra off) 4 .both (storeBody x 8 rs ra off) s

/-! ### Atomics -/

/-- An indivisible update of `n` bytes at ga: `f` of the old value gives what is stored, if anything; gd := zext(old). In Peosh-P the bytes
must lie in shared memory, in Peosh-S in normal memory. -/
def atomicBody (x : Issue) (n : Nat) (rd ra : RegIx) (f : Word → Option Word) (s : State) : Eff :=
  let va := (s.arch x.who).getG ra
  let put (s : State) (old : Word) : Eff := .done (s.setArch x.who ((s.arch x.who).setG rd old))
  match x.who with
  | .thread t =>
    let a := va.toNat
    if a % n ≠ 0 then .fault s 0x03 va
    else if !inShared a n then .fault s 0x04 va
    else if x.ecc = .data then eccFault x s va
    else
      let old := wordLE (s.pRead t a n)
      match f old with
      | some v => put (s.pWrite t a (lowBytes n v)) old
      | none => put s old
  | .core k =>
    match s.coreAddr k va n .store with
    | (.error c, s) => .fault s c va
    | (.ok pa, s) =>
      if !(s.region pa).normal then .fault s 0x04 va
      else if x.ecc = .data then eccFault x s va
      else match s.memLoad pa n with
        | none => .fault (s.noteUncorr pa) 0x08 va
        | some bs =>
          match f (wordLE bs) with
          | some v => put (s.memStore pa (lowBytes n v)) (wordLE bs)
          | none => put s (wordLE bs)

/-- aadd.w and aadd.d. -/
def execAaddW (x : Issue) (rd ra rb : RegIx) (s : State) : Out :=
  peosh x (encR x 0x1C rd ra rb 0) 4 .both (fun s => atomicBody x 4 rd ra (fun old => some (old + (s.arch x.who).getG rb)) s) s
def execAaddD (x : Issue) (rd ra rb : RegIx) (s : State) : Out :=
  peosh x (encR x 0x1C rd ra rb 1) 4 .both (fun s => atomicBody x 8 rd ra (fun old => some (old + (s.arch x.who).getG rb)) s) s
/-- cas.d (Peosh-S): compares with gd. -/
def execCasD (x : Issue) (rd ra rb : RegIx) (s : State) : Out :=
  peosh x (encR x 0x1C rd ra rb 2) 4 .s (fun s => atomicBody x 8 rd ra (fun old =>
    if old = (s.arch x.who).getG rd then some ((s.arch x.who).getG rb) else none) s) s

end Sys2Proof.Machine
end

