-- ==== Sys2Proof/Machine/PeoshSys.lean ====
section
/-! DEFINITION. System registers, the return from a trap, idle, interrupts of control cores, tlbinv, and words that no instruction has (R29,
R45 to R47, R49, Tables 02-12 to 02-14). -/

namespace Sys2Proof.Machine

/-! ### System registers (R47) -/

/-- The clock cycles of an issuer's domain since its reset: 2.0 GHz for threads, 2.4 GHz for cores (Tables 02-1 and 02-12). The clocks of a
domain below depth 0 are stopped (Table 16-2). -/
def State.cycles (s : State) (w : Who) : Nat :=
  match w with
  | .thread t => 2 * s.clkNs (6 + t.val / 192)
  | .core k => 12 * s.clkNs (14 + k.val / 2) / 5

/-- A trap register of a level by its offset from x_VBASE: VBASE, TRPC, TRPS, TRCAUSE, TRINFO, SCRATCH. -/
def TrapRegs.read (r : TrapRegs) : Nat → Option Word
  | 0 => some r.vbase
  | 1 => some r.trpc
  | 2 => some (fieldAt (b2n r.trpsIe) 2 ||| fieldAt r.trpsPriv.code 0)
  | 3 => some r.cause
  | 4 => some r.info
  | 5 => some r.scratch
  | _ => none

/-- A system register of a control core; none where the number names none. -/
def State.coreSr (s : State) (k : Nat) (sr : Nat) : Option Word :=
  let c := s.core k
  if 0x420 ≤ sr ∧ sr < 0x426 then c.trapS.read (sr - 0x420)
  else if 0x820 ≤ sr ∧ sr < 0x826 then c.trapM.read (sr - 0x820)
  else match sr with
    | 0x200 => some (BitVec.ofNat 64 (s.cycles (.core (Fin.ofNat 16 k))))
    | 0x201 => some c.a.retired
    | 0x202 => some (BitVec.ofNat 64 s.time)
    | 0x210 => some (BitVec.ofNat 64 k)
    | 0x400 => some (fieldAt (b2n (s.intPending k)) 4 ||| fieldAt (b2n c.uacc) 3 ||| fieldAt (b2n c.ie) 2 ||| fieldAt c.priv.code 0)
    | 0x410 => some (fieldAt (b2n c.mmuEn) 63 ||| fieldAt c.asid.toNat 36 ||| fieldAt c.root.toNat 0)
    | 0x830 => some c.route
    | _ => none

/-- A system register of a thread: those of profile P or Both. -/
def State.threadSr (s : State) (t : Nat) (sr : Nat) : Option Word :=
  let th := s.thr t
  match sr with
  | 0x200 => some (BitVec.ofNat 64 (s.cycles (.thread (Fin.ofNat 1536 t))))
  | 0x201 => some th.a.retired
  | 0x210 => some (BitVec.ofNat 64 t)
  | 0x211 => some (fieldAt (b2n th.image) 8 ||| fieldAt th.epoch.toNat 0)
  | _ => none

/-- The causes that S_ROUTE can route: up to 0x28, without 0x0C. -/
def routeMask : Word := fieldAt (2 ^ 41 - 1 - 2 ^ 12) 0

/-- PRIV of x_TRPS as a write leaves it: 3 stores U, and S_TRPS stores S for 2 (R45). -/
def trpsPrivOf (m : Bool) (v : Nat) : Priv :=
  match v with | 1 => .s | 2 => if m then .m else .s | _ => .u

/-- A trap register written. -/
def TrapRegs.write (r : TrapRegs) (m : Bool) (v : Word) : Nat → TrapRegs
  | 0 => { r with vbase := v &&& ~~~(fieldAt 0x3F 0) }
  | 1 => { r with trpc := v }
  | 2 => { r with trpsIe := bit v 2, trpsPriv := trpsPrivOf m (bits v 1 0) }
  | 3 => { r with cause := v }
  | 4 => { r with info := v }
  | 5 => { r with scratch := v }
  | _ => r

/-- A system register of a control core written. IE of PS changes from M only (Table 02-13). -/
def Core.srWrite (c : Core) (sr : Nat) (v : Word) : Core :=
  if 0x420 ≤ sr ∧ sr < 0x426 then { c with trapS := c.trapS.write false v (sr - 0x420) }
  else if 0x820 ≤ sr ∧ sr < 0x826 then { c with trapM := c.trapM.write true v (sr - 0x820) }
  else match sr with
    | 0x400 => { c with uacc := bit v 3, ie := if c.priv = .m then bit v 2 else c.ie }
    | 0x410 => { c with mmuEn := bit v 63, asid := v.extractLsb' 36 16, root := v.extractLsb' 0 36 }
    | 0x830 => { c with route := v &&& routeMask }
    | _ => c

/-- The three kinds of system-register access that write: replace, set and clear. -/
inductive SrOp where
  | read | put | set | clear
  deriving DecidableEq, Repr

def SrOp.apply (o : SrOp) (old v : Word) : Word :=
  match o with | .read => old | .put => v | .set => old ||| v | .clear => old &&& ~~~v

/-- An access to a system register: gd takes the old value, unless the access only writes; `writes` tells whether it makes a write. An
unlisted number and a write to a read-only register raise ILLEGAL, an access from below the register's level PRIV (R47). -/
def sysBody (x : Issue) (insn : Word) (o : SrOp) (writes : Bool) (rd ra : RegIx) (sr : BitVec 12) (s : State) : Eff :=
  let n := sr.toNat
  let v := (s.arch x.who).getG ra
  match x.who with
  | .thread t =>
    match s.threadSr t n with
    | none => .fault s 0x01 insn
    | some old =>
      if writes then .fault s 0x01 insn
      else .done (s.setArch x.who ((s.arch x.who).setG rd old))
  | .core k =>
    match s.coreSr k n with
    | none => .fault s 0x01 insn
    | some old =>
      if writes && sr.getLsbD 9 then .fault s 0x01 insn
      else if (s.core k).priv.code < n / 1024 then .fault s 0x02 insn
      else
        let c := if writes then (s.core k).srWrite n (o.apply old v) else s.core k
        let s := s.setCore k c
        .done (match o with | .put => s | _ => s.setArch x.who ((s.arch x.who).setG rd old))

def execSysrd (x : Issue) (rd : RegIx) (sr : BitVec 12) (s : State) : Out :=
  let w := encC x 0x30 rd 0 sr
  peosh x w 4 .both (sysBody x w .read false rd 0 sr) s
def execSyswr (x : Issue) (ra : RegIx) (sr : BitVec 12) (s : State) : Out :=
  let w := encC x 0x31 0 ra sr
  peosh x w 4 .both (sysBody x w .put true 0 ra sr) s
/-- sysset and sysclr: with RA = g0 they make no write. -/
def execSysset (x : Issue) (rd ra : RegIx) (sr : BitVec 12) (s : State) : Out :=
  let w := encC x 0x32 rd ra sr
  peosh x w 4 .both (sysBody x w .set (ra != 0) rd ra sr) s
def execSysclr (x : Issue) (rd ra : RegIx) (sr : BitVec 12) (s : State) : Out :=
  let w := encC x 0x34 rd ra sr
  peosh x w 4 .both (sysBody x w .clear (ra != 0) rd ra sr) s

/-! ### Privileged instructions -/

/-- An instruction of control cores that U may not run. -/
def privBody (x : Issue) (insn : Word) (f : Nat → Core → State → Eff) (s : State) : Eff :=
  match x.who with
  | .thread _ => .stay s
  | .core k => if (s.core k).priv = .u then .fault s 0x02 insn else f k (s.core k) s

/-- rfe (R45): the return from a trap, at the level at which it runs. -/
def execRfe (x : Issue) (s : State) : Out :=
  let w := encX x 0x33 0 0 0
  peosh x w 4 .s (privBody x w fun k c s => .stay (s.setCore k c.returnFrom)) s

/-- idle (R46): waits until an interrupt is pending for the core. -/
def execIdle (x : Issue) (s : State) : Out :=
  let w := encX x 0x33 0 0 1
  peosh x w 4 .s (privBody x w fun k c s => if s.intPending k then .done s else .stay (s.setCore k { c with idling := true })) s

/-- tlbinv (R49). -/
def execTlbinv (x : Issue) (ra rb : RegIx) (s : State) : Out :=
  let w := encX x 0x33 ra rb 2
  peosh x w 4 .s (privBody x w fun k c s =>
    let va := if ra = 0 then none else some (c.a.getG ra).toNat
    let asid := if rb = 0 then none else some ((c.a.getG rb).extractLsb' 0 16)
    .done (s.setCore k (c.invalidate va asid))) s

/-! ### Interrupts of a control core (R46) -/

/-- A core that waits in idle has executed it. -/
def Core.endIdle (c : Core) : Core := if c.idling then { c with idling := false, a := c.a.retireAt (c.a.pc + 4) } else c

/-- EXT_INT_TAKEN (R46): with an interrupt pending and PS.IE = 1, between instructions. -/
def execExtIntTaken (k : Fin 16) (s : State) : Out :=
  let c := s.core k
  .next (if c.running && c.ie && s.intPending k then s.setCore k c.endIdle.takeInterrupt else s)

/-- IDLE_WAKE (R46): an interrupt is pending, whatever PS.IE. -/
def execIdleWake (k : Fin 16) (s : State) : Out :=
  let c := s.core k
  .next (if c.running && c.idling && s.intPending k then s.setCore k c.endIdle else s)

/-! ### Words that no instruction has (R26, R29) -/

/-- ILLEGAL_ENCODING: opcodes 0x00 and 0x3F raise ILLEGAL whatever the predicate; any other such word only when its predicate is true, and is
skipped otherwise, as two words where its opcode begins a long form. -/
def execIllegalEncoding (x : Issue) (word : BitVec 32) (s : State) : Out :=
  let x : Issue := { x with pn := word.getLsbD 31, pred := Fin.ofNat 8 (word.toNat / 2 ^ 28 % 8) }
  let opc := word.toNat / 2 ^ 22 % 64
  let long := opc = 0x3C ∨ opc = 0x3D
  let word1 := match x.who with
    | .thread t => if long ∧ (s.thr t).a.pc.toNat + 8 ≤ threadImageBytes then s.programWord t ((s.thr t).a.pc.toNat + 4) else 0
    | .core _ => 0
  let insn := BitVec.ofNat 64 (word.toNat + word1 <<< 32)
  let w0 : Word := word.setWidth 64
  if opc = 0 ∨ opc = 0x3F then
    if !s.canIssue x.who then .next s
    else match s.fetchWord x 0 with
      | (some (cause, value), t) => .next (t.raise x.who cause 0 value)
      | (none, t) => .next (t.raise x.who 0x01 insn w0)
  else peosh x insn (if long then 8 else 4) .none .stay s

end Sys2Proof.Machine
end

