-- ==== Sys2Proof/Machine/Dispatch.lean ====
section
/-! DEFINITION. The dispatch: one arm per command, in the table's order, each one call of the command's meaning. -/

namespace Sys2Proof.Machine

/-- The effect of a command on everything but the queue. -/
def exec (i : Instr) (s : State) : Host.Outcome State Fault Refusal :=
  match i with
  | .registerWrite req addr size value => Sys2Proof.Machine.execRegisterWrite req addr size value s
  | .add x rd ra rb => Sys2Proof.Machine.execAdd x rd ra rb s
  | .sub x rd ra rb => Sys2Proof.Machine.execSub x rd ra rb s
  | .and x rd ra rb => Sys2Proof.Machine.execAnd x rd ra rb s
  | .or x rd ra rb => Sys2Proof.Machine.execOr x rd ra rb s
  | .xor x rd ra rb => Sys2Proof.Machine.execXor x rd ra rb s
  | .andn x rd ra rb => Sys2Proof.Machine.execAndn x rd ra rb s
  | .sll x rd ra rb => Sys2Proof.Machine.execSll x rd ra rb s
  | .srl x rd ra rb => Sys2Proof.Machine.execSrl x rd ra rb s
  | .sra x rd ra rb => Sys2Proof.Machine.execSra x rd ra rb s
  | .rotr x rd ra rb => Sys2Proof.Machine.execRotr x rd ra rb s
  | .min x rd ra rb => Sys2Proof.Machine.execMin x rd ra rb s
  | .max x rd ra rb => Sys2Proof.Machine.execMax x rd ra rb s
  | .minu x rd ra rb => Sys2Proof.Machine.execMinu x rd ra rb s
  | .maxu x rd ra rb => Sys2Proof.Machine.execMaxu x rd ra rb s
  | .mul x rd ra rb => Sys2Proof.Machine.execMul x rd ra rb s
  | .mulh x rd ra rb => Sys2Proof.Machine.execMulh x rd ra rb s
  | .mulhu x rd ra rb => Sys2Proof.Machine.execMulhu x rd ra rb s
  | .div x rd ra rb => Sys2Proof.Machine.execDiv x rd ra rb s
  | .divu x rd ra rb => Sys2Proof.Machine.execDivu x rd ra rb s
  | .rem x rd ra rb => Sys2Proof.Machine.execRem x rd ra rb s
  | .remu x rd ra rb => Sys2Proof.Machine.execRemu x rd ra rb s
  | .clz x rd ra => Sys2Proof.Machine.execClz x rd ra s
  | .ctz x rd ra => Sys2Proof.Machine.execCtz x rd ra s
  | .popc x rd ra => Sys2Proof.Machine.execPopc x rd ra s
  | .bswap8 x rd ra => Sys2Proof.Machine.execBswap8 x rd ra s
  | .bswap4 x rd ra => Sys2Proof.Machine.execBswap4 x rd ra s
  | .bswap2 x rd ra => Sys2Proof.Machine.execBswap2 x rd ra s
  | .addi x rd ra imm => Sys2Proof.Machine.execAddi x rd ra imm s
  | .andi x rd ra imm => Sys2Proof.Machine.execAndi x rd ra imm s
  | .ori x rd ra imm => Sys2Proof.Machine.execOri x rd ra imm s
  | .xori x rd ra imm => Sys2Proof.Machine.execXori x rd ra imm s
  | .slli x rd ra sh => Sys2Proof.Machine.execSlli x rd ra sh s
  | .srli x rd ra sh => Sys2Proof.Machine.execSrli x rd ra sh s
  | .srai x rd ra sh => Sys2Proof.Machine.execSrai x rd ra sh s
  | .rotri x rd ra sh => Sys2Proof.Machine.execRotri x rd ra sh s
  | .ext x rd ra pos lenm1 => Sys2Proof.Machine.execExt x rd ra pos lenm1 s
  | .exts x rd ra pos lenm1 => Sys2Proof.Machine.execExts x rd ra pos lenm1 s
  | .ins x rd ra pos lenm1 => Sys2Proof.Machine.execIns x rd ra pos lenm1 s
  | .cmp x cc pd ra rb => Sys2Proof.Machine.execCmp x cc pd ra rb s
  | .cmpi x cc pd ra imm => Sys2Proof.Machine.execCmpi x cc pd ra imm s
  | .pand x pd pa pb na nb => Sys2Proof.Machine.execPand x pd pa pb na nb s
  | .por x pd pa pb na nb => Sys2Proof.Machine.execPor x pd pa pb na nb s
  | .pxor x pd pa pb na nb => Sys2Proof.Machine.execPxor x pd pa pb na nb s
  | .ldB x rd ra off ext => Sys2Proof.Machine.execLdB x rd ra off ext s
  | .ldBu x rd ra off ext => Sys2Proof.Machine.execLdBu x rd ra off ext s
  | .ldH x rd ra off ext => Sys2Proof.Machine.execLdH x rd ra off ext s
  | .ldHu x rd ra off ext => Sys2Proof.Machine.execLdHu x rd ra off ext s
  | .ldW x rd ra off ext => Sys2Proof.Machine.execLdW x rd ra off ext s
  | .ldWu x rd ra off ext => Sys2Proof.Machine.execLdWu x rd ra off ext s
  | .ldD x rd ra off ext => Sys2Proof.Machine.execLdD x rd ra off ext s
  | .stB x rs ra off => Sys2Proof.Machine.execStB x rs ra off s
  | .stH x rs ra off => Sys2Proof.Machine.execStH x rs ra off s
  | .stW x rs ra off => Sys2Proof.Machine.execStW x rs ra off s
  | .stD x rs ra off => Sys2Proof.Machine.execStD x rs ra off s
  | .aaddW x rd ra rb => Sys2Proof.Machine.execAaddW x rd ra rb s
  | .aaddD x rd ra rb => Sys2Proof.Machine.execAaddD x rd ra rb s
  | .casD x rd ra rb => Sys2Proof.Machine.execCasD x rd ra rb s
  | .fenceR x => Sys2Proof.Machine.execFenceR x s
  | .fenceW x => Sys2Proof.Machine.execFenceW x s
  | .fenceRw x => Sys2Proof.Machine.execFenceRw x s
  | .fenceX x => Sys2Proof.Machine.execFenceX x s
  | .fenceIo x => Sys2Proof.Machine.execFenceIo x s
  | .br x disp => Sys2Proof.Machine.execBr x disp s
  | .jal x rd disp => Sys2Proof.Machine.execJal x rd disp s
  | .jalr x rd ra imm => Sys2Proof.Machine.execJalr x rd ra imm s
  | .jalL x rd target => Sys2Proof.Machine.execJalL x rd target s
  | .liL x rd imm => Sys2Proof.Machine.execLiL x rd imm s
  | .addiL x rd imm => Sys2Proof.Machine.execAddiL x rd imm s
  | .hvrd x rd hvi => Sys2Proof.Machine.execHvrd x rd hvi s
  | .hvwr x ra hvi => Sys2Proof.Machine.execHvwr x ra hvi s
  | .hvwrm x rd ra hvi => Sys2Proof.Machine.execHvwrm x rd ra hvi s
  | .hvrdx x rd ra => Sys2Proof.Machine.execHvrdx x rd ra s
  | .hvwrx x rd ra => Sys2Proof.Machine.execHvwrx x rd ra s
  | .chrd x rd ra rb => Sys2Proof.Machine.execChrd x rd ra rb s
  | .chrdn x rd ra rb => Sys2Proof.Machine.execChrdn x rd ra rb s
  | .chrdPb x rd ra rb => Sys2Proof.Machine.execChrdPb x rd ra rb s
  | .chwr x ra rb => Sys2Proof.Machine.execChwr x ra rb s
  | .chend x => Sys2Proof.Machine.execChend x s
  | .pegAcq x rd ra => Sys2Proof.Machine.execPegAcq x rd ra s
  | .pegTry x rd ra => Sys2Proof.Machine.execPegTry x rd ra s
  | .pegRel x ra => Sys2Proof.Machine.execPegRel x ra s
  | .lkp x ra rb qFull => Sys2Proof.Machine.execLkp x ra rb qFull s
  | .csub x ra rb qFull => Sys2Proof.Machine.execCsub x ra rb qFull s
  | .bowgo x ra qFull => Sys2Proof.Machine.execBowgo x ra qFull s
  | .yield x => Sys2Proof.Machine.execYield x s
  | .halt x => Sys2Proof.Machine.execHalt x s
  | .trap x imm => Sys2Proof.Machine.execTrap x imm s
  | .brk x imm => Sys2Proof.Machine.execBrk x imm s
  | .sysrd x rd sr => Sys2Proof.Machine.execSysrd x rd sr s
  | .syswr x ra sr => Sys2Proof.Machine.execSyswr x ra sr s
  | .sysset x rd ra sr => Sys2Proof.Machine.execSysset x rd ra sr s
  | .sysclr x rd ra sr => Sys2Proof.Machine.execSysclr x rd ra sr s
  | .rfe x => Sys2Proof.Machine.execRfe x s
  | .idle x => Sys2Proof.Machine.execIdle x s
  | .tlbinv x ra rb => Sys2Proof.Machine.execTlbinv x ra rb s
  | .extIntTaken k => Sys2Proof.Machine.execExtIntTaken k s
  | .idleWake k => Sys2Proof.Machine.execIdleWake k s
  | .messageDelivered d => Sys2Proof.Machine.execMessageDelivered d s
  | .wordReserved ch => Sys2Proof.Machine.execWordReserved ch s
  | .pegGranted t => Sys2Proof.Machine.execPegGranted t s
  | .engineAccept t => Sys2Proof.Machine.execEngineAccept t s
  | .imageCommit c => Sys2Proof.Machine.execImageCommit c s
  | .programMemoryWrite c target => Sys2Proof.Machine.execProgramMemoryWrite c target s
  | .threadStart t => Sys2Proof.Machine.execThreadStart t s
  | .threadStop t => Sys2Proof.Machine.execThreadStop t s
  | .threadResume t => Sys2Proof.Machine.execThreadResume t s
  | .threadKill t => Sys2Proof.Machine.execThreadKill t s
  | .threadShareWrite t value => Sys2Proof.Machine.execThreadShareWrite t value s
  | .channelCfgWrite c index value => Sys2Proof.Machine.execChannelCfgWrite c index value s
  | .sendPortGo req k count channel => Sys2Proof.Machine.execSendPortGo req k count channel s
  | .sendPortAbort req k => Sys2Proof.Machine.execSendPortAbort req k s
  | .sendDataWrite req k word value => Sys2Proof.Machine.execSendDataWrite req k word value s
  | .sendPortCommit k => Sys2Proof.Machine.execSendPortCommit k s
  | .unitMessageCommit ch => Sys2Proof.Machine.execUnitMessageCommit ch s
  | .holdWatchdogExpiry peg => Sys2Proof.Machine.execHoldWatchdogExpiry peg s
  | .silenceDetected c => Sys2Proof.Machine.execSilenceDetected c s
  | .frameReceive mac bytes fcs early => Sys2Proof.Machine.execFrameReceive mac bytes fcs early s
  | .parseWalk h => Sys2Proof.Machine.execParseWalk h s
  | .parseGraphCommit walking => Sys2Proof.Machine.execParseGraphCommit walking s
  | .parseMemoryWrite offset value => Sys2Proof.Machine.execParseMemoryWrite offset value s
  | .classify h ddrFree => Sys2Proof.Machine.execClassify h ddrFree s
  | .ddrFlowResult h => Sys2Proof.Machine.execDdrFlowResult h s
  | .flowAgeVisit set => Sys2Proof.Machine.execFlowAgeVisit set s
  | .agePeriodWrite value => Sys2Proof.Machine.execAgePeriodWrite value s
  | .flowInsert sec => Sys2Proof.Machine.execFlowInsert sec s
  | .flowInsertReplace sec => Sys2Proof.Machine.execFlowInsertReplace sec s
  | .flowRemove sec => Sys2Proof.Machine.execFlowRemove sec s
  | .actionMessage sec => Sys2Proof.Machine.execActionMessage sec s
  | .handoff sec => Sys2Proof.Machine.execHandoff sec s
  | .actionListApply h => Sys2Proof.Machine.execActionListApply h s
  | .mirrorWrite session value => Sys2Proof.Machine.execMirrorWrite session value s
  | .lateCheckFail h check => Sys2Proof.Machine.execLateCheckFail h check s
  | .lookupComplete bank extBusy ecc => Sys2Proof.Machine.execLookupComplete bank extBusy ecc s
  | .tableWindowWrite dpa data => Sys2Proof.Machine.execTableWindowWrite dpa data s
  | .tableLock slot value => Sys2Proof.Machine.execTableLock slot value s
  | .tableRelease slot value => Sys2Proof.Machine.execTableRelease slot value s
  | .tableLockAbort slot value => Sys2Proof.Machine.execTableLockAbort slot value s
  | .tablePublish value => Sys2Proof.Machine.execTablePublish value s
  | .overlayDrain => Sys2Proof.Machine.execOverlayDrain s
  | .fretWrite fret value => Sys2Proof.Machine.execFretWrite fret value s
  | .learn sec => Sys2Proof.Machine.execLearn sec s
  | .unlearn sec => Sys2Proof.Machine.execUnlearn sec s
  | .parkedResume bank => Sys2Proof.Machine.execParkedResume bank s
  | .emAgeScan bank ext bucket ageDue => Sys2Proof.Machine.execEmAgeScan bank ext bucket ageDue s
  | .shadowCompare tcam index ecc => Sys2Proof.Machine.execShadowCompare tcam index ecc s
  | .shadowRecheck tcam index => Sys2Proof.Machine.execShadowRecheck tcam index s
  | .tmEnqueue h ovfRate => Sys2Proof.Machine.execTmEnqueue h ovfRate s
  | .overflowReadback q => Sys2Proof.Machine.execOverflowReadback q s
  | .tmSelect point room => Sys2Proof.Machine.execTmSelect point room s
  | .clampSweep node => Sys2Proof.Machine.execClampSweep node s
  | .shaperRefill node => Sys2Proof.Machine.execShaperRefill node s
  | .tmElementWrite node word value => Sys2Proof.Machine.execTmElementWrite node word value s
  | .policerWrite p word value => Sys2Proof.Machine.execPolicerWrite p word value s
  | .tmFlush value => Sys2Proof.Machine.execTmFlush value s
  | .flushComplete => Sys2Proof.Machine.execFlushComplete s
  | .instBufWrite inst value => Sys2Proof.Machine.execInstBufWrite inst value s
  | .ingressCellsWrite value => Sys2Proof.Machine.execIngressCellsWrite value s
  | .contextWrite ctx word value => Sys2Proof.Machine.execContextWrite ctx word value s
  | .klwClaim req owner => Sys2Proof.Machine.execKlwClaim req owner s
  | .klwRelease req => Sys2Proof.Machine.execKlwRelease req s
  | .klwAutoRelease => Sys2Proof.Machine.execKlwAutoRelease s
  | .klwDataWrite req k value => Sys2Proof.Machine.execKlwDataWrite req k value s
  | .klwLoad req ctx => Sys2Proof.Machine.execKlwLoad req ctx s
  | .klwUnwrap req kek ctx => Sys2Proof.Machine.execKlwUnwrap req kek ctx s
  | .klwErase req ctx => Sys2Proof.Machine.execKlwErase req ctx s
  | .klwCommandDone => Sys2Proof.Machine.execKlwCommandDone s
  | .eraseComplete ctx => Sys2Proof.Machine.execEraseComplete ctx s
  | .espOutbound h => Sys2Proof.Machine.execEspOutbound h s
  | .espInbound h => Sys2Proof.Machine.execEspInbound h s
  | .csubComplete => Sys2Proof.Machine.execCsubComplete s
  | .keyAlarm cause => Sys2Proof.Machine.execKeyAlarm cause s
  | .selftestRun => Sys2Proof.Machine.execSelftestRun s
  | .selftestComplete pass => Sys2Proof.Machine.execSelftestComplete pass s
  | .portModeWrite p value => Sys2Proof.Machine.execPortModeWrite p value s
  | .linkEnable m => Sys2Proof.Machine.execLinkEnable m s
  | .linkDisable m => Sys2Proof.Machine.execLinkDisable m s
  | .anComplete m common low => Sys2Proof.Machine.execAnComplete m common low s
  | .trainingComplete m => Sys2Proof.Machine.execTrainingComplete m s
  | .trainingTimeout m => Sys2Proof.Machine.execTrainingTimeout m s
  | .linkAligned m => Sys2Proof.Machine.execLinkAligned m s
  | .alignTimeout m => Sys2Proof.Machine.execAlignTimeout m s
  | .linkLoss l => Sys2Proof.Machine.execLinkLoss l s
  | .faultRetry m => Sys2Proof.Machine.execFaultRetry m s
  | .initReceived p id low roundTrip => Sys2Proof.Machine.execInitReceived p id low roundTrip s
  | .todStep value => Sys2Proof.Machine.execTodStep value s
  | .tsPop m => Sys2Proof.Machine.execTsPop m s
  | .cuelrunReceive p f crc => Sys2Proof.Machine.execCuelrunReceive p f crc s
  | .linkAck p seq => Sys2Proof.Machine.execLinkAck p seq s
  | .linkNak p seq => Sys2Proof.Machine.execLinkNak p seq s
  | .nakBusy p seq => Sys2Proof.Machine.execNakBusy p seq s
  | .nakBusyReplay p => Sys2Proof.Machine.execNakBusyReplay p s
  | .replayTimeout p => Sys2Proof.Machine.execReplayTimeout p s
  | .peerWrite => Sys2Proof.Machine.execPeerWrite s
  | .peerRead => Sys2Proof.Machine.execPeerRead s
  | .peerMsg => Sys2Proof.Machine.execPeerMsg s
  | .peerResp => Sys2Proof.Machine.execPeerResp s
  | .readTimeout tag => Sys2Proof.Machine.execReadTimeout tag s
  | .windowCommit w => Sys2Proof.Machine.execWindowCommit w s
  | .fundamentalReset trigger => Sys2Proof.Machine.execFundamentalReset trigger s
  | .segmentPerst seg => Sys2Proof.Machine.execSegmentPerst seg s
  | .hotReset seg => Sys2Proof.Machine.execHotReset seg s
  | .linkDown seg => Sys2Proof.Machine.execLinkDown seg s
  | .pfFlr pf => Sys2Proof.Machine.execPfFlr pf s
  | .vfFlr inst => Sys2Proof.Machine.execVfFlr inst s
  | .pciReadyWrite value => Sys2Proof.Machine.execPciReadyWrite value s
  | .pciConfigWrite inst item => Sys2Proof.Machine.execPciConfigWrite inst item s
  | .hostBarWrite inst bar offset size value tlp => Sys2Proof.Machine.execHostBarWrite inst bar offset size value tlp s
  | .hostBarRead inst bar offset size tlp => Sys2Proof.Machine.execHostBarRead inst bar offset size tlp s
  | .completionReceived inst tag tlp c => Sys2Proof.Machine.execCompletionReceived inst tag tlp c s
  | .completionTimeout inst tag => Sys2Proof.Machine.execCompletionTimeout inst tag s
  | .quarantineEnd inst tag => Sys2Proof.Machine.execQuarantineEnd inst tag s
  | .tagQuotaWrite inst value => Sys2Proof.Machine.execTagQuotaWrite inst value s
  | .tagAvailable inst => Sys2Proof.Machine.execTagAvailable inst s
  | .ltrCfgWrite pf value => Sys2Proof.Machine.execLtrCfgWrite pf value s
  | .atsInvalidate inst lo hi itag => Sys2Proof.Machine.execAtsInvalidate inst lo hi itag s
  | .invalidationCompletion inst itag => Sys2Proof.Machine.execInvalidationCompletion inst itag s
  | .doeObject pf type bytes keyed => Sys2Proof.Machine.execDoeObject pf type bytes keyed s
  | .doeAbort pf => Sys2Proof.Machine.execDoeAbort pf s
  | .ringMapWrite inst kind value => Sys2Proof.Machine.execRingMapWrite inst kind value s
  | .ringEnable kind n value => Sys2Proof.Machine.execRingEnable kind n value s
  | .ringDisable kind n => Sys2Proof.Machine.execRingDisable kind n s
  | .ringElementWrite kind n word value => Sys2Proof.Machine.execRingElementWrite kind n word value s
  | .sqRqDoorbell inst rq r value => Sys2Proof.Machine.execSqRqDoorbell inst rq r value s
  | .cqDoorbell inst r value arm => Sys2Proof.Machine.execCqDoorbell inst r value arm s
  | .doorbellRead inst kind r => Sys2Proof.Machine.execDoorbellRead inst kind r s
  | .descriptorData rq n => Sys2Proof.Machine.execDescriptorData rq n s
  | .txPayloadDone job => Sys2Proof.Machine.execTxPayloadDone job s
  | .txDeparture job => Sys2Proof.Machine.execTxDeparture job s
  | .rxFrame h => Sys2Proof.Machine.execRxFrame h s
  | .fullTimeout n => Sys2Proof.Machine.execFullTimeout n s
  | .fullerTimer n => Sys2Proof.Machine.execFullerTimer n s
  | .ringDrainComplete rq n => Sys2Proof.Machine.execRingDrainComplete rq n s
  | .ucJobDispatch entry job => Sys2Proof.Machine.execUcJobDispatch entry job s
  | .ucNext lane ecc => Sys2Proof.Machine.execUcNext lane ecc s
  | .ucJump lane ecc => Sys2Proof.Machine.execUcJump lane ecc s
  | .ucBranch lane ecc => Sys2Proof.Machine.execUcBranch lane ecc s
  | .ucCall lane ecc => Sys2Proof.Machine.execUcCall lane ecc s
  | .ucReturn lane ecc => Sys2Proof.Machine.execUcReturn lane ecc s
  | .ucDispatch lane ecc => Sys2Proof.Machine.execUcDispatch lane ecc s
  | .ucWait lane ecc => Sys2Proof.Machine.execUcWait lane ecc s
  | .ucEnd lane ecc => Sys2Proof.Machine.execUcEnd lane ecc s
  | .ucWaitEvent ctx => Sys2Proof.Machine.execUcWaitEvent ctx s
  | .regimeWrite value => Sys2Proof.Machine.execRegimeWrite value s
  | .patchLoad value => Sys2Proof.Machine.execPatchLoad value s
  | .patchLoadDone => Sys2Proof.Machine.execPatchLoadDone s
  | .ucResume ctx => Sys2Proof.Machine.execUcResume ctx s
  | .ucRollfwd ctx => Sys2Proof.Machine.execUcRollfwd ctx s
  | .ucRestart ctx => Sys2Proof.Machine.execUcRestart ctx s
  | .ucDbgHalt lane value => Sys2Proof.Machine.execUcDbgHalt lane value s
  | .ucDbgStep lane value ecc => Sys2Proof.Machine.execUcDbgStep lane value ecc s
  | .ucDbgRun lane value => Sys2Proof.Machine.execUcDbgRun lane value s
  | .instanceCreate inst => Sys2Proof.Machine.execInstanceCreate inst s
  | .instanceDestroy inst => Sys2Proof.Machine.execInstanceDestroy inst s
  | .instanceReset inst => Sys2Proof.Machine.execInstanceReset inst s
  | .instanceFreeze inst => Sys2Proof.Machine.execInstanceFreeze inst s
  | .instanceSave inst => Sys2Proof.Machine.execInstanceSave inst s
  | .instanceRestore inst => Sys2Proof.Machine.execInstanceRestore inst s
  | .instanceUnfreeze inst => Sys2Proof.Machine.execInstanceUnfreeze inst s
  | .filterClear inst => Sys2Proof.Machine.execFilterClear inst s
  | .resetComplete inst => Sys2Proof.Machine.execResetComplete inst s
  | .freezeDrainDone inst => Sys2Proof.Machine.execFreezeDrainDone inst s
  | .freezeTimeout inst => Sys2Proof.Machine.execFreezeTimeout inst s
  | .saveComplete inst found => Sys2Proof.Machine.execSaveComplete inst found s
  | .restoreComplete inst keys words => Sys2Proof.Machine.execRestoreComplete inst keys words s
  | .mailboxGo pf value => Sys2Proof.Machine.execMailboxGo pf value s
  | .mailboxDone pf value => Sys2Proof.Machine.execMailboxDone pf value s
  | .hbRangeWrite inst range hi value => Sys2Proof.Machine.execHbRangeWrite inst range hi value s
  | .logEnableWrite inst value => Sys2Proof.Machine.execLogEnableWrite inst value s
  | .logConsumerRead inst => Sys2Proof.Machine.execLogConsumerRead inst s
  | .nvmePersonalityWrite inst on => Sys2Proof.Machine.execNvmePersonalityWrite inst on s
  | .nvmeCcWrite inst value => Sys2Proof.Machine.execNvmeCcWrite inst value s
  | .nvmeAdminCfgWrite inst reg value => Sys2Proof.Machine.execNvmeAdminCfgWrite inst reg value s
  | .adminDoorbell inst cq value => Sys2Proof.Machine.execAdminDoorbell inst cq value s
  | .nvmeIoDoorbell inst y cq value => Sys2Proof.Machine.execNvmeIoDoorbell inst y cq value s
  | .admIrq inst => Sys2Proof.Machine.execAdmIrq inst s
  | .namespaceWrite inst k word value => Sys2Proof.Machine.execNamespaceWrite inst k word value s
  | .connSetup c value => Sys2Proof.Machine.execConnSetup c value s
  | .connLive c value => Sys2Proof.Machine.execConnLive c value s
  | .connIdle c value => Sys2Proof.Machine.execConnIdle c value s
  | .connElementWrite c word value => Sys2Proof.Machine.execConnElementWrite c word value s
  | .nvmeFlush n => Sys2Proof.Machine.execNvmeFlush n s
  | .nvmeWrite n => Sys2Proof.Machine.execNvmeWrite n s
  | .nvmeRead n => Sys2Proof.Machine.execNvmeRead n s
  | .nvmeWriteZeroes n => Sys2Proof.Machine.execNvmeWriteZeroes n s
  | .nvmeDsm n => Sys2Proof.Machine.execNvmeDsm n s
  | .stagingDone cmd => Sys2Proof.Machine.execStagingDone cmd s
  | .tcpSegment h => Sys2Proof.Machine.execTcpSegment h s
  | .segmentTransmit c => Sys2Proof.Machine.execSegmentTransmit c s
  | .retransmitTimeout c => Sys2Proof.Machine.execRetransmitTimeout c s
  | .ackDelayTimer c => Sys2Proof.Machine.execAckDelayTimer c s
  | .excDone sec => Sys2Proof.Machine.execExcDone sec s
  | .excReinject sec => Sys2Proof.Machine.execExcReinject sec s
  | .excRetransmit sec => Sys2Proof.Machine.execExcRetransmit sec s
  | .excFail sec => Sys2Proof.Machine.execExcFail sec s
  | .excTimeout c => Sys2Proof.Machine.execExcTimeout c s
  | .reconnectExpiry c => Sys2Proof.Machine.execReconnectExpiry c s
  | .commandDetach inst => Sys2Proof.Machine.execCommandDetach inst s
  | .bowEnable c => Sys2Proof.Machine.execBowEnable c s
  | .bowDisable c => Sys2Proof.Machine.execBowDisable c s
  | .bowStart c => Sys2Proof.Machine.execBowStart c s
  | .bowArm c => Sys2Proof.Machine.execBowArm c s
  | .bowDisarm c => Sys2Proof.Machine.execBowDisarm c s
  | .bowShadowWrite c word value => Sys2Proof.Machine.execBowShadowWrite c word value s
  | .bowCfgWrite c value => Sys2Proof.Machine.execBowCfgWrite c value s
  | .bowTimerWrite t value => Sys2Proof.Machine.execBowTimerWrite t value s
  | .bowTimerFire t => Sys2Proof.Machine.execBowTimerFire t s
  | .bowTriggerConsume c => Sys2Proof.Machine.execBowTriggerConsume c s
  | .bowDescArrive c => Sys2Proof.Machine.execBowDescArrive c s
  | .bowBlockEnd c => Sys2Proof.Machine.execBowBlockEnd c s
  | .bowBlockComplete c => Sys2Proof.Machine.execBowBlockComplete c s
  | .bowAccessFail c => Sys2Proof.Machine.execBowAccessFail c s
  | .bowCqRoom c => Sys2Proof.Machine.execBowCqRoom c s
  | .bowDisableDone c => Sys2Proof.Machine.execBowDisableDone c s
  | .bowCqCfgWrite q value => Sys2Proof.Machine.execBowCqCfgWrite q value s
  | .bowCqHeadWrite q value => Sys2Proof.Machine.execBowCqHeadWrite q value s
  | .interruptEdge src => Sys2Proof.Machine.execInterruptEdge src s
  | .edgeToPending src => Sys2Proof.Machine.execEdgeToPending src s
  | .icuSet src => Sys2Proof.Machine.execIcuSet src s
  | .icuPendingClear src => Sys2Proof.Machine.execIcuPendingClear src s
  | .icuSrcCfgWrite src value => Sys2Proof.Machine.execIcuSrcCfgWrite src value s
  | .icuClaim req k => Sys2Proof.Machine.execIcuClaim req k s
  | .icuEoi req k src => Sys2Proof.Machine.execIcuEoi req k src s
  | .redirectHoldExpiry src => Sys2Proof.Machine.execRedirectHoldExpiry src s
  | .domainIdleEntry d depth => Sys2Proof.Machine.execDomainIdleEntry d depth s
  | .domainRequest d value => Sys2Proof.Machine.execDomainRequest d value s
  | .domainWakeWrite d value => Sys2Proof.Machine.execDomainWakeWrite d value s
  | .domainAck d => Sys2Proof.Machine.execDomainAck d s
  | .depthReached d => Sys2Proof.Machine.execDepthReached d s
  | .domainWake d src => Sys2Proof.Machine.execDomainWake d src s
  | .wakeComplete d uncorr => Sys2Proof.Machine.execWakeComplete d uncorr s
  | .loadWindow loads => Sys2Proof.Machine.execLoadWindow loads s
  | .budgetWrite target value => Sys2Proof.Machine.execBudgetWrite target value s
  | .thermalSample readings => Sys2Proof.Machine.execThermalSample readings s
  | .avsStep ack => Sys2Proof.Machine.execAvsStep ack s
  | .telemetrySample rail mv mw => Sys2Proof.Machine.execTelemetrySample rail mv mw s
  | .pllLockLoss pll => Sys2Proof.Machine.execPllLockLoss pll s
  | .flashVerify a b tests => Sys2Proof.Machine.execFlashVerify a b tests s
  | .coreRelease value => Sys2Proof.Machine.execCoreRelease value s
  | .warmRestartRequest value => Sys2Proof.Machine.execWarmRestartRequest value s
  | .warmDrainLimit => Sys2Proof.Machine.execWarmDrainLimit s
  | .warmEscalate => Sys2Proof.Machine.execWarmEscalate s
  | .tuneWrite item value => Sys2Proof.Machine.execTuneWrite item value s
  | .memTrain ch => Sys2Proof.Machine.execMemTrain ch s
  | .memRestore ch => Sys2Proof.Machine.execMemRestore ch s
  | .memTrainDone ch result => Sys2Proof.Machine.execMemTrainDone ch result s
  | .memCfgWrite value => Sys2Proof.Machine.execMemCfgWrite value s
  | .memLock => Sys2Proof.Machine.execMemLock s
  | .l3ModeSwitch => Sys2Proof.Machine.execL3ModeSwitch s
  | .secretRegionWrite region hi value => Sys2Proof.Machine.execSecretRegionWrite region hi value s
  | .aliasWrite req addr size value => Sys2Proof.Machine.execAliasWrite req addr size value s
  | .aliasRead req addr size => Sys2Proof.Machine.execAliasRead req addr size s
  | .scrubRead line ecc => Sys2Proof.Machine.execScrubRead line ecc s
  | .setEndpointId eid => Sys2Proof.Machine.execSetEndpointId eid s
  | .getTid => Sys2Proof.Machine.execGetTid s
  | .setTid tid => Sys2Proof.Machine.execSetTid tid s
  | .getPldmVersion type => Sys2Proof.Machine.execGetPldmVersion type s
  | .getPldmTypes => Sys2Proof.Machine.execGetPldmTypes s
  | .getPldmCommands type => Sys2Proof.Machine.execGetPldmCommands type s
  | .readTelemetry => Sys2Proof.Machine.execReadTelemetry s
  | .readCrashLog first count => Sys2Proof.Machine.execReadCrashLog first count s
  | .readStatus => Sys2Proof.Machine.execReadStatus s
  | .clearCrashLog => Sys2Proof.Machine.execClearCrashLog s
  | .requestReset kind => Sys2Proof.Machine.execRequestReset kind s
  | .forcePowerOff mask => Sys2Proof.Machine.execForcePowerOff mask s
  | .spdmRequest secured bytes => Sys2Proof.Machine.execSpdmRequest secured bytes s
  | .spdmBusy => Sys2Proof.Machine.execSpdmBusy s
  | .wdogStart value => Sys2Proof.Machine.execWdogStart value s
  | .wdogKick value => Sys2Proof.Machine.execWdogKick value s
  | .wdogWarning => Sys2Proof.Machine.execWdogWarning s
  | .wdogBite => Sys2Proof.Machine.execWdogBite s
  | .logClear => Sys2Proof.Machine.execLogClear s
  | .logAppend info1 => Sys2Proof.Machine.execLogAppend info1 s
  | .dbgTokenGo => Sys2Proof.Machine.execDbgTokenGo s
  | .jtagDbgToken token => Sys2Proof.Machine.execJtagDbgToken token s
  | .newChallenge => Sys2Proof.Machine.execNewChallenge s
  | .approvedEnter => Sys2Proof.Machine.execApprovedEnter s
  | .diceSeal => Sys2Proof.Machine.execDiceSeal s
  | .rngRead req => Sys2Proof.Machine.execRngRead req s
  | .drbgReseed => Sys2Proof.Machine.execDrbgReseed s
  | .entropySample pass => Sys2Proof.Machine.execEntropySample pass s
  | .supplyOutOfRange rail => Sys2Proof.Machine.execSupplyOutOfRange rail s
  | .shieldBreach => Sys2Proof.Machine.execShieldBreach s
  | .seqStage => Sys2Proof.Machine.execSeqStage s
  | .seqFail => Sys2Proof.Machine.execSeqFail s
  | .testModePin high => Sys2Proof.Machine.execTestModePin high s
  | .illegalEncoding x word => Sys2Proof.Machine.execIllegalEncoding x word s
  | .perstNDeassertion seg split => Sys2Proof.Machine.execPerstNDeassertion seg split s
  | .linkInL0 seg width rate flit => Sys2Proof.Machine.execLinkInL0 seg width rate flit s
  | .railReturns rail => Sys2Proof.Machine.execRailReturns rail s
  | .pllLockRegained pll => Sys2Proof.Machine.execPllLockRegained pll s
  | .readTagRelease tag => Sys2Proof.Machine.execReadTagRelease tag s
  | .mgmtBusTimeout => Sys2Proof.Machine.execMgmtBusTimeout s

end Sys2Proof.Machine
end

