-- ==== Sys2Proof/Machine/Tick.lean ====
section
/-! DEFINITION. What the adapter does by itself when no command waits: one nanosecond of the model's clock (log entry 7). -/

namespace Sys2Proof.Machine

/-- No frame is being parsed by the bank that was active before the last commit any more (R95). -/
def State.parseSettled (s : State) : State := s.fset Fld.PAR_GRAPH_CTL_PENDING 0 0

/-- Frames that have started to leave a MAC or a Cuelrun port are away. -/
def State.sendsDone (s : State) : State := (List.range 36).foldl (fun s p => s.sendDone p) s

/-- The idle tick: TIME advances (R195, R379), a parse-graph commit settles, frames that were leaving have left, NVMe commands
that waited for pages take those that a drain or a reset has freed (R315; log entry 77), and a domain that is
deeper than its allowed depth is woken (R365). -/
def State.tick (s : State) : State := s.timeTick.parseSettled.sendsDone.storageGo.pwrUpdate

end Sys2Proof.Machine
end

