-- ==== Sys2Proof/Certificates/Slice0/Obligations.lean ====
section
/-! DEFINITION. The statements for the provers, and the words they are said in. -/

open Sys2Proof Sys2Proof.Machine

/-! ### Registers (chapter 00) -/

namespace Sys2Proof.Claims

/-- Bit `k` belongs to a field. -/
def inField (f : FieldDesc) (k : Nat) : Prop := f.lo ≤ k ∧ k < f.lo + f.w

/-- A command leaves byte memory, the threads, the cores, the channels, the pegs, the key store and the queue as they are. -/
def leaves (s u : State) : Prop :=
  u.mem = s.mem ∧ u.threads = s.threads ∧ u.cores = s.cores ∧ u.chans = s.chans ∧ u.pegs = s.pegs ∧ u.keys = s.keys ∧ u.pending = s.pending

end Sys2Proof.Claims

open Sys2Proof.Claims

/-- A bit of a register that lies in no field reads as zero, and a write leaves it as it was. REGISTER_WRITE of 4 or 8 bytes, naturally
aligned, to a register whose writes do nothing but set fields leaves that register as its access types say and changes nothing else where the
register's power domain is awake, and wakes that domain first where it is not; to an
address that holds no register, or of another size or alignment, it changes nothing. -/
def Obligations.ReservedFieldsIgnoreWrites : Prop :=
  (∀ (locked : Bool) (r : RegDesc) (old new : Word) (k : Nat), (∀ f ∈ r.fields, ¬ inField f k) →
    (readFields r old).getLsbD k = false ∧ (writeFields locked r old new).getLsbD k = old.getLsbD k) ∧
  (∀ (req addr size i b : Nat) (v : Word) (r : RegDesc) (s : State), size = 4 ∨ size = 8 → addr % size = 0 → s.region addr = .regs →
    regAt addr = some (r, i, b) → (regWrites.find? fun e => e.1.rid == r.rid) = none →
    let t := s.regWake r i
    exec (.registerWrite req addr size v) s = .next (t.wr r i (writeFields false r (t.rd r i) (regValue r (t.rd r i) b size v))) ∧
      ((∀ d, regDomain r i = some d → s.depth d = 0 ∧ s.phase d = 0) → t = s)) ∧
  (∀ (req addr size : Nat) (v : Word) (s : State), s.region addr = .regs → regAt addr = none →
    exec (.registerWrite req addr size v) s = .next s) ∧
  (∀ (req addr size : Nat) (v : Word) (s : State), (size ≠ 4 ∧ size ≠ 8) ∨ addr % size ≠ 0 → exec (.registerWrite req addr size v) s = .next s)

/-- A write leaves every bit outside a field. In the field, RW, WO, WOK and RWS take the written bit, RO and RC keep the old one, W1C clears
where a 1 is written and W1S sets there, and RWL takes the written bit unless its block is locked. -/
def Obligations.AccessTypesByBit : Prop :=
  ∀ (locked : Bool) (f : FieldDesc) (old new : Word) (k : Nat), k < 64 →
    (¬ inField f k → (writeField locked new old f).getLsbD k = old.getLsbD k) ∧
    (inField f k →
      (f.acc ∈ [.rw, .wo, .wok, .rws] → (writeField locked new old f).getLsbD k = new.getLsbD k) ∧
      (f.acc ∈ [.ro, .rc] → (writeField locked new old f).getLsbD k = old.getLsbD k) ∧
      (f.acc = .w1c → (writeField locked new old f).getLsbD k = (old.getLsbD k && !new.getLsbD k)) ∧
      (f.acc = .w1s → (writeField locked new old f).getLsbD k = (old.getLsbD k || new.getLsbD k)) ∧
      (f.acc = .rwl → (writeField locked new old f).getLsbD k = if locked then old.getLsbD k else new.getLsbD k))

/-! ### Peosh instructions (chapter 02) -/

namespace Sys2Proof.Claims

/-- The state once the words of an instruction of `len` bytes at the issuer's pc have been fetched; none where a fetch faults. -/
def fetches (x : Issue) (len : Nat) (s : State) : Option State :=
  match s.fetchWord x 0 with
  | (none, u) => if len = 8 then (match u.fetchWord x 1 with | (none, t) => some t | _ => none) else some u
  | _ => none

/-- The issuer of `x` can issue, its fetch of `len` bytes succeeds (the state is then `t`), the encoding is not the illegal one of R26, the
predicate is true, and the issuer's profile has the instruction. -/
structure Issues (x : Issue) (len : Nat) (prof : Profile) (s t : State) : Prop where
  ready : s.canIssue x.who = true
  fetched : fetches x len s = some t
  legal : issueIllegal x = false
  holds : issueHolds x (t.arch x.who) = true
  has : prof.has x.who = true

/-- The next state of an instruction of `len` bytes whose only effect on the issuer's registers makes them `a`: the pc moves on, RETIRED
counts, and nothing else changes. -/
def completes (t : State) (x : Issue) (len : Nat) (a : Arch) : State :=
  t.setArch x.who { a with pc := (t.arch x.who).pc + BitVec.ofNat 64 len, retired := (t.arch x.who).retired + 1 }

/-- The next state of an instruction that moves the pc to `pc`. -/
def jumps (t : State) (x : Issue) (a : Arch) (pc : Word) : State :=
  t.setArch x.who { a with pc := pc, retired := (t.arch x.who).retired + 1 }

/-- The integer and field instructions of Table 02-8: the issuer's fields, gd, and the value of gd. -/
def intResult : Instr → Option (Issue × RegIx × (Arch → Word))
  | .add x rd ra rb => some (x, rd, fun a => a.getG ra + a.getG rb)
  | .sub x rd ra rb => some (x, rd, fun a => a.getG ra - a.getG rb)
  | .and x rd ra rb => some (x, rd, fun a => a.getG ra &&& a.getG rb)
  | .or x rd ra rb => some (x, rd, fun a => a.getG ra ||| a.getG rb)
  | .xor x rd ra rb => some (x, rd, fun a => a.getG ra ^^^ a.getG rb)
  | .andn x rd ra rb => some (x, rd, fun a => a.getG ra &&& ~~~a.getG rb)
  | .sll x rd ra rb => some (x, rd, fun a => a.getG ra <<< ((a.getG rb).extractLsb' 0 6).toNat)
  | .srl x rd ra rb => some (x, rd, fun a => a.getG ra >>> ((a.getG rb).extractLsb' 0 6).toNat)
  | .sra x rd ra rb => some (x, rd, fun a => (a.getG ra).sshiftRight ((a.getG rb).extractLsb' 0 6).toNat)
  | .rotr x rd ra rb => some (x, rd, fun a => (a.getG ra).rotateRight ((a.getG rb).extractLsb' 0 6).toNat)
  | .min x rd ra rb => some (x, rd, fun a => if (a.getG ra).slt (a.getG rb) then a.getG ra else a.getG rb)
  | .max x rd ra rb => some (x, rd, fun a => if (a.getG ra).slt (a.getG rb) then a.getG rb else a.getG ra)
  | .minu x rd ra rb => some (x, rd, fun a => if (a.getG ra).ult (a.getG rb) then a.getG ra else a.getG rb)
  | .maxu x rd ra rb => some (x, rd, fun a => if (a.getG ra).ult (a.getG rb) then a.getG rb else a.getG ra)
  | .mul x rd ra rb => some (x, rd, fun a => a.getG ra * a.getG rb)
  | .mulh x rd ra rb => some (x, rd, fun a => BitVec.ofInt 64 ((a.getG ra).toInt * (a.getG rb).toInt / 2 ^ 64))
  | .mulhu x rd ra rb => some (x, rd, fun a => BitVec.ofNat 64 ((a.getG ra).toNat * (a.getG rb).toNat / 2 ^ 64))
  | .div x rd ra rb => some (x, rd, fun a => divS (a.getG ra) (a.getG rb))
  | .divu x rd ra rb => some (x, rd, fun a => divU (a.getG ra) (a.getG rb))
  | .rem x rd ra rb => some (x, rd, fun a => remS (a.getG ra) (a.getG rb))
  | .remu x rd ra rb => some (x, rd, fun a => remU (a.getG ra) (a.getG rb))
  | .clz x rd ra => some (x, rd, fun a => BitVec.ofNat 64 (clzN (a.getG ra)))
  | .ctz x rd ra => some (x, rd, fun a => BitVec.ofNat 64 (ctzN (a.getG ra)))
  | .popc x rd ra => some (x, rd, fun a => BitVec.ofNat 64 (popcN (a.getG ra)))
  | .bswap8 x rd ra => some (x, rd, fun a => bswapN 8 (a.getG ra))
  | .bswap4 x rd ra => some (x, rd, fun a => bswapN 4 (a.getG ra))
  | .bswap2 x rd ra => some (x, rd, fun a => bswapN 2 (a.getG ra))
  | .addi x rd ra imm => some (x, rd, fun a => a.getG ra + imm.signExtend 64)
  | .andi x rd ra imm => some (x, rd, fun a => a.getG ra &&& imm.signExtend 64)
  | .ori x rd ra imm => some (x, rd, fun a => a.getG ra ||| imm.signExtend 64)
  | .xori x rd ra imm => some (x, rd, fun a => a.getG ra ^^^ imm.signExtend 64)
  | .slli x rd ra sh => some (x, rd, fun a => a.getG ra <<< sh.val)
  | .srli x rd ra sh => some (x, rd, fun a => a.getG ra >>> sh.val)
  | .srai x rd ra sh => some (x, rd, fun a => (a.getG ra).sshiftRight sh.val)
  | .rotri x rd ra sh => some (x, rd, fun a => (a.getG ra).rotateRight sh.val)
  | .ext x rd ra pos lenm1 => some (x, rd, fun a => extField (a.getG ra) pos (lenm1 + 1))
  | .exts x rd ra pos lenm1 => some (x, rd, fun a => extsField (a.getG ra) pos (lenm1 + 1))
  | .ins x rd ra pos lenm1 => some (x, rd, fun a => insField (a.getG rd) (a.getG ra) pos (lenm1 + 1))
  | _ => none

/-- The compare and predicate instructions of Table 02-8: pd and its value. -/
def predResult : Instr → Option (Issue × PredIx × (Arch → Bool))
  | .cmp x cc pd ra rb => some (x, pd, fun a => condEval cc (a.getG ra) (a.getG rb))
  | .cmpi x cc pd ra imm => some (x, pd, fun a => condEval cc (a.getG ra) (imm.signExtend 64))
  | .pand x pd pa pb na nb => some (x, pd, fun a => (a.getP pa ^^ na) && (a.getP pb ^^ nb))
  | .por x pd pa pb na nb => some (x, pd, fun a => (a.getP pa ^^ na) || (a.getP pb ^^ nb))
  | .pxor x pd pa pb na nb => some (x, pd, fun a => (a.getP pa ^^ na) ^^ (a.getP pb ^^ nb))
  | _ => none

/-- Every Peosh instruction, with its issuer's fields, its length in bytes and its profile. -/
def issueOf : Instr → Option (Issue × Nat × Profile)
  | .add x .. | .sub x .. | .and x .. | .or x .. | .xor x .. | .andn x .. | .sll x .. | .srl x .. | .sra x .. | .rotr x .. | .min x ..
  | .max x .. | .minu x .. | .maxu x .. | .mul x .. | .mulh x .. | .mulhu x .. | .div x .. | .divu x .. | .rem x .. | .remu x ..
  | .clz x .. | .ctz x .. | .popc x .. | .bswap8 x .. | .bswap4 x .. | .bswap2 x .. | .addi x .. | .andi x .. | .ori x .. | .xori x ..
  | .slli x .. | .srli x .. | .srai x .. | .rotri x .. | .ext x .. | .exts x .. | .ins x .. | .cmp x .. | .cmpi x .. | .pand x ..
  | .por x .. | .pxor x .. | .ldB x .. | .ldBu x .. | .ldH x .. | .ldHu x .. | .ldW x .. | .ldWu x .. | .ldD x .. | .stB x .. | .stH x ..
  | .stW x .. | .stD x .. | .aaddW x .. | .aaddD x .. | .fenceR x | .fenceW x | .fenceRw x | .br x .. | .jal x .. | .jalr x .. | .trap x ..
  | .brk x .. | .sysrd x .. | .syswr x .. | .sysset x .. | .sysclr x .. => some (x, 4, .both)
  | .jalL x .. | .liL x .. | .addiL x .. => some (x, 8, .both)
  | .hvrd x .. | .hvwr x .. | .hvwrm x .. | .hvrdx x .. | .hvwrx x .. | .chrd x .. | .chrdn x .. | .chrdPb x .. | .chwr x .. | .chend x
  | .pegAcq x .. | .pegTry x .. | .pegRel x .. | .lkp x .. | .csub x .. | .bowgo x .. | .yield x | .halt x => some (x, 4, .p)
  | .casD x .. | .fenceX x | .fenceIo x | .rfe x | .idle x | .tlbinv x .. => some (x, 4, .s)
  | _ => none

/-- The loads of Table 02-9: width in bytes, signed or not, gd, ga, off12 and what the outside answers. -/
def loadOf : Instr → Option (Issue × Nat × Bool × RegIx × RegIx × BitVec 12 × ExtAnswer)
  | .ldB x rd ra off e => some (x, 1, true, rd, ra, off, e)
  | .ldBu x rd ra off e => some (x, 1, false, rd, ra, off, e)
  | .ldH x rd ra off e => some (x, 2, true, rd, ra, off, e)
  | .ldHu x rd ra off e => some (x, 2, false, rd, ra, off, e)
  | .ldW x rd ra off e => some (x, 4, true, rd, ra, off, e)
  | .ldWu x rd ra off e => some (x, 4, false, rd, ra, off, e)
  | .ldD x rd ra off e => some (x, 8, false, rd, ra, off, e)
  | _ => none

/-- The stores of Table 02-9: width in bytes, gs, ga and off12. -/
def storeOf : Instr → Option (Issue × Nat × RegIx × RegIx × BitVec 12)
  | .stB x rs ra off => some (x, 1, rs, ra, off)
  | .stH x rs ra off => some (x, 2, rs, ra, off)
  | .stW x rs ra off => some (x, 4, rs, ra, off)
  | .stD x rs ra off => some (x, 8, rs, ra, off)
  | _ => none

/-- What a load of `n` bytes leaves in gd. -/
def loaded (n : Nat) (signed : Bool) (bs : List Byte) : Word :=
  if signed then (BitVec.ofNat (8 * n) (leNat bs)).signExtend 64 else BitVec.ofNat 64 (leNat bs)

/-- Two states in which a thread's scratch, and every byte of shared and other memory, agree outside `n` bytes at address `a` of
thread `t`. -/
def memSame (t a n : Nat) (s u : State) : Prop :=
  (∀ b, (b < a ∨ a + n ≤ b) → mrd (u.thr t).scratch b = mrd (s.thr t).scratch b) ∧
  (∀ d, (inScratch a n = true ∨ d < sharedDpa t a ∨ sharedDpa t a + n ≤ d) → u.memByte d = s.memByte d)

end Sys2Proof.Claims


/-- For every state and operands: an integer, shift, multiply, divide, bit-count, byte-swap, immediate or field instruction whose issuer may
run it answers the state after its fetch with gd, the pc and RETIRED changed, and nothing else. A write to g0 is discarded (R23). -/
def Obligations.IntegerInstructionsComplete : Prop :=
  ∀ (i : Instr) (x : Issue) (rd : RegIx) (f : Arch → Word) (s t : State), intResult i = some (x, rd, f) → Issues x 4 .both s t →
    exec i s = .next (completes t x 4 ((t.arch x.who).setG rd (f (t.arch x.who))))

/-- The bits of ext, exts, ins, clz, ctz, popc and bswap results as Table 02-8 words them: bits beyond 63 read as zero and are discarded,
clz and ctz of 0 give 64, and the 4- and 2-byte swaps zero-extend. -/
def Obligations.FieldAndCountBits : Prop :=
  ∀ (a d : Word) (pos len : Fin 64),
    (∀ i < 64, (extField a pos (len + 1)).getLsbD i = (decide (i < len.val + 1) && a.getLsbD (pos + i))) ∧
    (∀ i < 64, (extsField a pos (len + 1)).getLsbD i = a.getLsbD (pos + min i len.val)) ∧
    (∀ i < 64, (insField d a pos (len + 1)).getLsbD i =
      if pos.val ≤ i ∧ i < pos.val + (len.val + 1) then a.getLsbD (i - pos.val) else d.getLsbD i) ∧
    (clzN 0 = 64 ∧ ctzN 0 = 64) ∧
    (a ≠ 0 → clzN a < 64 ∧ a.getLsbD (63 - clzN a) = true ∧ ∀ i < clzN a, a.getLsbD (63 - i) = false) ∧
    (a ≠ 0 → ctzN a < 64 ∧ a.getLsbD (ctzN a) = true ∧ ∀ i < ctzN a, a.getLsbD i = false) ∧
    popcN a = ((List.range 64).countP fun i => a.getLsbD i) ∧
    (∀ n ∈ [8, 4, 2], ∀ k < 8, ((bswapN n a).toNat / 2 ^ (8 * k)) % 256 =
      if k < n then (a.toNat / 2 ^ (8 * (n - 1 - k))) % 256 else 0)

/-- div, divu, rem and remu: by zero the quotient is all ones and the remainder ga; −2^63 ÷ −1 gives −2^63 with remainder 0; otherwise the
quotient is truncated toward zero and the remainder makes up the dividend. -/
def Obligations.DivisionCorners : Prop :=
  ∀ a b : Word,
    (b = 0 → divS a b = BitVec.allOnes 64 ∧ divU a b = BitVec.allOnes 64 ∧ remS a b = a ∧ remU a b = a) ∧
    (a = BitVec.ofNat 64 (2 ^ 63) → b = BitVec.allOnes 64 → divS a b = a ∧ remS a b = 0) ∧
    (b ≠ 0 → divU a b * b + remU a b = a ∧ (remU a b).toNat < b.toNat ∧ (divU a b).toNat * b.toNat ≤ a.toNat) ∧
    (b ≠ 0 → (a ≠ BitVec.ofNat 64 (2 ^ 63) ∨ b ≠ BitVec.allOnes 64) →
      (divS a b).toInt * b.toInt + (remS a b).toInt = a.toInt ∧ (remS a b).toInt.natAbs < b.toInt.natAbs ∧
      ((divS a b).toInt * b.toInt).natAbs ≤ a.toInt.natAbs)

/-- cmp, cmpi, pand, por and pxor: pd takes the condition of Table 02-8 (a write to p0 is discarded), the pc moves on and RETIRED counts. -/
def Obligations.PredicateInstructionsComplete : Prop :=
  (∀ (i : Instr) (x : Issue) (pd : PredIx) (f : Arch → Bool) (s t : State), predResult i = some (x, pd, f) → Issues x 4 .both s t →
    exec i s = .next (completes t x 4 ((t.arch x.who).setP pd (f (t.arch x.who))))) ∧
  (∀ a b : Word, condEval .eq a b = decide (a = b) ∧ condEval .ne a b = decide (a ≠ b) ∧ condEval .lt a b = a.slt b ∧
    condEval .ge a b = b.sle a ∧ condEval .ltu a b = a.ult b ∧ condEval .geu a b = b.ule a ∧
    condEval .tst a b = decide (a &&& b ≠ 0) ∧ condEval .tstz a b = decide (a &&& b = 0))

/-- For every Peosh instruction: with its predicate false it only moves the pc past its words and counts in RETIRED, whatever its profile
and operands; and with PN = 1 and PRED = 0 it raises ILLEGAL with its word 0, whatever the predicate. Neither fetches word 1. A word with major opcode 0x00
or 0x3F raises ILLEGAL whatever its predicate. -/
def Obligations.FalsePredicateSkips : Prop :=
  (∀ (i : Instr) (x : Issue) (len : Nat) (prof : Profile) (s t : State), issueOf i = some (x, len, prof) → s.canIssue x.who = true →
    s.fetchWord x 0 = (none, t) →
    (issueIllegal x = false → issueHolds x (t.arch x.who) = false → exec i s = .next (completes t x len (t.arch x.who))) ∧
    (issueIllegal x = true → ∃ insn : Word, insn.toNat / 2 ^ 28 % 16 = 8 ∧
      exec i s = .next (t.raise x.who 0x01 insn (BitVec.ofNat 64 (insn.toNat % 2 ^ 32))))) ∧
  (∀ (x : Issue) (word : BitVec 32) (s t : State), s.canIssue x.who = true → s.fetchWord x 0 = (none, t) →
    (word.toNat / 2 ^ 22 % 64 = 0 ∨ word.toNat / 2 ^ 22 % 64 = 0x3F) →
    exec (.illegalEncoding x word) s = .next (t.raise x.who 0x01 (word.setWidth 64) (word.setWidth 64)))

/-- br, jal, jalr, jal.l, li.l and addi.l: the pc and the link register as Table 02-10 gives them; a misaligned target of jalr or jal.l raises
ALIGN with the target, and the instruction then has no effect. -/
def Obligations.ControlFlowCompletes : Prop :=
  ∀ (x : Issue) (rd ra : RegIx) (s t : State), let a := t.arch x.who
    (Issues x 4 .both s t →
      (∀ disp : BitVec 22, exec (.br x disp) s = .next (jumps t x a (a.pc + 4 * disp.signExtend 64))) ∧
      (∀ disp : BitVec 17, exec (.jal x rd disp) s = .next (jumps t x (a.setG rd (a.pc + 4)) (a.pc + 4 * disp.signExtend 64))) ∧
      (∀ imm : BitVec 12, let d := a.getG ra + imm.signExtend 64
        (d.toNat % 4 = 0 → exec (.jalr x rd ra imm) s = .next (jumps t x (a.setG rd (a.pc + 4)) d)) ∧
        (d.toNat % 4 ≠ 0 → exec (.jalr x rd ra imm) s = .next (t.raise x.who 0x03 (encI x 0x22 rd ra imm) d)))) ∧
    (Issues x 8 .both s t → ∀ imm : BitVec 48, let d : Word := imm.signExtend 64
      (d.toNat % 4 = 0 → exec (.jalL x rd imm) s = .next (jumps t x (a.setG rd (a.pc + 8)) d)) ∧
      (d.toNat % 4 ≠ 0 → exec (.jalL x rd imm) s = .next (t.raise x.who 0x03 (encL x 0x3D rd 0 imm) d)) ∧
      exec (.liL x rd imm) s = .next (completes t x 8 (a.setG rd d)) ∧
      exec (.addiL x rd imm) s = .next (completes t x 8 (a.setG rd (a.getG rd + d))))

/-- For every load whose words are sound: a thread's aligned load inside scratch or shared memory sets gd to the extended little-endian bytes
and changes nothing else; a misaligned one raises ALIGN and one outside every region ACCESS. A control core's load that resolves to a DPA sets gd to the extended
value that the access answers, whatever memory, register or window it reaches. -/
def Obligations.LoadsComplete : Prop :=
  ∀ (i : Instr) (x : Issue) (n : Nat) (signed : Bool) (rd ra : RegIx) (off : BitVec 12) (e : ExtAnswer) (s t : State),
    loadOf i = some (x, n, signed, rd, ra, off, e) → Issues x 4 .both s t → x.ecc ≠ .data →
    let a := t.arch x.who
    let va := a.getG ra + off.signExtend 64
    (∀ th, x.who = .thread th →
      (va.toNat % n = 0 → (inScratch va.toNat n = true ∨ inShared va.toNat n = true) →
        exec i s = .next (completes t x 4 (a.setG rd (loaded n signed (t.pRead th va.toNat n))))) ∧
      (va.toNat % n ≠ 0 → ∃ insn, exec i s = .next (t.raise x.who 0x03 insn va)) ∧
      (va.toNat % n = 0 → inScratch va.toNat n = false → inShared va.toNat n = false →
        ∃ insn, exec i s = .next (t.raise x.who 0x04 insn va))) ∧
    (∀ k pa t' v u, x.who = .core k → t.coreAddr k va n .load = (.ok pa, t') → t'.coreLoad k pa n e = .value v u →
      exec i s = .next (completes u x 4 ((u.arch x.who).setG rd (loaded n signed ((wordBytesLE v).take n)))))

/-- For every store by a thread, to its scratch or to shared memory: the bytes at the address are the low bytes of gs afterwards, every other
byte of scratch and of memory reads as before, and the registers change only in the pc and RETIRED; misaligned and out-of-region stores raise
ALIGN and ACCESS. A control core's store completes with the write that its access makes. -/
def Obligations.StoresComplete : Prop :=
  ∀ (i : Instr) (x : Issue) (n : Nat) (rs ra : RegIx) (off : BitVec 12) (s t : State),
    storeOf i = some (x, n, rs, ra, off) → Issues x 4 .both s t →
    let a := t.arch x.who
    let va := a.getG ra + off.signExtend 64
    (∀ th : Fin 1536, x.who = .thread th →
      (va.toNat % n = 0 → (inScratch va.toNat n = true ∨ inShared va.toNat n = true) →
        ∃ u, exec i s = .next u ∧ u.pRead th va.toNat n = (wordBytesLE (a.getG rs)).take n ∧ memSame th va.toNat n t u ∧
          u.arch x.who = (completes t x 4 a).arch x.who ∧ u.regs = t.regs ∧ u.chans = t.chans ∧ u.pegs = t.pegs ∧
          ∀ o, o ≠ th.val → u.thr o = t.thr o) ∧
      (va.toNat % n ≠ 0 → ∃ insn, exec i s = .next (t.raise x.who 0x03 insn va)) ∧
      (va.toNat % n = 0 → inScratch va.toNat n = false → inShared va.toNat n = false →
        ∃ insn, exec i s = .next (t.raise x.who 0x04 insn va))) ∧
    (∀ k pa t' u, x.who = .core k → t.coreAddr k va n .store = (.ok pa, t') → t'.coreStore k pa n (a.getG rs) = some u →
      exec i s = .next (completes u x 4 (u.arch x.who)))

/-- aadd.w and aadd.d by a thread on shared memory, and aadd.w, aadd.d and cas.d by a control core on normal memory: the old value goes to gd,
zero-extended, and memory takes the sum, or for cas.d the new value only where the old one equals gd. An uncorrectable word raises BUS with
the address instead, in a thread as in a core. -/
def Obligations.AtomicsComplete : Prop :=
  (∀ (x : Issue) (rd ra rb : RegIx) (s t : State) (th : Fin 1536) (n : Nat), Issues x 4 .both s t → x.who = .thread th → (n = 4 ∨ n = 8) →
    let a := t.arch x.who
    let va := (a.getG ra).toNat
    let old : Word := BitVec.ofNat 64 (leNat (t.pRead th va n))
    va % n = 0 → inShared va n = true →
    (x.ecc ≠ .data → ∃ u, exec (if n = 4 then .aaddW x rd ra rb else .aaddD x rd ra rb) s = .next u ∧
      u.pRead th va n = (wordBytesLE (old + a.getG rb)).take n ∧ memSame th va n t u ∧
      u.arch x.who = (completes t x 4 (a.setG rd old)).arch x.who) ∧
    (x.ecc = .data → ∃ insn, ∃ u : State, exec (if n = 4 then .aaddW x rd ra rb else .aaddD x rd ra rb) s = .next (u.raise x.who 0x08 insn (a.getG ra)) ∧
      u.mem = t.mem)) ∧
  (∀ (x : Issue) (rd ra rb : RegIx) (s t t' : State) (k : Fin 16) (n pa : Nat) (bs : List Byte), Issues x 4 .s s t → x.who = .core k →
    (n = 4 ∨ n = 8) →
    let a := t.arch x.who
    let old : Word := BitVec.ofNat 64 (leNat bs)
    t.coreAddr k (a.getG ra) n .store = (.ok pa, t') → (t'.region pa).normal = true → t'.memLoad pa n = some bs →
    let put (s : State) : State := completes s x 4 ((s.arch x.who).setG rd old)
    (x.ecc ≠ .data →
      exec (if n = 4 then .aaddW x rd ra rb else .aaddD x rd ra rb) s = .next (put (t'.memStore pa ((wordBytesLE (old + a.getG rb)).take n))) ∧
      (n = 8 → exec (.casD x rd ra rb) s =
        .next (put (if old = a.getG rd then t'.memStore pa (wordBytesLE (a.getG rb)) else t')))) ∧
    (x.ecc = .data → ∃ insn, ∃ u : State, exec (.casD x rd ra rb) s = .next (u.raise x.who 0x08 insn (a.getG ra)) ∧ u.mem = t'.mem))

/-- hvrd, hvwr, hvwrm, hvrdx and hvwrx: which view is read or written, and that nothing else of the thread changes but the pc and RETIRED. -/
def Obligations.HeaderVectorCompletes : Prop :=
  ∀ (x : Issue) (rd ra : RegIx) (hvi : Fin 64) (th : Fin 1536) (s t : State), Issues x 4 .p s t → x.who = .thread th →
    let T := t.thr th
    let a := T.a
    let out (a' : Arch) (hv : Vector Word 64) : State :=
      t.setThr th { T with a := { a' with pc := a.pc + 4, retired := a.retired + 1 }, hv := hv }
    let ix : Fin 64 := ((a.getG ra).extractLsb' 0 6).toFin
    exec (.hvrd x rd hvi) s = .next (out (a.setG rd T.hv[hvi]) T.hv) ∧
    exec (.hvwr x ra hvi) s = .next (out a (T.hv.set hvi (a.getG ra))) ∧
    exec (.hvwrm x rd ra hvi) s = .next (out a (T.hv.set hvi ((T.hv[hvi] &&& ~~~a.getG rd) ||| (a.getG ra &&& a.getG rd)))) ∧
    exec (.hvrdx x rd ra) s = .next (out (a.setG rd T.hv[ix]) T.hv) ∧
    exec (.hvwrx x rd ra) s = .next (out a (T.hv.set ix (a.getG rd)))

/-! ### Channels, pegs, engines, thread control, system instructions and threads (chapters 02 and 03) -/

namespace Sys2Proof.Claims

/-- The effect of an instruction on the issuing thread alone: registers, and the pc and RETIRED as for one completed 4-byte instruction. -/
def threadOut (t : State) (th : Nat) (T : Thread) : State :=
  t.setThr th { T with a := { T.a with pc := (t.thr th).a.pc + 4, retired := (t.thr th).a.retired + 1 } }

/-- What a thread that takes message `m` holds afterwards (R24, R32): the words at `addr`, gd, the header vector and packet of a dispatch
message, ready at the next instruction. -/
def tookMsg (s u : State) (t k : Nat) (m : Msg) (rd : RegIx) (addr : Nat) : Prop :=
  (m.pkt = none → (u.chan k).msgs = (s.chan k).msgs.erase m) ∧
  (u.thr t).st = .ready ∧ (u.thr t).wait = none ∧
  (rd ≠ 0 → (u.thr t).a.getG rd = BitVec.ofNat 64 (m.words.length + m.src % 65536 * 65536)) ∧
  (∀ r, r ≠ rd → (u.thr t).a.getG r = (s.thr t).a.getG r) ∧
  (u.thr t).a.retired = (s.thr t).a.retired + 1 ∧
  u.pRead t addr (8 * m.words.length) = (m.words.map wordBytesLE).flatten ∧
  memSame t addr (8 * m.words.length) s u ∧
  (u.thr t).hv = m.hv.getD (s.thr t).hv ∧
  (u.thr t).pkts = (s.thr t).pkts ++ m.pkt.toList ∧
  (m.pkt = none → u.regs = s.regs)

end Sys2Proof.Claims

/-- A permitted channel read with an aligned buffer in thread memory takes the message that stands for it (at once where no earlier reader
would take it, or when MESSAGE_DELIVERED reaches the first reader that waits): the words, gd, the header vector and the packet are those of
the message (whose words are sound), no other register and no byte outside the words' places changes; except in chrd.pb with a stale epoch the pc moves on by 4.
With no message, chrdn sets gd to 0 and changes nothing else, and chrd joins the reader FIFO and waits. -/
def Obligations.ChannelReadsTakeMessages : Prop :=
  (∀ (x : Issue) (rd ra rb : RegIx) (th : Fin 1536) (s : State), Issues x 4 .p s s → x.who = .thread th →
    let T := s.thr th
    let id := (T.a.getG ra).toNat % 65536
    let addr := (T.a.getG rb).toNat
    let k := threadKey th id
    s.readCause th id = 0 → addr % 8 = 0 → (inScratch addr 128 = true ∨ inShared addr 128 = true) →
    (x.ecc ≠ .data → ∀ m, s.messageFor th (s.chan k) = some m → m.words.length ≤ 16 →
      (s.readerAhead (s.chan k) m = false →
        (∃ u, exec (.chrd x rd ra rb) s = .next u ∧ tookMsg s u th k m rd addr ∧ (u.thr th).a.pc = T.a.pc + 4) ∧
        (∃ u, exec (.chrdPb x rd ra rb) s = .next u ∧ tookMsg s u th k m rd addr ∧ (s.stale th = false → (u.thr th).a.pc = T.a.pc + 4))) ∧
      ((s.chan k).readers = [] → ∃ u, exec (.chrdn x rd ra rb) s = .next u ∧ tookMsg s u th k m rd addr ∧ (u.thr th).a.pc = T.a.pc + 4)) ∧
    (s.messageFor th (s.chan k) = none →
      exec (.chrdn x rd ra rb) s = .next (threadOut s th { T with a := T.a.setG rd 0 }) ∧
      exec (.chrd x rd ra rb) s = .next ((s.setChan k { s.chan k with readers := (s.chan k).readers ++ [(th.val : Nat)] }).setThr th
        { T with st := .waitRd, wait := some (.read rd k addr false) }))) ∧
  (∀ (k : Nat) (t : Nat) (s : State) (m : Msg) (rd : RegIx) (addr : Nat) (pb : Bool),
    ((s.chan k).readers.find? fun r => (s.messageFor r (s.chan k)).isSome) = some t → s.messageFor t (s.chan k) = some m →
    m.words.length ≤ 16 → (s.thr t).wait = some (.read rd k addr pb) →
    ∃ u, exec (.messageDelivered ⟨k, false⟩) s = .next u ∧ tookMsg s u t k m rd addr ∧ (u.chan k).readers = (s.chan k).readers.erase t)

/-- A permitted chwr with an unreserved word free and no writer or unit message ahead reserves one word and stages gb; a 17th word raises
MSG_OVERFLOW and another channel CHAN_MISMATCH. chend appends the staged words as one message of the thread and frees the reservation; with
no open message it raises EMPTY_MSG. WORD_RESERVED grants a word to the head of the writer FIFO, and UNIT_MESSAGE_COMMIT commits the oldest
waiting unit message that fits, which frees the engine slot that a waiting reply holds. -/
def Obligations.ChannelWritesStageAndCommit : Prop :=
  (∀ (x : Issue) (ra rb : RegIx) (th : Fin 1536) (s : State), Issues x 4 .p s s → x.who = .thread th →
    let T := s.thr th
    let id := (T.a.getG ra).toNat % 65536
    let k := threadKey th id
    let staged := match T.openMsg with | some m => m.words | none => []
    let c := s.chan k
    (s.writeCause th id = 0 → staged.length < 16 → (∀ m, T.openMsg = some m → m.ch = k) → 0 < c.room → c.units = [] → c.writers = [] →
      ∃ u, exec (.chwr x ra rb) s = .next u ∧ (u.thr th).openMsg = some { ch := k, words := staged ++ [T.a.getG rb] } ∧
        (u.chan k).reserved = c.reserved + 1 ∧ (u.chan k).msgs = c.msgs ∧ (u.thr th).a = { T.a with pc := T.a.pc + 4, retired := T.a.retired + 1 } ∧
        u.mem = s.mem ∧ u.regs = s.regs ∧ ∀ o, o ≠ k → u.chan o = s.chan o) ∧
    (s.writeCause th id = 0 → 16 ≤ staged.length → ∃ insn, exec (.chwr x ra rb) s = .next (s.raise x.who 0x12 insn (BitVec.ofNat 64 id))) ∧
    (s.writeCause th id = 0 → staged.length < 16 → (∃ m, T.openMsg = some m ∧ m.ch ≠ k) →
      ∃ insn, exec (.chwr x ra rb) s = .next (s.raise x.who 0x13 insn (BitVec.ofNat 64 id))) ∧
    (s.writeCause th id ≠ 0 → ∃ insn, exec (.chwr x ra rb) s = .next (s.raise x.who (s.writeCause th id) insn (BitVec.ofNat 64 id))) ∧
    (T.openMsg = none → ∃ insn, exec (.chend x) s = .next (s.raise x.who 0x14 insn 0)) ∧
    (∀ m, T.openMsg = some m → ∃ u, exec (.chend x) s = .next u ∧ (u.thr th).openMsg = none ∧
      (u.chan m.ch).reserved = (s.chan m.ch).reserved - m.words.length ∧
      (∃ hv, (u.chan m.ch).msgs = (s.chan m.ch).msgs ++ [({ src := th, words := m.words, hv := hv } : Msg)] ∧
        (0x10010 ≤ m.ch ∧ m.ch < 0x10020 → hv = some T.hv)) ∧
      (u.thr th).a = { T.a with pc := T.a.pc + 4, retired := T.a.retired + 1 } ∧ u.mem = s.mem ∧ u.regs = s.regs)) ∧
  (∀ (k t : Nat) (ws : List Writer) (v : Word) (s : State), (s.chan k).writers = .thread t :: ws → (s.thr t).wait = some (.write k v) →
    (s.chan k).units = [] → 0 < (s.chan k).room →
    ∃ u, exec (.wordReserved k) s = .next u ∧ (u.chan k).reserved = (s.chan k).reserved + 1 ∧ (u.chan k).writers = ws ∧
      (u.thr t).st = .ready ∧ (∃ m, (u.thr t).openMsg = some m ∧ m.ch = k ∧ m.words.getLast? = some v)) ∧
  (∀ (k : Nat) (m : Msg) (s : State), ((s.chan k).units.find? fun u => decide (u.words.length ≤ (s.chan k).room)) = some m →
    let u := s.setChan k { s.chan k with units := (s.chan k).units.erase m, msgs := (s.chan k).msgs ++ [m] }
    (m.eng = none → exec (.unitMessageCommit k) s = .next u) ∧
    (∀ t, m.eng = some t → exec (.unitMessageCommit k) s = .next (u.setThr t { s.thr t with engHeld := (s.thr t).engHeld - 1 })))

/-- A free peg with no requester is granted at once to peg.acq or peg.try, with gd 0 or, if it was broken, 1, and the mark cleared; a peg that
is held makes peg.try answer 2 and peg.acq wait at the FIFO's tail; a ninth peg raises PEG_LIMIT and one already held PEG_SELF. peg.rel of a
peg with no requester frees it without setting the mark, and with requesters passes it to the head. PEG_GRANTED completes the waiting
peg.acq. HOLD_WATCHDOG_EXPIRY sends one record per hold, and with KILL = 1 halts the holder. -/
def Obligations.PegsGrantInOrder : Prop :=
  (∀ (x : Issue) (rd ra : RegIx) (th : Fin 1536) (s : State) (k : Nat), Issues x 4 .p s s → x.who = .thread th →
    let T := s.thr th
    let id := (T.a.getG ra).toNat % 65536
    let p := s.peg k
    pegKey (cluOf th) id = some k →
    (k ∉ T.pegs → T.pegs.length < 8 →
      (p.holder = none → p.waiters = [] → ∀ i ∈ [Instr.pegAcq x rd ra, .pegTry x rd ra],
        exec i s = .next (threadOut (s.setPeg k { p with holder := some th.val, broken := false, wdogDone := false }) th
          { T with pegs := T.pegs ++ [k], a := T.a.setG rd (if p.broken then 1 else 0) })) ∧
      ((p.holder ≠ none ∨ p.waiters ≠ []) →
        exec (.pegTry x rd ra) s = .next (threadOut s th { T with a := T.a.setG rd 2 }) ∧
        exec (.pegAcq x rd ra) s = .next ((s.setPeg k { p with waiters := p.waiters ++ [th.val] }).setThr th
          { T with st := .waitPeg, wait := some (.peg rd k none) }))) ∧
    (k ∈ T.pegs → ∀ i ∈ [Instr.pegAcq x rd ra, .pegTry x rd ra], ∃ insn, exec i s = .next (s.raise x.who 0x1A insn (BitVec.ofNat 64 id))) ∧
    (k ∉ T.pegs → 8 ≤ T.pegs.length → ∀ i ∈ [Instr.pegAcq x rd ra, .pegTry x rd ra],
      ∃ insn, exec i s = .next (s.raise x.who 0x1B insn (BitVec.ofNat 64 id))) ∧
    (k ∉ T.pegs → ∃ insn, exec (.pegRel x ra) s = .next (s.raise x.who 0x19 insn (BitVec.ofNat 64 id))) ∧
    (k ∈ T.pegs → p.waiters = [] → ∃ u, exec (.pegRel x ra) s = .next u ∧ (u.peg k).holder = none ∧ (u.peg k).broken = p.broken ∧
      (u.thr th).pegs = T.pegs.erase k) ∧
    (k ∈ T.pegs → ∀ w ws, p.waiters = w :: ws → ∃ u, exec (.pegRel x ra) s = .next u ∧
      u.peg k = { holder := some w, broken := false, waiters := ws, wdogDone := false } ∧ k ∈ (u.thr w).pegs)) ∧
  (∀ (t : Fin 1536) (rd : RegIx) (k : Nat) (b : Bool) (s : State), (s.thr t).st = .waitPeg → (s.thr t).wait = some (.peg rd k (some b)) →
    exec (.pegGranted t) s = .next (threadOut s t { s.thr t with st := .ready, wait := none, a := (s.thr t).a.setG rd (if b then 1 else 0) })) ∧
  (∀ (k t : Nat) (s : State), (s.peg k).holder = some t → s.fbit Fld.PEG_WDOG_EN 0 = true → (s.peg k).wdogDone = false →
    ∃ u, exec (.holdWatchdogExpiry k) s = .next u ∧
      (s.fbit Fld.PEG_WDOG_KILL 0 = false → u.peg k = { s.peg k with wdogDone := true } ∧ u.thr t = s.thr t) ∧
      (s.fbit Fld.PEG_WDOG_KILL 0 = true → (s.thr t).st ≠ .halted → (u.thr t).st = .halted))

/-- With its operand words sound and an engine slot free, lkp puts one lookup of its profile, reply channel, cookie and key words behind the others
and takes a slot, and csub hands its request to the engine; with the unit's queue full they wait at issue, taking nothing. bowgo delivers one
trigger to the channel. An operand fault is raised with its cause and value. ENGINE_ACCEPT completes a waiting request once a slot is free. -/
def Obligations.EngineRequestsIssueOrWait : Prop :=
  (∀ (x : Issue) (ra rb : RegIx) (th : Fin 1536) (s : State), Issues x 4 .p s s → x.who = .thread th →
    let T := s.thr th
    let a := T.a
    let waits (op : EngOp) (rb : RegIx) : State := s.setThr th { T with st := .waitEng, wait := some (.engine op ra rb) }
    x.ecc ≠ .data →
    (s.engineFault th a .lkp ra rb = none → s.engSlot th = true →
      let p := bits (a.getG ra) 23 16
      let l : Lookup :=
        { t := th, profile := p, ch := bits (a.getG ra) 15 0, cookie := bits (a.getG ra) 47 32,
          words := s.operandWords th (a.getG rb).toNat (s.keyWords p) }
      ∃ u, exec (.lkp x ra rb false) s = .next u ∧ u.lookups = s.lookups ++ [l] ∧
        (u.thr th).engHeld = T.engHeld + 1 ∧ (u.thr th).a = { a with pc := a.pc + 4, retired := a.retired + 1 } ∧ u.mem = s.mem ∧ u.regs = s.regs) ∧
    (s.engineFault th a .csub ra rb = none → s.engSlot th = true →
      ∃ u, exec (.csub x ra rb false) s = .next u ∧ (u.thr th).engHeld = T.engHeld + 1 ∧
        u.csubs.length = s.csubs.length + 1 ∧ (u.thr th).a = { a with pc := a.pc + 4, retired := a.retired + 1 } ∧ u.mem = s.mem) ∧
    (s.engineFault th a .bowgo ra 0 = none → s.engSlot th = true → ∀ u, s.bowTrig (bits (a.getG ra) 8 0) true = some u →
      exec (.bowgo x ra false) s = .next (u.retire x.who (a.pc + 4))) ∧
    (s.engineFault th a .lkp ra rb = none → exec (.lkp x ra rb true) s = .next (waits .lkp rb)) ∧
    (s.engineFault th a .csub ra rb = none → exec (.csub x ra rb true) s = .next (waits .csub rb)) ∧
    (s.engineFault th a .bowgo ra 0 = none → exec (.bowgo x ra true) s = .next (waits .bowgo 0)) ∧
    (∀ q c v, s.engineFault th a .lkp ra rb = some (c, v) → ∃ insn, exec (.lkp x ra rb q) s = .next (s.raise x.who c insn v)) ∧
    (∀ q c v, s.engineFault th a .csub ra rb = some (c, v) → ∃ insn, exec (.csub x ra rb q) s = .next (s.raise x.who c insn v)) ∧
    (∀ q c v, s.engineFault th a .bowgo ra 0 = some (c, v) → ∃ insn, exec (.bowgo x ra q) s = .next (s.raise x.who c insn v))) ∧
  (∀ (t : Fin 1536) (op : EngOp) (ra rb : RegIx) (s u : State), (s.thr t).st = .waitEng → (s.thr t).wait = some (.engine op ra rb) →
    s.engSlot t = true → s.engineGo t (s.thr t).a op ra rb = some u →
    ∃ v, exec (.engineAccept t) s = .next v ∧ (v.thr t).st = .ready ∧ (v.thr t).wait = none ∧ (v.thr t).a.pc = (u.thr t).a.pc + 4)

/-- yield moves the thread behind the others of its core; halt stops a thread that holds no peg and no open message, and otherwise raises
HALT_HOLDING; trap raises TRAP in a thread and the environment call of its privilege in a core; brk stops a thread under an attached debugger
and otherwise raises BREAK; each fence only completes. A thread's fault leaves it halted, with no open message, no peg and no packet. -/
def Obligations.ThreadControlCompletes : Prop :=
  (∀ (x : Issue) (th : Fin 1536) (s : State), Issues x 4 .p s s → x.who = .thread th →
    let T := s.thr th
    (∃ u, exec (.yield x) s = .next u ∧ mget (List.range 16) u.rr (th.val / 16) = (mget (List.range 16) s.rr (th.val / 16)).erase (th.val % 16) ++ [th.val % 16] ∧
      u.threads = (threadOut s th T).threads ∧ u.mem = s.mem ∧ u.regs = s.regs) ∧
    (T.pegs = [] → T.openMsg = none → ∃ u, exec (.halt x) s = .next u ∧ (u.thr th).st = .halted ∧ (u.thr th).pkts = []) ∧
    ((T.pegs ≠ [] ∨ T.openMsg ≠ none) → ∃ insn, exec (.halt x) s = .next (s.raise x.who 0x24 insn 0))) ∧
  (∀ (x : Issue) (imm : BitVec 12) (s t : State), Issues x 4 .both s t →
    (∀ th : Fin 1536, x.who = .thread th →
      (∃ insn, exec (.trap x imm) s = .next (t.raise x.who 0x09 insn (imm.setWidth 64))) ∧
      (t.fbit Fld.CLU_DBG_ATTACH (cluOf th) = false → ∃ insn, exec (.brk x imm) s = .next (t.raise x.who 0x28 insn (imm.setWidth 64))) ∧
      (t.fbit Fld.CLU_DBG_ATTACH (cluOf th) = true → ∃ u, exec (.brk x imm) s = .next u ∧ (u.thr th).st = .stopped ∧
        (u.thr th).a.pc = (t.thr th).a.pc + 4 ∧ u.fbit Fld.CLU_DBG_BRK_EVENT (cluOf th) = true)) ∧
    (∀ k : Fin 16, x.who = .core k →
      (∃ insn, exec (.trap x imm) s = .next (t.raise x.who (0x0A + (t.core k).priv.code) insn (imm.setWidth 64))) ∧
      (∃ insn, exec (.brk x imm) s = .next (t.raise x.who 0x28 insn (imm.setWidth 64))))) ∧
  (∀ (x : Issue) (s t : State),
    (Issues x 4 .both s t → ∀ i ∈ [Instr.fenceR x, .fenceW x, .fenceRw x], exec i s = .next (completes t x 4 (t.arch x.who))) ∧
    (Issues x 4 .s s t → ∀ i ∈ [Instr.fenceX x, .fenceIo x], exec i s = .next (completes t x 4 (t.arch x.who)))) ∧
  (∀ (s : State) (th : Fin 1536) (c : Nat) (insn v : Word), (∀ k ∈ (s.thr th).pegs, th.val ∉ (s.peg k).waiters) →
    let u := s.raise (.thread th) c insn v
    (u.thr th).st = .halted ∧ (u.thr th).openMsg = none ∧ (u.thr th).pegs = [] ∧ (u.thr th).pkts = [] ∧
    (u.thr th).a.g = (s.thr th).a.g ∧ (u.thr th).a.pc = (s.thr th).a.pc ∧ u.mem = s.mem)

/-- sysrd reads a listed register at or above its level into gd; syswr, sysset and sysclr write it (with RA = g0 the last two make no write);
an unlisted number and a write to a read-only register raise ILLEGAL, and any other access from below the register's level raises PRIV. A core's
fault saves the pc, cause, value, privilege and IE and goes to x_VBASE + 0x40 × class; rfe restores the pc, privilege and IE saved at the level
it runs at; EXT_INT_TAKEN takes a pending interrupt at M with class 2; idle waits unless an interrupt is pending, and IDLE_WAKE ends the wait;
tlbinv drops exactly the cached translations of the page that ga names, or of every page for g0, and of the ASID in gb, or of every ASID for g0;
rfe, idle and tlbinv raise PRIV in U. A word that no instruction has raises ILLEGAL with that word. -/
def Obligations.SystemInstructionsComplete : Prop :=
  (∀ (x : Issue) (rd ra : RegIx) (sr : BitVec 12) (s t : State) (k : Fin 16), Issues x 4 .both s t → x.who = .core k →
    let a := t.arch x.who
    let c := t.core k
    let rdOut (c' : Core) (old : Word) : State := completes (t.setCore k c') x 4 ((c'.a).setG rd old)
    (∀ old, t.coreSr k sr.toNat = some old → sr.toNat / 1024 ≤ c.priv.code →
      exec (.sysrd x rd sr) s = .next (rdOut c old) ∧
      (sr.getLsbD 9 = false →
        exec (.syswr x ra sr) s = .next (completes (t.setCore k (c.srWrite sr.toNat (a.getG ra))) x 4 (c.srWrite sr.toNat (a.getG ra)).a) ∧
        (ra ≠ 0 → exec (.sysset x rd ra sr) s = .next (rdOut (c.srWrite sr.toNat (old ||| a.getG ra)) old) ∧
          exec (.sysclr x rd ra sr) s = .next (rdOut (c.srWrite sr.toNat (old &&& ~~~a.getG ra)) old))) ∧
      exec (.sysset x rd 0 sr) s = .next (rdOut c old) ∧ exec (.sysclr x rd 0 sr) s = .next (rdOut c old)) ∧
    (∀ old, t.coreSr k sr.toNat = some old → sr.getLsbD 9 = true →
      (∃ insn v, exec (.syswr x ra sr) s = .next (t.raise x.who 0x01 insn v)) ∧
      (ra ≠ 0 → ∀ i ∈ [Instr.sysset x rd ra sr, .sysclr x rd ra sr], ∃ insn v, exec i s = .next (t.raise x.who 0x01 insn v))) ∧
    (t.coreSr k sr.toNat = none → ∀ i ∈ [Instr.sysrd x rd sr, .syswr x ra sr, .sysset x rd ra sr, .sysclr x rd ra sr],
      ∃ insn v, exec i s = .next (t.raise x.who 0x01 insn v)) ∧
    (∀ old, t.coreSr k sr.toNat = some old → c.priv.code < sr.toNat / 1024 →
      (∃ insn v, exec (.sysrd x rd sr) s = .next (t.raise x.who 0x02 insn v)) ∧
      (sr.getLsbD 9 = false → ∀ i ∈ [Instr.syswr x ra sr, .sysset x rd ra sr, .sysclr x rd ra sr],
        ∃ insn v, exec i s = .next (t.raise x.who 0x02 insn v)))) ∧
  (∀ (x : Issue) (rd : RegIx) (sr : BitVec 12) (s : State) (th : Fin 1536) (old : Word), Issues x 4 .both s s → x.who = .thread th →
    s.threadSr th sr.toNat = some old →
    exec (.sysrd x rd sr) s = .next (completes s x 4 ((s.thr th).a.setG rd old)) ∧
    exec (.sysset x rd 0 sr) s = .next (completes s x 4 ((s.thr th).a.setG rd old)) ∧
    exec (.sysclr x rd 0 sr) s = .next (completes s x 4 ((s.thr th).a.setG rd old)) ∧
    ∀ ra, ∃ insn v, exec (.syswr x ra sr) s = .next (s.raise x.who 0x01 insn v)) ∧
  (∀ (c : Core) (cause : Nat) (v : Word), cause < 64 →
    let toS := c.route.getLsbD cause && c.priv != .m
    let r := if toS then (c.fault cause v).trapS else (c.fault cause v).trapM
    let vb := if toS then c.trapS.vbase else c.trapM.vbase
    r.trpc = c.a.pc ∧ r.cause = BitVec.ofNat 64 cause ∧ r.info = v ∧ r.trpsPriv = c.priv ∧ r.trpsIe = c.ie ∧
    (c.fault cause v).priv = (if toS then .s else .m) ∧ (c.fault cause v).ie = (toS && c.ie) ∧
    (c.fault cause v).a.pc = vb + (if 0x0A ≤ cause ∧ cause ≤ 0x0C then 0x40 else 0) ∧ (c.fault cause v).a.g = c.a.g) ∧
  (∀ (x : Issue) (ra rb : RegIx) (s t : State) (k : Fin 16), Issues x 4 .s s t → x.who = .core k →
    let c := t.core k
    (c.priv = .u → ∀ i ∈ [Instr.rfe x, .idle x, .tlbinv x ra rb], ∃ insn v, exec i s = .next (t.raise x.who 0x02 insn v)) ∧
    (c.priv = .m → exec (.rfe x) s = .next (t.setCore k
      { c with priv := c.trapM.trpsPriv, ie := c.trapM.trpsIe, a := { c.a with pc := c.trapM.trpc, retired := c.a.retired + 1 } })) ∧
    (c.priv = .s → exec (.rfe x) s = .next (t.setCore k
      { c with priv := c.trapS.trpsPriv, a := { c.a with pc := c.trapS.trpc, retired := c.a.retired + 1 } })) ∧
    (c.priv ≠ .u → t.intPending k = false → exec (.idle x) s = .next (t.setCore k { c with idling := true })) ∧
    (c.priv ≠ .u → t.intPending k = true → exec (.idle x) s = .next (completes t x 4 c.a)) ∧
    (c.priv ≠ .u →
      let drops (e : TlbEntry) : Bool :=
        (ra == 0 || e.vbase == (c.a.getG ra).toNat / 2 ^ (12 + 9 * e.level) * 2 ^ (12 + 9 * e.level)) &&
        (rb == 0 || e.asid == (c.a.getG rb).extractLsb' 0 16 || e.pte.getLsbD 59)
      exec (.tlbinv x ra rb) s = .next (completes (t.setCore k { c with tlb := c.tlb.filter fun e => !drops e }) x 4 c.a))) ∧
  (∀ (s : State) (k : Fin 16), let c := s.core k
    let next : Word := if c.idling then c.a.pc + 4 else c.a.pc
    (c.running = true → c.ie = true → s.intPending k = true →
      ∃ u, exec (.extIntTaken k) s = .next u ∧ (u.core k).trapM.trpc = next ∧ (u.core k).trapM.cause = 0x40 ∧
        (u.core k).trapM.trpsPriv = c.priv ∧ (u.core k).trapM.trpsIe = true ∧ (u.core k).priv = .m ∧ (u.core k).ie = false ∧
        (u.core k).idling = false ∧ (u.core k).a.pc = c.trapM.vbase + 0x80 ∧ (u.core k).a.g = c.a.g ∧ u.regs = s.regs ∧ u.mem = s.mem) ∧
    (c.running = true → c.idling = true → s.intPending k = true →
      exec (.idleWake k) s = .next (s.setCore k { c with idling := false, a := { c.a with pc := c.a.pc + 4, retired := c.a.retired + 1 } })) ∧
    (s.intPending k = false → exec (.extIntTaken k) s = .next s ∧ exec (.idleWake k) s = .next s)) ∧
  (∀ (x : Issue) (word : BitVec 32) (s t : State), Issues { x with pn := word.getLsbD 31, pred := Fin.ofNat 8 (word.toNat / 2 ^ 28 % 8) } 4 .both s t →
    ∃ insn : Word, insn.toNat % 2 ^ 32 = word.toNat ∧ exec (.illegalEncoding x word) s = .next (t.raise x.who 0x01 insn (word.setWidth 64)))

/-- START makes a halted thread READY at the entry of the active image with the current epoch; STOP and RESUME move it to STOPPED and back;
KILL halts it and takes its open message, pegs and packets. A share write to a halted thread within the cluster's slots is stored, a zero ENG
or PKT as 1, and to a thread that runs only sets SHARE_REFUSED. IMAGE_COMMIT with no stale thread advances the epoch and flips the image, and
otherwise only sets SWAP_REFUSED. A program write inside image A, or of its entry, is stored where no thread runs image A, and otherwise only
sets IMAGE_WRITE_REFUSED. SILENCE_DETECTED with a stuck supervisor makes it READY at the silence
vector; without the conditions of R84 it changes nothing. -/
def Obligations.ThreadEventsComplete : Prop :=
  (∀ (t : Fin 1536) (s : State), let T := s.thr t
    let c := cluOf t
    (T.st = .halted → ∃ u, exec (.threadStart t) s = .next u ∧ (u.thr t).st = .ready ∧
      (u.thr t).a.pc = s.entryOf c (s.fbit Fld.CLU_PROG_EPOCH_ACTIVE_IMAGE c) ∧ (u.thr t).image = s.fbit Fld.CLU_PROG_EPOCH_ACTIVE_IMAGE c ∧
      (u.thr t).a.g = T.a.g ∧ u.regs = s.regs ∧ u.mem = s.mem) ∧
    (T.st = .ready → T.wait = none → exec (.threadStop t) s = .next (s.setThr t { T with st := .stopped })) ∧
    (T.st ≠ .halted → T.st ≠ .stopped → ∃ u, exec (.threadStop t) s = .next u ∧ (u.thr t).st = .stopped ∧ (u.thr t).wait = none) ∧
    (T.st = .stopped → exec (.threadResume t) s = .next (s.setThr t { T with st := .ready })) ∧
    (T.st ≠ .halted → (∀ k ∈ T.pegs, t.val ∉ (s.peg k).waiters) → ∃ u, exec (.threadKill t) s = .next u ∧ (u.thr t).st = .halted ∧ (u.thr t).openMsg = none ∧ (u.thr t).pegs = [] ∧
      (u.thr t).pkts = []) ∧
    (T.st = .halted → exec (.threadKill t) s = .next s)) ∧
  (∀ (t : Fin 1536) (v : Word) (s : State),
    let one (f : Field) (w : Word) : Word := if f.of w = 0 then f.ins w 1 else w
    let w := writeFields false Reg.CLU_THR_SHARE (s.rd Reg.CLU_THR_SHARE t) v
    let u := s.wr Reg.CLU_THR_SHARE t (one Fld.CLU_THR_SHARE_PKT (one Fld.CLU_THR_SHARE_ENG w))
    ((s.thr t).st = .halted → u.engStatic (cluOf t) ≤ 1536 → u.pktStatic (cluOf t) ≤ 384 → exec (.threadShareWrite t v) s = .next u) ∧
    ((s.thr t).st ≠ .halted → exec (.threadShareWrite t v) s = .next (s.fset Fld.CLU_SHARE_POOL_SHARE_REFUSED (cluOf t) 1))) ∧
  (∀ (c : Fin 8) (s : State),
    (s.oldCount c ≠ 0 → exec (.imageCommit c) s = .next (s.fset Fld.CLU_IMAGE_STATUS_SWAP_REFUSED c 1)) ∧
    (s.oldCount c = 0 → ∃ u, exec (.imageCommit c) s = .next u ∧
      u.fget Fld.CLU_PROG_EPOCH_EPOCH c = (s.fget Fld.CLU_PROG_EPOCH_EPOCH c + 1) % 256 ∧
      u.fget Fld.CLU_PROG_EPOCH_ACTIVE_IMAGE c = 1 - s.fget Fld.CLU_PROG_EPOCH_ACTIVE_IMAGE c)) ∧
  (∀ (c : Fin 8) (off : Nat) (data : List Byte) (s : State), data ≠ [] → off + data.length ≤ 0x40000 →
    (s.imageInUse c false = false → ∃ u, exec (.programMemoryWrite c (.bytes off data)) s = .next u ∧
      u.memBytes (programBase c + off) data.length = data ∧
      ∀ a, (a < programBase c + off ∨ programBase c + off + data.length ≤ a) → u.memByte a = s.memByte a) ∧
    (s.imageInUse c false = true →
      exec (.programMemoryWrite c (.bytes off data)) s = .next (s.fset Fld.CLU_IMAGE_STATUS_IMAGE_WRITE_REFUSED c 1))) ∧
  (∀ (c : Fin 8) (v : BitVec 16) (s : State), exec (.programMemoryWrite c (.entry false v)) s =
    .next (if s.imageInUse c false then s.fset Fld.CLU_IMAGE_STATUS_IMAGE_WRITE_REFUSED c 1 else s.fset Fld.CLU_IMAGE_CTL_ENTRY_A c v.toNat)) ∧
  (∀ (c : Fin 8) (s : State), let t := s.supervisor c
    ((s.fbit Fld.CLU_SUPV_SILENCE_EN c = false ∨ s.silent c = false) → exec (.silenceDetected c) s = .next s) ∧
    (s.fbit Fld.CLU_SUPV_SILENCE_EN c = true → s.silent c = true → (s.thr t).st ≠ .halted →
      ∃ u, exec (.silenceDetected c) s = .next u ∧ (u.thr t).st = .ready ∧ (u.thr t).wait = none ∧
        (u.thr t).a.pc = BitVec.ofNat 64 (4 * if (s.thr t).image then s.fget Fld.CLU_SUPV_SILENCE_VEC_B c else s.fget Fld.CLU_SUPV_SILENCE_VEC_A c) ∧
        u.fget Fld.CLU_SUPV_STATUS_SILENCE_COUNT c = (s.fget Fld.CLU_SUPV_STATUS_SILENCE_COUNT c + 1) % 65536))

/-- A configuration write to an idle channel other than index 0 stores its fields, and to a busy one only sets CFG_BUSY. A send port takes
data and a command from its own core while it is not busy; a sound command joins the writer FIFO and is BUSY, at the head with room it
commits its words with source ID 0xE000 + k, and an abort withdraws it with RESULT 4. -/
def Obligations.SendPortsComplete : Prop :=
  (∀ (c : Fin 8) (ix : Fin 2048) (v : Word) (s : State), let id := c.val * 2048 + ix.val
    (ix ≠ 0 → (s.chan id).committed + (s.chan id).reserved = 0 → (s.chan id).readers = [] → (s.chan id).writers = [] →
      exec (.channelCfgWrite c ix v) s = .next (s.wr Reg.CLU_CHAN_CFG id (writeFields false Reg.CLU_CHAN_CFG (s.rd Reg.CLU_CHAN_CFG id) v))) ∧
    (ix ≠ 0 → ((s.chan id).committed + (s.chan id).reserved ≠ 0 ∨ (s.chan id).readers ≠ [] ∨ (s.chan id).writers ≠ []) →
      exec (.channelCfgWrite c ix v) s = .next (s.fset Fld.CLU_CHAN_STATUS_CFG_BUSY id 1)) ∧
    (ix = 0 → exec (.channelCfgWrite c ix v) s = .next s)) ∧
  (∀ (k : Fin 16) (n : Fin 32) (ch : BitVec 16) (w : Fin 16) (v : Word) (s : State), s.fbit Fld.PEG_SEND_STATUS_BUSY k = false →
    exec (.sendDataWrite (0xE000 + k.val) k w v) s = .next (s.wr Reg.PEG_SEND_DATA (ix2 16 k w) v) ∧
    (s.portResult ch.toNat n = 0 → let key := chanKey ch.toNat 8
      ∃ u, exec (.sendPortGo (0xE000 + k.val) k n ch) s = .next u ∧ (u.chan key).writers = (s.chan key).writers ++ [.port k] ∧
        mfind u.ports k = some { ch := key, count := n } ∧ u.fbit Fld.PEG_SEND_STATUS_BUSY k = true ∧ u.mem = s.mem) ∧
    (s.portResult ch.toNat n ≠ 0 → ∃ u, exec (.sendPortGo (0xE000 + k.val) k n ch) s = .next u ∧ u.chans = s.chans ∧ u.ports = s.ports)) ∧
  (∀ (k : Fin 16) (p : PortCmd) (s : State), mfind s.ports k = some p →
    (∃ u, exec (.sendPortAbort (0xE000 + k.val) k) s = .next u ∧ (u.chan p.ch).writers = (s.chan p.ch).writers.erase (.port k) ∧
      u.fget Fld.PEG_SEND_STATUS_RESULT k = 4 ∧ u.fbit Fld.PEG_SEND_STATUS_BUSY k = false) ∧
    ((s.chan p.ch).writers.head? = some (.port k) → (s.chan p.ch).units = [] → p.count ≤ (s.chan p.ch).room →
      ∃ u, exec (.sendPortCommit k) s = .next u ∧
        (u.chan p.ch).msgs = (s.chan p.ch).msgs ++ [({ src := 0xE000 + k, words := (List.range p.count).map fun i => s.rd Reg.PEG_SEND_DATA (ix2 16 k i) } : Msg)] ∧
        (u.chan p.ch).writers = (s.chan p.ch).writers.tail ∧ u.fbit Fld.PEG_SEND_STATUS_BUSY k = false))

/-! ### Parsing, classification, flow cache and actions (chapter 04) -/

namespace Sys2Proof.Claims

/-- A frame stands at a stage under a handle. -/
def frameAt (s : State) (h : Nat) (f : Frame) : Prop := s.frame? h = some f

/-- A frame has gone: no handle names it, and no cell is charged to it. -/
def gone (s : State) (h : Nat) : Prop := s.frame? h = none

/-- The conditions of R191 under which a MAC accepts a frame: its link is UP in an Ethernet mode, no warm restart is dark, the length with FCS
is 64 to MAX_FRAME, the FCS is right, reception did not end early, it is no MAC control frame, and MACsec is off. -/
def macAccepts (s : State) (m : Fin 32) (bytes : List Byte) : Prop :=
  s.dark = false ∧ s.fget Fld.PRT_MAC_STATUS_STATE m = 4 ∧ s.fget Fld.PRT_PORT_CFG_MODE (m / 8) ≠ 4 ∧ 64 ≤ bytes.length + 4 ∧
  bytes.length + 4 ≤ max 64 (s.fget Fld.PRT_MAC_CFG_MAX_FRAME m) ∧ etherType bytes ≠ 0x8808 ∧ s.fget Fld.PRT_MAC_CFG_MACSEC m = 0

/-- What the frame of a walk that ended in `r` comes to (R93 to R96). -/
def walked (f : Frame) (w : WalkSt) : WalkEnd → Option Frame
  | .drop => none
  | .accept p => some { f with hv := metadata f w none p, profile := p, stage := .classify false }
  | .exc c => some { f with hv := metadata f w (some c) 15, profile := 15, stage := .classify true }

end Sys2Proof.Claims

/-- A frame that its MAC accepts is counted and, with room in the ingress region and in its source's queue, enters under the next handle with
its bytes, source, instance and start state; with no room it is counted and dropped. A bad FCS, a runt and an oversize frame only count. The
codewords that the port's FEC corrected, or could not correct, are counted with each.
PARSE_WALK leaves the frame as its walk says: classified next under the profile accepted, an exception with profile 15, or dropped.
A write to the inactive parse bank is stored, one to the active bank only sets GRAPH_WRITE_REFUSED; a commit flips the bank. AGE_PERIOD_WRITE
and MIRROR_WRITE store their fields, the second with its count at 0. -/
def Obligations.FramesEnterAndParse : Prop :=
  (∀ (m : Fin 32) (bytes : List Byte) (fec : FecNote) (r : State), let s := r.fecCount (m.val / 8) fec
    macAccepts s m bytes →
    let t := (s.bump Fld.PRTC_RX_FRAMES_COUNT m).fadd Fld.PRTC_RX_BYTES_COUNT m (bytes.length + 4)
    let h := s.handles % 2 ^ 24
    (t.ingRoom (bytes.length + 4) = true → t.srcQueue m < 64 → ∃ u f, exec (.frameReceive m bytes ⟨true, fec⟩ false) r = .next u ∧
      frameAt u h f ∧ f.bytes = bytes ∧ f.src = m.val ∧ f.inst = s.fget Fld.PAR_SRC_CFG_INSTANCE m ∧
      f.stage = .parse (s.fget Fld.PAR_SRC_CFG_START m) ∧ f.cells = (bytes.length + 4 + 255) / 256 ∧ f.charge = .ingress ∧
      u.handles = s.handles + 1 ∧ u.mem = s.mem ∧ u.threads = s.threads ∧ u.chans = s.chans) ∧
    (t.ingRoom (bytes.length + 4) = false → exec (.frameReceive m bytes ⟨true, fec⟩ false) r = .next (t.bump Fld.TMC_ING_FULL_COUNT)) ∧
    exec (.frameReceive m bytes ⟨false, fec⟩ false) r = .next (s.bump Fld.PRTC_RX_FCS_ERR_COUNT m)) ∧
  (∀ (m : Fin 32) (bytes : List Byte) (ok early : Bool) (fec : FecNote) (r : State), let s := r.fecCount (m.val / 8) fec
    s.dark = false → s.fget Fld.PRT_MAC_STATUS_STATE m = 4 → s.fget Fld.PRT_PORT_CFG_MODE (m / 8) ≠ 4 →
    (bytes.length + 4 < 64 → exec (.frameReceive m bytes ⟨ok, fec⟩ early) r = .next (s.bump Fld.PRTC_RX_RUNT_COUNT m)) ∧
    (max 64 (s.fget Fld.PRT_MAC_CFG_MAX_FRAME m) < bytes.length + 4 →
      exec (.frameReceive m bytes ⟨ok, fec⟩ early) r = .next (s.bump Fld.PRTC_RX_OVERSIZE_COUNT m))) ∧
  (∀ (h : Nat) (f : Frame) (start : Nat) (s : State), frameAt s h f → f.stage = .parse start →
    let r := s.parseFrom (s.fget Fld.PAR_GRAPH_CTL_ACTIVE 0) f.bytes 32 start { off := 0, hv := hvBlank, chk := 0 }
    ∃ u, exec (.parseWalk h) s = .next u ∧ u.mem = s.mem ∧ u.threads = s.threads ∧ u.chans = s.chans ∧
      (∀ f', walked f r.1 r.2 = some f' → frameAt u h f') ∧ (walked f r.1 r.2 = none → gone u h)) ∧
  (∀ (o : Nat) (v : Word) (r : RegDesc) (i b : Nat) (s : State), parseMemAt o = some (r, i, b) →
    (b ≠ s.fget Fld.PAR_GRAPH_CTL_ACTIVE 0 → exec (.parseMemoryWrite o v) s = .next (s.wr r i (writeFields false r (s.rd r i) v))) ∧
    (b = s.fget Fld.PAR_GRAPH_CTL_ACTIVE 0 →
      exec (.parseMemoryWrite o v) s = .next (s.fset Fld.PAR_GRAPH_CTL_GRAPH_WRITE_REFUSED 0 1))) ∧
  (∀ (walking : Bool) (s : State),
    (s.fbit Fld.PAR_GRAPH_CTL_PENDING 0 = false → ∃ u, exec (.parseGraphCommit walking) s = .next u ∧
      u.fget Fld.PAR_GRAPH_CTL_ACTIVE 0 = 1 - s.fget Fld.PAR_GRAPH_CTL_ACTIVE 0 ∧ u.fbit Fld.PAR_GRAPH_CTL_PENDING 0 = walking) ∧
    (s.fbit Fld.PAR_GRAPH_CTL_PENDING 0 = true →
      exec (.parseGraphCommit walking) s = .next (s.fset Fld.PAR_GRAPH_CTL_COMMIT_REFUSED 0 1))) ∧
  (∀ (v : Word) (s : State), exec (.agePeriodWrite v) s =
    .next (s.wr Reg.PAR_FC_CFG 0 (writeFields false Reg.PAR_FC_CFG (s.rd Reg.PAR_FC_CFG 0) v))) ∧
  (∀ (k : Fin 64) (v : Word) (s : State), ∃ u, exec (.mirrorWrite k v) s = .next u ∧ mget 0 u.mirrorCount k = 0 ∧
    u.rd Reg.ACT_MIRROR k = writeFields false Reg.ACT_MIRROR (s.rd Reg.ACT_MIRROR k) v)

/-- A parsed frame whose key is on chip with TO_THREAD = 0, no follower waiting, goes to the action engine with the entry's list, and the entry
has AGE 0 and is marked hit; on a miss with MODE 0, or with no flow table, it goes on the thread path with reason 1; an exception frame goes
there with reason 3. A DDR5 result without an entry sends it there with reason 1, and one with an entry whose key has come onto the thread
path meanwhile with reason 7. An age visit with the scanner stopped does nothing, and
otherwise gives an entry that was not hit one more AGE. An insert answers EXISTS where the key is on chip, and otherwise writes the entry where
R100 places it; a remove takes the entry away. -/
def Obligations.ClassificationAndInstalls : Prop :=
  (∀ (h : Nat) (f : Frame) (d : Bool) (s : State), frameAt s h f → s.earlierFrame f = false →
    let key := s.keyOf f.hv f.profile f.inst
    let hash := s.flowHash f.profile key
    let g := f.withKey key hash
    (f.stage = .classify true → exec (.classify h d) s =
      .next (s.dispatch h (f.withKey (key.take 56) (s.flowHash 15 (key.take 56))) 3 0)) ∧
    (f.stage = .classify false → s.fbit Fld.PAR_KEY_PROFILE_VALID f.profile = true → key.length ≤ 56 → s.earlierDdr g key = false →
      (s.fget Fld.PAR_KEY_PROFILE_MODE f.profile = 0 ∨ s.fget Fld.PAR_KEY_PROFILE_MODE f.profile = 1) →
      (∀ i, s.fcFind hash key = some i → fcToThread (s.slot i).w0 = false → s.keyPending key = false →
        ∃ u, exec (.classify h d) s = .next u ∧ (∃ g', frameAt u h g' ∧ g'.stage = .action (some (fcList (s.slot i).w0)) [] ∧ g'.key = key) ∧
          u.actFifo = s.actFifo ++ [h] ∧ fcAge (u.slot i).w0 = 0 ∧ (u.slot i).hit = true ∧ u.mem = s.mem) ∧
      (s.fcFind hash key = none → (s.fget Fld.PAR_KEY_PROFILE_MODE f.profile = 0 ∨ s.ftOn = false) →
        exec (.classify h d) s = .next (s.dispatch h g 1 0)) ∧
      (s.fcFind hash key = none → s.keyPending key = false → s.fget Fld.PAR_KEY_PROFILE_MODE f.profile = 1 → s.ftOn = true →
        exec (.classify h true) s = .next (s.setFrame h { g with stage := .ddr }) ∧ exec (.classify h false) s = .next (s.dispatch h g 5 0)))) ∧
  (∀ (h : Nat) (f : Frame) (s t : State) (b : List Byte), frameAt s h f → f.stage = .ddr → s.earlierDdr f f.key = false →
    s.ftBucket f.hash + 512 ≤ s.ddrCapacity → s.ddrRead (s.ftBucket f.hash) 512 = (some b, t) →
    (ftFind b f.hash f.key = none → exec (.ddrFlowResult h) s = .next (t.dispatch h f 1 0)) ∧
    (∀ j, ftFind b f.hash f.key = some j → fcToThread (ftEntry b j).1 = false →
      (s.keyPending f.key = false → ∃ u g, exec (.ddrFlowResult h) s = .next u ∧ frameAt u h g ∧
        g.stage = .action (some (fcList (ftEntry b j).1)) []) ∧
      (s.keyPending f.key = true → ∃ u : State, exec (.ddrFlowResult h) s = .next (u.dispatch h f 7 (fcList (ftEntry b j).1)) ∧ u.frames = t.frames))) ∧
  (∀ (set : Nat) (s : State), s.fget Fld.PAR_FC_CFG_AGE_PERIOD 0 = 0 → exec (.flowAgeVisit set) s = .next s) ∧
  (∀ (s : State) (i : Nat), s.isCont i = false → fcValid (s.slot i).w0 = true → (s.slot i).hit = false → fcIdleTo (s.slot i).w0 = 0 →
    fcAge ((s.ageEntry i).slot i).w0 = min 15 (fcAge (s.slot i).w0 + 1) ∧ fcList ((s.ageEntry i).slot i).w0 = fcList (s.slot i).w0) ∧
  (∀ (set : Nat) (s : State), s.fget Fld.PAR_FC_CFG_AGE_PERIOD 0 ≠ 0 → set < 131072 →
    exec (.flowAgeVisit set) s = .next ((List.range 8).foldl (fun t w => t.ageEntry (set * 8 + w)) s)) ∧
  (∀ (sec : Fin 9) (m : Msg) (key : List Byte) (s t : State), s.takeUnit 0x8000 sec = some (m, t) → installKey m = some key → s.ftOn = false →
    let hash := s.flowHash (keyProfile key) key
    (bits (m.word 0) 39 36 = 1 → ∀ i, s.fcFind hash key = some i → exec (.flowInsert sec) s = .next (t.installReply m 1 i)) ∧
    (∀ op ∈ [1, 2], bits (m.word 0) 39 36 = op → s.fcFind hash key = none → s.fcUsed (keyInst key) + slotsFor key.length ≤ s.fcCap (keyInst key) →
      fcBacked (m.word 1) = false → ∀ i v, t.fcPlace hash (keyInst key) (slotsFor key.length) = some (i, v) →
      ∃ u, exec (if op = 1 then .flowInsert sec else .flowInsertReplace sec) s = .next u ∧ fcList (u.slot i).w0 = fcList (m.word 1) ∧
        bit (u.slot i).w0 63 = true ∧ u.mem = s.mem) ∧
    (bits (m.word 0) 39 36 = 3 → ∀ i, s.fcFind hash key = some i → ∃ u, exec (.flowRemove sec) s = .next u ∧ u.slot i = FcSlot.empty) ∧
    (bits (m.word 0) 39 36 = 3 → s.fcFind hash key = none → ∃ u, exec (.flowRemove sec) s = .next u ∧ u.fc = s.fc))

/-- A disposal message that names a packet of its writer moves that packet to the action engine with its base list and inline words, out of
its thread's packet slots; a handoff leaves it with firmware; a message that names none counts NO_PACKET. At the head of the action engine a
list that sets a queue sends the frame on, one that drops it or that sets no queue drops it. A late check ends a frame that has started to
leave with the inverse FCS and frees it, marks one at a host, and drops any other; one that can no longer fail for the frame changes
nothing. -/
def Obligations.ActionsDisposeOfFrames : Prop :=
  (∀ (sec : Fin 9) (m : Msg) (s t : State), s.takeUnit 0x8001 sec = some (m, t) →
    (isHandoff m = false → t.namedPacket m = none → exec (.actionMessage sec) s = .next (t.bump Fld.ACTC_NO_PACKET_COUNT)) ∧
    (isHandoff m = true → t.namedPacket m = none → exec (.handoff sec) s = .next (t.bump Fld.ACTC_NO_PACKET_COUNT)) ∧
    (∀ h f, t.namedPacket m = some h → frameAt t h f →
      (isHandoff m = false → ∃ u g, exec (.actionMessage sec) s = .next u ∧ frameAt u h g ∧
        g.stage = .action (if bit (m.word 0) 43 then some (bits (m.word 0) 63 44) else none) (m.words.drop (if bit (m.word 0) 41 then 2 else 1)) ∧
        g.bytes = f.bytes ∧ u.actFifo = s.actFifo ++ [h] ∧ (m.src < 0xE000 → (u.thr m.src).pkts = (s.thr m.src).pkts.erase h) ∧ u.mem = s.mem) ∧
      (isHandoff m = true → t.handedOff < 4096 → ∃ u g, exec (.handoff sec) s = .next u ∧ frameAt u h g ∧ g.stage = .handed ∧
        g.bytes = f.bytes ∧ (u.thr m.src).pkts = (s.thr m.src).pkts.erase h ∧ u.mem = s.mem))) ∧
  (∀ (h : Nat) (rest : List Nat) (f : Frame) (base : Option Nat) (ws : List Word) (s : State), frameAt s h f → s.actFifo = h :: rest →
    f.stage = .action base ws → (base = none ∨ base = some 0) →
    (beforeEnd ws = [] → f.queue = none → ∃ u, exec (.actionListApply h) s = .next u ∧ gone u h ∧
      u.fget Fld.ACTC_NO_QUEUE_COUNT 0 = min (s.fget Fld.ACTC_NO_QUEUE_COUNT 0 + 1) (2 ^ Fld.ACTC_NO_QUEUE_COUNT.w - 1)) ∧
    (∀ q : Nat, q < 2 ^ 18 → beforeEnd ws = [BitVec.ofNat 64 (0xC * 2 ^ 60 + q)] → f.cipher = none →
      ∃ u, exec (.actionListApply h) s = .next u ∧ frameAt u h { f with queue := some q, stage := .admitting } ∧ u.tmIn = s.tmIn ++ [h] ∧
        u.actFifo = rest ∧ u.mem = s.mem ∧ u.regs = s.regs) ∧
    (∀ r : Nat, r < 256 → beforeEnd ws = [BitVec.ofNat 64 (0xE * 2 ^ 60 + r)] → ∃ u, exec (.actionListApply h) s = .next u ∧ gone u h)) ∧
  (∀ (h : Nat) (f : Frame) (c : LateCheck) (s : State), frameAt s h f →
    (lateOpen f c = false → exec (.lateCheckFail h c) s = .next s) ∧
    (lateOpen f c = true →
      (∀ e < 32, f.stage = .sending e → ∃ u, exec (.lateCheckFail h c) s = .next u ∧ gone u h ∧ Event.fcsTerminate e ∈ u.out) ∧
      (∀ p : Nat, c ≠ .hostPoison → f.stage = .sending (32 + p) → ((s.cuePort p).queue.any fun o => o.h == some h) = false →
        (s.cuePort p).last = some h → ∃ u, exec (.lateCheckFail h c) s = .next u ∧ gone u h ∧ Event.fcsTerminate (32 + p) ∈ u.out) ∧
      (∀ q, f.stage = .host q → f.late = 0 → ∃ u g, exec (.lateCheckFail h c) s = .next u ∧ frameAt u h g ∧ g.late = lateCheckStatus c) ∧
      ((∀ e, f.stage ≠ .sending e) → (∀ q, f.stage ≠ .host q) → (c = .bufferError → f.stage ≠ .storage) →
        ∃ u, exec (.lateCheckFail h c) s = .next u ∧ gone u h)))

/-! ### Forwarding tables (chapter 05) -/

namespace Sys2Proof.Claims

/-- Every write that a lock slot's overlay holds names an element of the tables, as every window write that enters one does. -/
def batchSound (s : State) (k : Nat) : Prop := ∀ o ∈ mget [] s.overlay k, (s.elemAt o.addr).isSome = true

end Sys2Proof.Claims

/-- TABLE_LOCK of a free slot on a region no slot holds locks it, and on a held region sets CONFLICT. A whole-slot window write in a locked
region goes to the slot's overlay and leaves the table as it was; outside any lock it only counts EM_UNLOCKED. TABLE_RELEASE and TABLE_PUBLISH
move the overlay behind the elements that drain and advance GEN, an ABORT discards it, and OVERLAY_DRAIN writes the oldest element to the table.
FRET_WRITE stores a fret that keeps the order and moves no entry out of its range, and otherwise only sets FRET_REFUSED. -/
def Obligations.LocksPublishAtomically : Prop :=
  (∀ (k : Fin 64) (v : Word) (s : State), s.fbit Fld.TBL_LOCK_LOCK k = false → bit v 61 = false → bit v 60 = false → bit v 59 = false →
    (s.lockOf (Fld.TBL_LOCK_REGION.of v) = none → ∃ u, exec (.tableLock k v) s = .next u ∧ u.fbit Fld.TBL_LOCK_LOCK k = true ∧
      u.fget Fld.TBL_LOCK_REGION k = Fld.TBL_LOCK_REGION.of v ∧ u.overlay = s.overlay ∧ u.mem = s.mem) ∧
    (∀ j : Nat, j ≠ k.val → s.lockOf (Fld.TBL_LOCK_REGION.of v) = some j → ∃ u, exec (.tableLock k v) s = .next u ∧
      u.fbit Fld.TBL_LOCK_LOCK k = false ∧ u.fbit Fld.TBL_LOCK_CONFLICT k = true)) ∧
  (∀ (k : Fin 64) (v : Word) (s : State), s.fbit Fld.TBL_LOCK_LOCK k = true → bit v 61 = false → bit v 60 = false → bit v 59 = false →
    (s.fbit Fld.TBL_LOCK_OVERFLOW k = false → batchSound s k → ∃ u, exec (.tableRelease k v) s = .next u ∧ u.fbit Fld.TBL_LOCK_LOCK k = false ∧
      u.draining = s.draining ++ mget [] s.overlay k ∧ mget [] u.overlay k = [] ∧
      u.fget Fld.TBL_LOCK_GEN k = (s.fget Fld.TBL_LOCK_GEN k + 1) % 2 ^ Fld.TBL_LOCK_GEN.w) ∧
    (s.fbit Fld.TBL_LOCK_OVERFLOW k = true → ∃ u, exec (.tableRelease k v) s = .next u ∧ u.fbit Fld.TBL_LOCK_LOCK k = false ∧
      u.draining = s.draining ∧ u.fbit Fld.TBL_LOCK_DISCARDED k = true) ∧
    (∃ u, exec (.tableLockAbort k v) s = .next u ∧ u.fbit Fld.TBL_LOCK_LOCK k = false ∧ u.draining = s.draining ∧ mget [] u.overlay k = [])) ∧
  (∀ (v : Word) (s : State), (∀ k < 64, bit v k = false) → exec (.tablePublish v) s = .next s) ∧
  (∀ (k : Fin 64) (s : State), s.fbit Fld.TBL_LOCK_LOCK k = true → s.fbit Fld.TBL_LOCK_OVERFLOW k = false → batchSound s k →
    ∃ u, exec (.tablePublish (BitVec.ofNat 64 (2 ^ k.val))) s = .next u ∧ u.draining = s.draining ++ mget [] s.overlay k) ∧
  (∀ (b : Fin 4) (i : Fin 524288) (data : List Byte) (s : State), data.length = 32 →
    let e := ElemAt.em b i
    (s.lockOf (tblRegion (elemAddr e)) = none →
      exec (.tableWindowWrite (elemAddr e) data) s = .next (s.bump Fld.TBLC_EM_UNLOCKED_COUNT b)) ∧
    (∀ k, s.lockOf (tblRegion (elemAddr e)) = some k → (mget [] s.overlay k).all (fun o => o.addr != elemAddr e) = true → s.overlayCount < 4096 →
      ∃ u, exec (.tableWindowWrite (elemAddr e) data) s = .next u ∧
        mget [] u.overlay k = mget [] s.overlay k ++ [⟨k, elemAddr e, elemMask e (wordsOf data)⟩] ∧ u.regs = s.regs ∧ u.mem = s.mem)) ∧
  (∀ (o : OvEl) (rest : List OvEl) (e : ElemAt) (s : State), s.draining = o :: rest → s.elemAt o.addr = some e →
    ∃ u, exec .overlayDrain s = .next u ∧ u.draining = rest ∧ u.overlay = s.overlay ∧
      ∀ b i, e = .em b i → u.rawElem e = (List.range 4).map fun n => o.words.getD n 0) ∧
  (∀ s : State, s.draining = [] → exec .overlayDrain s = .next s) ∧
  (∀ (f : Fin 64) (v : Word) (s : State), let t := s.wr Reg.TBL_FRET f (writeFields false Reg.TBL_FRET (s.rd Reg.TBL_FRET f) v)
    (s.tcamUsed = [] → t.fretsOrdered t.validFrets = true → t.fget Fld.TBL_FRET_PLEN_LO f ≤ t.fget Fld.TBL_FRET_PLEN_HI f →
      t.fget Fld.TBL_FRET_PLEN_HI f ≤ 128 → exec (.fretWrite f v) s = .next t) ∧
    (t.fretsOrdered t.validFrets = false → exec (.fretWrite f v) s = .next (s.fset Fld.TBL_STATUS_FRET_REFUSED 0 1)))

/-- The oldest lookup of a bank leaves and LOOKUPS counts; its thread's engine slot is freed where the reply channel takes the reply or is off,
and stays held where the channel has no room. A lookup before which nothing was published answers, for an exact-match key on chip, its entry's
location and DATA, an LPM search its lowest matching entry, and a table that is not VALID answers status 4. A learn request of a visible learned
key whose location is unchanged refreshes its entry; UNLEARN of one frees it; a request for a locked bucket parks with its sequence number and
PARKED_RESUME takes the first that can go on. An age visit visits every slot of its bucket, and one that is due ages an entry not refreshed. A
compare of a locked slot changes nothing, one that finds no difference only reads the shadow, and one that finds one records it; SHADOW_RECHECK of no recorded difference changes nothing. -/
def Obligations.LookupsAndLearning : Prop :=
  (∀ (bank : Fin 5) (x : Bool) (l : Lookup) (s : State), (s.lookups.find? fun l => s.lkpBank l.profile == bank) = some l →
    ∃ u, exec (.lookupComplete bank x .clean) s = .next u ∧ u.lookups = s.lookups.erase l ∧
      ((0x4000 ≤ l.ch ∨ s.chanEn l.ch = false ∨ ((s.chan l.ch).units = [] ∧ 2 ≤ (s.chan l.ch).room)) →
        (u.thr l.t).engHeld = (s.thr l.t).engHeld - 1) ∧
      (l.ch < 0x4000 → s.chanEn l.ch = true → (s.chan l.ch).room < 2 → (u.thr l.t).engHeld = (s.thr l.t).engHeld) ∧
      u.fget Fld.TBLC_LOOKUPS_COUNT bank = min (s.fget Fld.TBLC_LOOKUPS_COUNT bank + 1) (2 ^ Fld.TBLC_LOOKUPS_COUNT.w - 1)) ∧
  (∀ (l : Lookup) (s : State), s.fbit Fld.TBL_EM_TABLE_VALID (s.fget Fld.TBL_LKP_PROFILE_TABLE l.profile) = false →
    ∀ x e, s.emLookup l x e = (some (.miss 4), s)) ∧
  (∀ (l : Lookup) (x : Bool) (b i : Nat) (s : State), let table := s.fget Fld.TBL_LKP_PROFILE_TABLE l.profile
    let k : EmKey := ⟨table, bits (l.words.getD 0 0) 59 48, bits (l.words.getD 0 0) 47 0, l.words.getD 1 0, s.fbit Fld.TBL_EM_TABLE_KEY_WORDS2 table⟩
    l.before = [] → s.fbit Fld.TBL_EM_TABLE_VALID table = true → s.fget Fld.TBL_EM_TABLE_BANK table = b → s.emFind b k = some (.em b i) →
    s.fbit Fld.TBL_EM_TABLE_AGE_ON_HIT (emTable ((s.elem (.em b i)).getD 0 0)) = false →
    s.emLookup l x .clean = (some ⟨0, 0, false, emIx b i, true, (s.elem (.em b i)).getD 3 0⟩, s)) ∧
  (∀ (l : Lookup) (i : Nat) (s : State), let w (n : Nat) : Word := l.words.getD n 0
    l.before = [] → s.tcamFind (s.fget Fld.TBL_LKP_PROFILE_TID l.profile) (bits (w 0) 59 48) (bits (w 0) 15 0) (w 1) (w 2) = some i →
    s.lpmSearch l .clean = (⟨0, bits ((s.elem (.tcam i)).getD 0 0) 55 48, false, i, true, (s.elem (.tcam i)).getD 3 0⟩, s)) ∧
  (∀ (sec : Fin 9) (m : Msg) (s t : State), s.takeUnit 0x8002 sec = some (m, t) → s.learnReady m = true →
    let b := s.fget Fld.TBL_EM_TABLE_BANK (learnTable m)
    let seq := mget 0 s.learnSeq b
    let i := if learnOp m = 1 then Instr.unlearn sec else .learn sec
    (s.learnOk m = true → s.keyLocked b (s.learnKey m) = true → ∃ u, exec i s = .next u ∧ u.parked = s.parked ++ [⟨b, seq, m⟩] ∧
      mget 0 u.learnSeq b = seq + 1 ∧ u.mem = s.mem) ∧
    (s.learnOk m = true → s.keyLocked b (s.learnKey m) = false → s.parkedKey b (s.learnKey m) seq = false → s.draining = [] →
      ∀ j, s.learnFind b (s.learnKey m) = some (.em b j) → emLearned ((s.elem (.em b j)).getD 0 0) = true →
      (learnOp m = 1 → ∃ u, exec (.unlearn sec) s = .next u ∧ emValid ((u.elem (.em b j)).getD 0 0) = false ∧ mget 0 u.learnSeq b = seq + 1) ∧
      (learnOp m = 0 → bit ((s.elem (.em b j)).getD 0 0) 60 = false →
        s.location (learnTable m) ((s.elem (.em b j)).getD 3 0) = s.location (learnTable m) (s.learnData m) →
        ∃ u, exec (.learn sec) s = .next u ∧ (u.elem (.em b j)).getD 3 0 = s.learnData m ∧ emAge ((u.elem (.em b j)).getD 0 0) = 0))) ∧
  (∀ (bank : Fin 4) (p : Parked) (s : State), s.resumable bank = some p → ∃ u, exec (.parkedResume bank) s = .next u ∧ u.parked = s.parked.erase p) ∧
  (∀ (bank : Fin 4) (bucket : Nat) (due : Bool) (s : State), bucket < 131072 → (∀ e ∈ emSlots bank bucket, emValid ((s.elem e).getD 0 0) = false) →
    exec (.emAgeScan bank false bucket due) s = .next s) ∧
  (∀ (bank : Fin 4) (bucket : Nat) (due : Bool) (s : State), s.fget Fld.TBL_EM_BANK_AGE_PERIOD bank ≠ 0 →
    (bucket < 131072 → exec (.emAgeScan bank false bucket due) s = .next ((emSlots bank bucket).foldl (fun t e => t.emAgeSlot due e) s)) ∧
    (256 * bucket < s.extBytes bank →
      exec (.emAgeScan bank true bucket due) s = .next ((extSlots bank bucket).foldl (fun t e => t.emAgeSlot due e) s))) ∧
  (∀ (e : ElemAt) (b i : Nat) (s : State), e = .em b i → s.draining = [] → let w0 := (s.elem e).getD 0 0
    emLearned w0 = true → bit w0 59 = false → mget false s.emFresh (freshKey e) = false → s.fget Fld.TBL_EM_TABLE_IDLE_TO (emTable w0) = 0 →
    emAge (((s.emAgeSlot true e).elem e).getD 0 0) = min 15 (emAge w0 + 1)) ∧
  (∀ (index : Nat) (sh : List Word) (s t : State), let e := cmpElem false index
    index < 2097152 → s.fbit Fld.TBL_SWEEP_CFG_EM_EN 0 = true → s.elemLocked e = false → s.draining = [] → s.readShadow e = (some sh, t) →
    (cmpFields false (t.elem e) = cmpFields false sh → exec (.shadowCompare false index .clean) s = .next t) ∧
    (cmpFields false (t.elem e) ≠ cmpFields false sh → exec (.shadowCompare false index .clean) s =
      .next { t with tblDiffs := t.tblDiffs ++ [⟨false, index, t.elem e, sh, false⟩] })) ∧
  (∀ (index : Nat) (ecc : EccEvent) (s : State), s.elemLocked (cmpElem false index) = true →
    exec (.shadowCompare false index ecc) s = .next s) ∧
  (∀ (tcam : Bool) (index : Nat) (s : State), (s.tblDiffs.find? fun d => d.tcam == tcam && d.index == index) = none →
    exec (.shadowRecheck tcam index) s = .next s) ∧
  (∀ (index : Nat) (d : TblDiff) (sh : List Word) (s t : State), let e := cmpElem false index
    (s.tblDiffs.find? fun d => d.tcam == false && d.index == index) = some d → s.elemLocked e = false → s.draining = [] →
    State.readShadow { s with tblDiffs := s.tblDiffs.erase d } e = (some sh, t) → cmpFields false (t.elem e) = cmpFields false d.live →
    cmpFields false sh = cmpFields false d.shadow → cmpFields false d.live ≠ cmpFields false d.shadow → s.fbit Fld.TBL_SWEEP_CFG_REPAIR 0 = false →
    ∃ u, exec (.shadowRecheck false index) s = .next u ∧ u.tblDiffs = s.tblDiffs.erase d ∧ u.fbit Fld.TBL_STATUS_MISMATCH 0 = true)

/-! ### Traffic manager (chapter 06) -/

/-- A frame whose turn it is, whose queue is VALID with room under Q_MAX and no WRED, and whose instance has reserved cells for it, joins the
tail of its queue charged to them, with the generation that the queue's instance has then. An invalid queue and a queue that would pass Q_MAX
drop it, counted. The oldest overflow frame that is not on chip comes back there, its cells charged to the overflow as before. A flush empties
its queue and is BUSY until FLUSH_COMPLETE; a flush while BUSY is only marked refused. -/
def Obligations.AdmissionAndFlush : Prop :=
  (∀ (h q : Nat) (f : Frame) (rate : Bool) (s : State), q < 262144 → frameAt s h f → f.stage = .admitting → f.queue = some q →
    f.copy = true ∨ s.admitTurn h q = true →
    (s.fbit Fld.TM_NODE_W0_VALID q = false → ∃ u, exec (.tmEnqueue h rate) s = .next u ∧ gone u h ∧
      u.fget Fld.TMC_NO_QUEUE_CFG_COUNT 0 = min (s.fget Fld.TMC_NO_QUEUE_CFG_COUNT 0 + 1) (2 ^ Fld.TMC_NO_QUEUE_CFG_COUNT.w - 1)) ∧
    (s.fbit Fld.TM_NODE_W0_VALID q = true → s.fget Fld.TM_NODE_W4_Q_MAX q < s.qlen q + s.qlenOvf q + cellsOf f.lenFcs →
      ∃ u, exec (.tmEnqueue h rate) s = .next u ∧ gone u h ∧
        u.fget Fld.TMC_TAIL_COUNT 0 = min (s.fget Fld.TMC_TAIL_COUNT 0 + 1) (2 ^ Fld.TMC_TAIL_COUNT.w - 1)) ∧
    (s.fbit Fld.TM_NODE_W0_VALID q = true → s.qlen q + s.qlenOvf q + cellsOf f.lenFcs ≤ s.fget Fld.TM_NODE_W4_Q_MAX q →
      s.fget Fld.TM_WRED_COLOUR_MAXP (ix2 3 (s.fget Fld.TM_NODE_W4_PROFILE q) f.colour) = 0 → s.qlenOvf q = 0 →
      let i := s.fget Fld.TM_NODE_W4_INSTANCE q
      s.resvUsed i + cellsOf f.lenFcs ≤ s.fget Fld.TM_INST_BUF_RESV i →
      ∃ u, exec (.tmEnqueue h rate) s = .next u ∧ u.fifo q = s.fifo q ++ [h] ∧ u.tmIn = s.tmIn.erase h ∧ leaves s u ∧
        frameAt u h { f with stage := .queued q, charge := .resv, chargeInst := i, qgen := s.gen i, cells := cellsOf f.lenFcs })) ∧
  (∀ (q : Fin 262144) (h : Nat) (f : Frame) (s : State),
    ((s.fifo q).find? fun h => match s.frame? h with | some f => f.charge == .overflow && !f.back | none => false) = some h → frameAt s h f →
    exec (.overflowReadback q) s = .next (s.setFrame h { f with back := true })) ∧
  (∀ (v : Word) (s : State),
    (s.fbit Fld.TM_FLUSH_BUSY 0 = true → exec (.tmFlush v) s = .next (s.fset Fld.TM_FLUSH_REFUSED 0 1)) ∧
    (s.fbit Fld.TM_FLUSH_BUSY 0 = false → ∃ u, exec (.tmFlush v) s = .next u ∧ u.fbit Fld.TM_FLUSH_BUSY 0 = true ∧
      u.fifo (Fld.TM_FLUSH_QUEUE.of v) = [] ∧ (∀ h ∈ s.fifo (Fld.TM_FLUSH_QUEUE.of v), gone u h) ∧ leaves s u)) ∧
  (∀ s : State, ∃ u, exec .flushComplete s = .next u ∧ u.fbit Fld.TM_FLUSH_BUSY 0 = false ∧ u = { s with regs := u.regs })

/-- With no room at its egress, or with no link there, a point selects nothing. A host point selects the oldest frame of the queue its path ends
in: a frame of the current generations goes to the HQE out of that queue, stored and forwarded unless it may cut through; an orphaned one is
dropped. A sweep moves an F that V has passed up to V. A refill adds the elapsed bytes up to
BURST. Words 5 to 7 of an element ignore writes; F, TOKENS and V, and a policer's buckets, refuse them while VALID = 1. A larger RESV that
does not fit, and an INGRESS_CELLS that leaves too little, are refused. -/
def Obligations.SelectionAndElements : Prop :=
  (∀ (p : Fin 38) (room : Bool) (s : State), room = false ∨ s.pointReady p = false → exec (.tmSelect p room) s = .next s) ∧
  (∀ (p : Fin 38) (path : List Nat) (h : Nat) (f : Frame) (s : State), 36 ≤ p.val → s.pointReady p = true → s.tmChoose p = some path →
    let q := path.getD 4 0
    s.tmReady q = some h → frameAt s h f →
    (s.frameOrphan f = false → ∃ u, exec (.tmSelect p true) s = .next u ∧ frameAt u h { f with stage := .host q, passed := !s.cutThrough p f } ∧
      u.hostOut = s.hostOut ++ [h] ∧ u.fifo q = (s.fifo q).erase h ∧ leaves s u) ∧
    (s.frameOrphan f = true → ∃ u, exec (.tmSelect p true) s = .next u ∧ gone u h ∧ leaves s u)) ∧
  (∀ (n p : Nat) (s : State), s.tmParent n = some p →
    exec (.clampSweep n) s = .next (if tmBefore (s.fget Fld.TM_NODE_W2_F n) (s.fget Fld.TM_NODE_W4_V p) then
      s.fset Fld.TM_NODE_W2_F n (s.fget Fld.TM_NODE_W4_V p) else s)) ∧
  (∀ (n : Nat) (s : State), n < 348198 → s.fget Fld.TM_NODE_W1_RATE n ≠ 0 → let aux := mget BucketAux.init s.tmAux n
    ∃ u, exec (.shaperRefill n) s = .next u ∧ (mget BucketAux.init u.tmAux n).last = s.ns ∧ leaves s u ∧
      u.tmTokens n = min (s.tmBurst n : Int) (s.tmTokens n + (accrue (rateOf (s.fget Fld.TM_NODE_W1_RATE n)) (s.ns - aux.last) aux.fracC).1)) ∧
  (∀ (n : Nat) (w : Fin 8) (v : Word) (s : State), n < 348198 →
    (5 ≤ w.val → exec (.tmElementWrite n w v) s = .next s) ∧
    (s.fbit Fld.TM_NODE_W0_VALID n = true → w = 2 ∨ w = 3 ∨ (w = 4 ∧ tmLevel n ≠ 4) →
      exec (.tmElementWrite n w v) s = .next (s.bump Fld.TMC_STATE_REFUSED_COUNT)) ∧
    (s.fbit Fld.TM_NODE_W0_VALID n = false → w = 2 → ∃ u, exec (.tmElementWrite n w v) s = .next u ∧
      u.fget Fld.TM_NODE_W2_F n = Fld.TM_NODE_W2_F.of v ∧ u = { s with regs := u.regs }) ∧
    (w = 4 → tmLevel n = 4 → ∃ u, exec (.tmElementWrite n w v) s = .next u ∧
      u.fget Fld.TM_NODE_W4_Q_MAX n = Fld.TM_NODE_W4_Q_MAX.of v ∧ u = { s with regs := u.regs })) ∧
  (∀ (p : Fin 1048576) (v : Word) (s : State),
    (s.fbit Fld.TM_POL_W0_VALID p = true → exec (.policerWrite p 2 v) s = .next (s.bump Fld.TMC_STATE_REFUSED_COUNT)) ∧
    (s.fbit Fld.TM_POL_W0_VALID p = false → ∃ u, exec (.policerWrite p 2 v) s = .next u ∧ u.rd Reg.TM_POL_W2 p = v) ∧
    exec (.policerWrite p 3 v) s = .next (s.wr Reg.TM_POL_W3 p v)) ∧
  (∀ (i : Fin 4096) (v : Word) (s : State),
    let room := 524288 - s.ingressCap < s.resvTotal - s.fget Fld.TM_INST_BUF_RESV i + Fld.TM_INST_BUF_RESV.of v
    (s.fget Fld.TM_INST_BUF_RESV i < Fld.TM_INST_BUF_RESV.of v → room → exec (.instBufWrite i v) s = .next (s.fset Fld.TM_BUF_POOL_RESV_REFUSED 0 1)) ∧
    (¬ room → s.fbit Fld.CAPO_INST_CTL_STRICT i = false → exec (.instBufWrite i v) s = .next (s.wr Reg.TM_INST_BUF i v))) ∧
  (∀ (v : Word) (s : State), let ok := s.resvTotal ≤ 524288 - ingressCells (Fld.TM_CFG_INGRESS_CELLS.of v)
    (¬ ok → exec (.ingressCellsWrite v) s = .next (s.fset Fld.TM_BUF_POOL_RESV_REFUSED 0 1)) ∧
    (ok → exec (.ingressCellsWrite v) s = .next (s.wr Reg.TM_CFG 0 (writeFields false Reg.TM_CFG (s.rd Reg.TM_CFG 0) v))))

/-! ### Cipher engine (chapter 07) -/

namespace Sys2Proof.Claims

/-- A saturating counter has counted one more. -/
def counted (s u : State) (f : Field) (i : Nat) : Prop := u.fget f i = min (s.fget f i + 1) (2 ^ f.w - 1)

/-- The twelve words of the key loading window are zero. -/
def klwClear (u : State) : Prop := ∀ k < 12, u.rd Reg.CIP_KLW_DATA k = 0

/-- No key is anywhere: no material, every context EMPTY, no command in the window and no data in it. -/
def noKeys (u : State) : Prop := u.keys = [] ∧ (∀ c < 65536, u.ctxState c = 0) ∧ u.klwCmd = none ∧ klwClear u

end Sys2Proof.Claims

/-- Words 0, 1, 3 and 4 of an EMPTY context take writes; of any other context they refuse them, counted, and its other words ignore them. A
requester claims a free window and is refused a held one; a release, and the timeout of an idle window, free it with its data zeroed. Only the
holder writes the data. A LOAD or UNWRAP of an idle window captures the data and is BUSY; an ERASE of an EMPTY context ends at once and of a
READY one starts the erase. A completed LOAD or UNWRAP that is accepted stores its key, makes the context READY with INV_CNT 0 and zeroes the
data; one that is refused keeps every key and reports why. ERASE_COMPLETE empties the context. -/
def Obligations.KeysLoadAndErase : Prop :=
  (∀ (c : Fin 65536) (w : Fin 8) (v : Word) (s : State),
    (w = 0 ∨ w = 1 ∨ w = 3 ∨ w = 4 →
      (s.ctxState c = 0 → exec (.contextWrite c w v) s = .next (s.wr (ctxReg w) c (writeFields false (ctxReg w) (s.rd (ctxReg w) c) v))) ∧
      (s.ctxState c ≠ 0 → exec (.contextWrite c w v) s = .next (s.bump Fld.CIPC_CFG_REFUSED_COUNT))) ∧
    (w = 2 ∨ 5 ≤ w.val → exec (.contextWrite c w v) s = .next s)) ∧
  (∀ (o : BitVec 16) (s : State), o ≠ 0 →
    (s.klwOwner = 0 → ∃ u, exec (.klwClaim o.toNat o) s = .next u ∧ u.klwOwner = o.toNat ∧ u.fbit Fld.CIP_KLW_LOCK_HELD 0 = true) ∧
    (s.klwOwner ≠ 0 → exec (.klwClaim o.toNat o) s = .next (s.fset Fld.CIP_KLW_LOCK_CLAIM_REFUSED 0 1)) ∧
    (s.klwOwner = o.toNat → ∃ u, exec (.klwRelease o.toNat) s = .next u ∧ u.klwOwner = 0 ∧ klwClear u)) ∧
  (∀ s : State, s.klwOwner ≠ 0 → s.klwBusy = false → ∃ u, exec .klwAutoRelease s = .next u ∧ u.klwOwner = 0 ∧
    u.fbit Fld.CIP_KLW_LOCK_AUTO_RELEASED 0 = true ∧ klwClear u) ∧
  (∀ (req : Nat) (k : Fin 12) (v : Word) (s : State), req ≠ 0 →
    (s.klwOwner = req → exec (.klwDataWrite req k v) s = .next (s.wr Reg.CIP_KLW_DATA k v)) ∧
    (s.klwOwner ≠ req → exec (.klwDataWrite req k v) s = .next (s.bump Fld.CIPC_KLW_REFUSED_COUNT))) ∧
  (∀ (req : Nat) (kek c : Fin 65536) (s : State), req ≠ 0 → s.klwOwner = req → s.klwBusy = false →
    let data := ((List.range 12).map fun k => wordBytesLE (s.rd Reg.CIP_KLW_DATA k)).flatten
    (∃ u, exec (.klwLoad req c) s = .next u ∧ u.klwCmd = some ⟨req, 1, 0, c, data⟩ ∧ u.klwBusy = true ∧ leaves s u) ∧
    (∃ u, exec (.klwUnwrap req kek c) s = .next u ∧ u.klwCmd = some ⟨req, 2, kek, c, data⟩ ∧ u.klwBusy = true ∧ leaves s u) ∧
    (s.keyless = false → s.klwMay req c = true →
      (s.ctxState c = 0 → ∃ u, exec (.klwErase req c) s = .next u ∧ u.klwBusy = false ∧ u.fget Fld.CIP_KLW_STATUS_RESULT 0 = 0 ∧ leaves s u) ∧
      (s.ctxState c ≠ 0 → ∃ u, exec (.klwErase req c) s = .next u ∧ u.ctxState c = 3 ∧ u.klwBusy = true ∧ leaves s u))) ∧
  (∀ (k : KlwCmd) (s : State), s.klwCmd = some k → k.op = 1 ∨ k.op = 2 → k.ctx < 65536 →
    (∀ m, s.klwJudge k = .ok m → ∃ u, exec .klwCommandDone s = .next u ∧ u.key k.ctx = m ∧ u.ctxState k.ctx = 1 ∧
      u.fget Fld.CIP_CTX_W2_INV_CNT k.ctx = 0 ∧ u.klwCmd = none ∧ u.klwBusy = false ∧ u.fget Fld.CIP_KLW_STATUS_RESULT 0 = 0 ∧ klwClear u ∧
      (∀ c, c ≠ k.ctx → u.key c = s.key c)) ∧
    (∀ e, s.klwJudge k = .error e → ∃ u, exec .klwCommandDone s = .next u ∧ u.keys = s.keys ∧ u.klwCmd = none ∧ u.klwBusy = false ∧
      u.fget Fld.CIP_KLW_STATUS_RESULT 0 = e ∧ klwClear u)) ∧
  (∀ (c : Fin 65536) (s : State), s.ctxState c = 3 → s.csubs = [] → ∃ u, exec (.eraseComplete c) s = .next u ∧ u.key c = [] ∧
    u.ctxState c = 0 ∧ (∀ d, d ≠ c.val → u.key d = s.key d))

/-- An outbound frame whose turn it is, under a READY context that fits it, leaves the cipher stage for admission with the invocation number one
above INV_CNT, its SPI and that number at the ESP header; under an EMPTY context, or with no cipher in service, it is dropped and counted. An
inbound frame whose ICV verifies goes on to admission; one that fails is dropped in AUTH_FAIL and one that replays in REPLAY_DROP. A csub request
that was refused at acceptance, or that an alarm overtook, answers its STATUS and leaves memory as it was; an accepted one leaves the memory that
its work comes to. Each takes its request out; its thread's engine slot is freed where the reply channel takes the reply or is off, and stays
held where the channel has no room. -/
def Obligations.CipherSealsAndOpens : Prop :=
  (∀ (h c : Nat) (f : Frame) (s : State), c < 65536 → frameAt s h f → f.stage = .cipher 0 c → s.cipherTurn h 0 c = true →
    (s.noCipher = true → ∃ u, exec (.espOutbound h) s = .next u ∧ gone u h ∧ counted s u Fld.CIPC_KEYLESS_DROP_COUNT 0) ∧
    (s.noCipher = false → s.espFits 0 c f.inst = true → ∀ off plain t,
      f.layer (if s.fbit Fld.CIP_CTX_W0_TUNNEL c then 5 else 2) = some off → s.espPlain c f.bytes (f.layer 1) off = (some plain, t) →
      (s.ctxState c = 0 → ∃ u, exec (.espOutbound h) s = .next u ∧ gone u h ∧ counted s u Fld.CIPC_CTX_EMPTY_DROP_COUNT 0) ∧
      (s.ctxState c = 1 → s.fget Fld.CIP_CTX_W2_INV_CNT c + 1 ≤ s.ctxLimit c → ∃ u g, exec (.espOutbound h) s = .next u ∧ frameAt u h g ∧
        g.stage = .admitting ∧ u.fget Fld.CIP_CTX_W2_INV_CNT c = s.fget Fld.CIP_CTX_W2_INV_CNT c + 1 ∧ u.mem = s.mem ∧ u.keys = s.keys ∧
        (f.layer 1 = none → off ≤ f.bytes.length → (g.bytes.take off = f.bytes.take off ∧ ((g.bytes.drop off).take 8) =
          natBE 4 (s.fget Fld.CIP_CTX_W1_SPI c) ++ natBE 4 (s.fget Fld.CIP_CTX_W2_INV_CNT c + 1)))))) ∧
  (∀ (h c l4 : Nat) (f : Frame) (s : State), c < 65536 → frameAt s h f → f.stage = .cipher 1 c → s.cipherTurn h 1 c = true →
    s.noCipher = false → s.espFits 1 c f.inst = true → f.layer 2 = some l4 → w32 f.bytes l4 = s.fget Fld.CIP_CTX_W1_SPI c → s.ctxAlg c ≤ 2 →
    let ctLen := f.bytes.length - (l4 + 32)
    let seq := espSeq (s.fbit Fld.CIP_CTX_W0_ESN c) (s.fget Fld.CIP_CTX_W5_HIGHEST c) (w32 f.bytes (l4 + 4))
    let body := f.bytes.drop (l4 + 8)
    0 < ctLen → ctLen ≤ 16383 →
    (s.fbit Fld.CIP_CTX_W0_REPLAY_EN c = true → s.replayed c seq = true → ∃ u, exec (.espInbound h) s = .next u ∧ gone u h ∧
      counted s u Fld.CIPC_REPLAY_DROP_COUNT 0) ∧
    (s.replayed c seq = false → s.ctxState c = 1 →
      (s.espOpen c seq (body.take 8) ((body.drop 8).take ctLen) (body.drop (8 + ctLen)) = none →
        ∃ u, exec (.espInbound h) s = .next u ∧ gone u h ∧ counted s u Fld.CIPC_AUTH_FAIL_COUNT 0) ∧
      (∀ p, s.espOpen c seq (body.take 8) ((body.drop 8).take ctLen) (body.drop (8 + ctLen)) = some p →
        ∃ u g, exec (.espInbound h) s = .next u ∧ frameAt u h g ∧ g.stage = .admitting ∧ leaves s u ∧
          u.fget Fld.CIP_CTX_W5_HIGHEST c = max (s.fget Fld.CIP_CTX_W5_HIGHEST c) seq))) ∧
  (∀ (j : CsubJob) (rest : List CsubJob) (s : State), s.csubs = j :: rest → ∃ u, exec .csubComplete s = .next u ∧ u.csubs = rest ∧
    ((0x4000 ≤ j.ch ∨ s.chanEn j.ch = false ∨ ((s.chan j.ch).units = [] ∧ 2 ≤ (s.chan j.ch).room)) →
      (u.thr j.t).engHeld = (s.thr j.t).engHeld - 1) ∧
    (j.ch < 0x4000 → s.chanEn j.ch = true → (s.chan j.ch).room < 2 → (u.thr j.t).engHeld = (s.thr j.t).engHeld) ∧ u.keys = s.keys ∧ (j.status ≠ 0 ∨ s.keyless = true → u.mem = s.mem) ∧
    (j.status = 0 → s.keyless = false → u.mem = (State.csubRun { s with csubs := rest } j).2.mem))

/-- After an alarm no key is anywhere: no material, every context EMPTY, no window command and no window data, the memory key and the DICE keys
gone, the engine KEYLESS with the alarm's cause, and nothing is encrypted or decrypted. The same holds after a failed self-test. SELFTEST_RUN
starts a run; a run that passes makes the engine READY and keeps every key. -/
def Obligations.AlarmErasesEveryKey : Prop :=
  (∀ (a : Fin 6) (s : State), ∃ u, exec (.keyAlarm a) s = .next u ∧ noKeys u ∧ u.diceKeys = false ∧ u.keyless = true ∧ u.noCipher = true ∧
    u.fbit Fld.MEM_STATUS_KEY_ERASED 0 = true ∧ (u.fget Fld.CIP_ALARM_CAUSE 0).testBit a = true ∧ u.mem = s.mem ∧ u.threads = s.threads) ∧
  (∀ s : State, ∃ u, exec (.selftestComplete false) s = .next u ∧ noKeys u ∧ u.diceKeys = false ∧ u.keyless = true ∧
    (u.fget Fld.CIP_ALARM_CAUSE 0).testBit 5 = true ∧ u.fbit Fld.CIP_SELFTEST_READY 0 = false) ∧
  (∀ s : State, ∃ u, exec (.selftestComplete true) s = .next u ∧ u.fbit Fld.CIP_SELFTEST_READY 0 = true ∧
    u.fbit Fld.CIP_SELFTEST_RUNNING 0 = false ∧ u = { s with regs := u.regs }) ∧
  (∀ s : State, ∃ u, exec .selftestRun s = .next u ∧ u.fbit Fld.CIP_SELFTEST_RUNNING 0 = true ∧ u = { s with regs := u.regs })

/-! ### Ports and Cuelrun (chapter 08) -/

namespace Sys2Proof.Claims

/-- The link of MAC `m` stands in state `st` after, and memory, threads, channels and keys are as before. -/
def linkNow (s u : State) (m st : Nat) : Prop := u.linkSt m = st ∧ u.mem = s.mem ∧ u.threads = s.threads ∧ u.chans = s.chans ∧ u.keys = s.keys

end Sys2Proof.Claims

/-- A MODE above 4 is refused and marked; a supported one is stored, and MODE 0 is kept out of a QL-880-32. Enabling a DISABLED link of its port's mode starts it at AN or TRAINING,
and disabling a link takes it to DISABLED. AN_COMPLETE with a common rate takes AN to TRAINING and otherwise counts AN_FAIL; training takes
TRAINING to ALIGN, its timeout and that of ALIGN to FAULT; alignment takes ALIGN to UP and raises the port's source, on a Cuelrun link once the
INIT exchange named another ID; loss takes UP to FAULT, and a retry restarts it only with its PLLs locked. INIT_RECEIVED records the neighbour
and marks the adapter's own ID. TOD_STEP adds to TIME; TS_POP takes the oldest stamp. -/
def Obligations.LinkStates : Prop :=
  (∀ (p : Fin 4) (v : Word) (s : State),
    (4 < Fld.PRT_PORT_CFG_MODE.of v → ∃ u, exec (.portModeWrite p v) s = .next u ∧
      u.fget Fld.PRT_PORT_CFG_MODE p = s.fget Fld.PRT_PORT_CFG_MODE p ∧ u.fbit Fld.PRT_PORT_CFG_MODE_UNSUPPORTED p = true ∧ u.mem = s.mem) ∧
    (1 ≤ Fld.PRT_PORT_CFG_MODE.of v → Fld.PRT_PORT_CFG_MODE.of v ≤ 4 → ∃ u, exec (.portModeWrite p v) s = .next u ∧
      u.fget Fld.PRT_PORT_CFG_MODE p = Fld.PRT_PORT_CFG_MODE.of v ∧ u.mem = s.mem) ∧
    (Fld.PRT_PORT_CFG_MODE.of v = 0 → ∃ u, exec (.portModeWrite p v) s = .next u ∧ u.mem = s.mem ∧
      u.fget Fld.PRT_PORT_CFG_MODE p = if Config.grade32 then s.fget Fld.PRT_PORT_CFG_MODE p else 0)) ∧
  (∀ (m : Fin 32) (s : State),
    let started := if s.fbit Fld.PRT_PORT_CFG_AN_EN (m / 8) && s.modeOf m != 4 then 1 else 2
    (s.linkExists m = true → s.linkSt m = 0 → ∃ u, exec (.linkEnable m) s = .next u ∧ linkNow s u m started) ∧
    (∃ u, exec (.linkDisable m) s = .next u ∧ linkNow s u m 0) ∧
    (s.linkSt m = 1 → (∀ low, ∃ u, exec (.anComplete m true low) s = .next u ∧ linkNow s u m 2 ∧
        u.fget Fld.PRT_MAC_STATUS_FEC_ACTIVE m = s.fecActive m low) ∧
      ∀ low, ∃ u, exec (.anComplete m false low) s = .next u ∧ linkNow s u m 1 ∧ mget 0 u.anFail m = mget 0 s.anFail m + 1) ∧
    (s.linkSt m = 2 → (∃ u, exec (.trainingComplete m) s = .next u ∧ linkNow s u m 3) ∧
      ∃ u, exec (.trainingTimeout m) s = .next u ∧ linkNow s u m 5) ∧
    (s.linkSt m = 3 → (∃ u, exec (.alignTimeout m) s = .next u ∧ linkNow s u m 5) ∧
      (s.modeOf m ≠ 4 → ∃ u, exec (.linkAligned m) s = .next u ∧ linkNow s u m 4 ∧ mget false u.latch (526 + m / 8) = true) ∧
      (s.modeOf m = 4 → (s.cuePort (m / 8)).init = true → s.fget Fld.CUE_PORT_STATUS_NEIGHBOUR (m / 8) ≠ s.devId →
        ∃ u, exec (.linkAligned m) s = .next u ∧ linkNow s u m 4 ∧ (u.cuePort (m / 8)).rxSeq = 0)) ∧
    (s.linkSt m = 4 → ∀ fec, ∃ u, exec (.linkLoss ⟨m, fec⟩) s = .next u ∧ linkNow s u m 5 ∧ mget false u.latch (526 + m / 8) = true) ∧
    (s.linkSt m = 5 → (s.pllOk m = true → ∃ u, exec (.faultRetry m) s = .next u ∧ linkNow s u m started) ∧
      (s.pllOk m = false → exec (.faultRetry m) s = .next s)) ∧
    (∃ u, exec (.tsPop m) s = .next u ∧ mget [] u.tsFifo m = (mget [] s.tsFifo m).drop 1 ∧ leaves s u)) ∧
  (∀ (p : Fin 4) (id : BitVec 16) (low : Bool) (rt : Nat) (s : State), s.isCue p = true → s.linkSt (8 * p) = 3 →
    ∃ u, exec (.initReceived p id low rt) s = .next u ∧ u.fget Fld.CUE_PORT_STATUS_NEIGHBOUR p = id.toNat ∧ (u.cuePort p).init = true ∧
      (id.toNat = s.devId → u.fbit Fld.CUE_PORT_STATUS_ID_CONFLICT p = true ∧ mget false u.latch (526 + p) = true) ∧ leaves s u) ∧
  (∀ (v : Word) (s : State), exec (.todStep v) s = .next { s with time := (s.time + v.toNat) % 2 ^ 64 })

/-- A good frame under the expected SEQ for this adapter is acknowledged, counted and handed on with its link delay taken from DEADLINE; one
under another SEQ, or with a bad CRC, which is counted, is answered by one NAK and changes no queue; copies of a bad one that were going out are
ended stomped. One that would pass the transit buffer is answered by NAK_BUSY and not accepted. An ACK takes the acknowledged frames from
the retry buffer and clears the count of replays. A NAK, a NAK_BUSY's replay and a timeout send the buffered frames again from their point, in
order and counted, until RETRY_MAX of them in a row take the link to FAULT. NAK_BUSY only notes where the replay will start. -/
def Obligations.CuelrunDeliversInOrder : Prop :=
  (∀ (p : Fin 4) (f : CueFrame) (fec : FecNote) (s : State), s.cueUp p = true → f.type = 6 →
    exec (.cuelrunReceive p f ⟨.good, fec⟩) s = .next ((s.fecCount p fec).cueLink p f)) ∧
  (∀ (p : Fin 4) (f : CueFrame) (fec : FecNote) (s : State), s.cueUp p = true → f.type < 6 →
    let c := s.cuePort p
    let t := s.fecCount p fec
    (f.seq = c.rxSeq → f.dst = s.devId → f.dst ≠ 0xFFFF → 0 < f.type → f.type < 5 → s.fget Fld.CUE_PORT_STATUS_LINK_DELAY p < f.deadline →
      ∃ u, exec (.cuelrunReceive p f ⟨.good, fec⟩) s = .next u ∧ (u.cuePort p).rxSeq = (c.rxSeq + 1) % 65536 ∧
        u.peerIn = s.peerIn ++ [(p.val, { f with deadline := f.deadline - s.fget Fld.CUE_PORT_STATUS_LINK_DELAY p })] ∧
        u.out = Event.cueTx p (linkFrame 0 f.seq) false :: s.out ∧ leaves s u) ∧
    (f.seq = c.rxSeq → s.inTransit p f = true → 2097152 < s.transitHeld p + cueSize f → ∃ u, exec (.cuelrunReceive p f ⟨.good, fec⟩) s = .next u ∧
      u.out = Event.cueTx p (linkFrame 2 c.rxSeq) false :: s.out ∧ (u.cuePort p).rxSeq = c.rxSeq ∧ (u.cuePort p).nakSent = false ∧ leaves s u) ∧
    (f.seq ≠ c.rxSeq → exec (.cuelrunReceive p f ⟨.good, fec⟩) s = .next (t.sendNak p)) ∧
    (exec (.cuelrunReceive p f ⟨.bad, fec⟩) s = .next ((t.bump Fld.CUEC_CRC_ERR_COUNT p).sendNak p)) ∧
    (f.seq = c.rxSeq → exec (.cuelrunReceive p f ⟨.badCut, fec⟩) s = .next (((t.bump Fld.CUEC_CRC_ERR_COUNT p).stompCopies p f).sendNak p)) ∧
    (exec (.cuelrunReceive p f ⟨.stomped, fec⟩) s = .next (t.bump Fld.CUEC_STOMP_RX_COUNT p)) ∧
    (c.nakSent = true → s.sendNak p = s) ∧
    (c.nakSent = false → (s.sendNak p).out = Event.cueTx p (linkFrame 1 c.rxSeq) false :: s.out ∧ ((s.sendNak p).cuePort p).nakSent = true)) ∧
  (∀ (p : Fin 4) (seq : BitVec 16) (i : Nat) (s : State), s.cueUp p = true →
    ((s.cuePort p).unacked.findIdx? fun f => f.seq == seq.toNat) = some i →
    let c := s.cuePort p
    let again (n : Nat) (u : State) : Prop := u.out = ((c.unacked.drop n).map fun f => Event.cueTx p f false).reverse ++ s.out ∧
      (u.cuePort p).retries = c.retries + 1 ∧ (u.cuePort p).unacked = c.unacked ∧ leaves s u
    (∃ u l, exec (.linkAck p seq) s = .next u ∧ (u.cuePort p).unacked = c.unacked.drop (i + 1) ++ l ∧ (u.cuePort p).retries = 0 ∧
      leaves s u) ∧
    (c.retries + 1 < s.fget Fld.CUE_CFG_RETRY_MAX 0 → (∃ u, exec (.linkNak p seq) s = .next u ∧ again i u) ∧
      (∃ u, exec (.replayTimeout p) s = .next u ∧ again 0 u) ∧
      (c.busy = some seq.toNat → ∃ u, exec (.nakBusyReplay p) s = .next u ∧ again i u ∧ (u.cuePort p).busy = none)) ∧
    (s.fget Fld.CUE_CFG_RETRY_MAX 0 ≤ c.retries + 1 → ∃ u, exec (.linkNak p seq) s = .next u ∧ u.linkSt (8 * p) = 5 ∧
      mget false u.latch (526 + p) = true)) ∧
  (∀ (p : Fin 4) (seq : BitVec 16) (s : State), s.cueUp p = true → ∃ u, exec (.nakBusy p seq) s = .next u ∧
    (u.cuePort p).busy = some seq.toNat ∧ (u.cuePort p).unacked = (s.cuePort p).unacked ∧ u.out = s.out ∧ leaves s u)

/-- A WRITE that its window accepts stores its data at BASE + OFFSET and goes; a refused WRITE goes too, and memory stays as it was, as it does
for every READ (an answer to this adapter itself waits behind the others). A MSG with room goes to the window's channel. A RESP gives its READ
the data, or fails it, discards and counts a late one and counts a failed posted request. A timeout fails a READ and keeps its tag unused until
READ_TAG_RELEASE. A commit copies the shadow of a window to its active copy and advances GEN; one within 100 µs of the last, or of a memory
window whose range is not wholly in one memory, is only marked refused. -/
def Obligations.PeerWindows : Prop :=
  (∀ (p : Nat) (f : CueFrame) (rest : List (Nat × CueFrame)) (s : State), s.peerIn = (p, f) :: rest →
    let t : State := { s with peerIn := rest }
    (f.type = 1 → t.winCheck f = 0 → exec .peerWrite s =
      .next (t.memStore (t.fget Fld.CUE_WIN_AC_W0_BASE f.win + cueOffset f) ((f.payload.drop 8).take (cueLen f)))) ∧
    (f.type = 1 → t.winCheck f ≠ 0 → ∃ u l, exec .peerWrite s = .next u ∧ u.peerIn = rest ++ l ∧ (f.src ≠ s.devId → l = []) ∧ leaves s u) ∧
    (f.type = 2 → ∃ u l, exec .peerRead s = .next u ∧ u.peerIn = rest ++ l ∧ (f.src ≠ s.devId → l = []) ∧ leaves s u) ∧
    (f.type = 4 → t.winCheck f = 0 → let ch := t.fget Fld.CUE_WIN_AC_W2_CH f.win
      let words := (List.range (cueLen f / 8)).map fun k => BitVec.ofNat 64 (leNat ((f.payload.drop (8 + 8 * k)).take 8))
      words.length ≤ (t.chan ch).room → exec .peerMsg s = .next (t.unitReply ch { src := 0xF060, words := words })) ∧
    (f.type = 3 → f.tag = 0 → (f.status = 1 → exec .peerResp s = .next (t.bump Fld.CUEC_WINDOW_STALE_COUNT)) ∧
      (f.status = 2 → exec .peerResp s = .next (t.bump Fld.CUEC_WINDOW_PERM_COUNT)) ∧
      (f.status = 5 → exec .peerResp s = .next (t.bump Fld.CUEC_WINDOW_BUSY_COUNT))) ∧
    (f.type = 3 → f.tag ≠ 0 → (s.cueReads.find? fun r => r.tag == f.tag) = none →
      exec .peerResp s = .next (t.bump Fld.CUEC_LATE_RESP_COUNT)) ∧
    (f.type = 3 → f.tag ≠ 0 → ∀ r, (s.cueReads.find? fun r => r.tag == f.tag) = some r →
      (r.st = .dead → ∃ u, exec .peerResp s = .next u ∧ u.cueReads = s.cueReads.erase r ∧ counted s u Fld.CUEC_LATE_RESP_COUNT 0) ∧
      (r.st = .waiting → ∃ u, exec .peerResp s = .next u ∧ leaves s u ∧
        (u.cueReads.find? fun r => r.tag == f.tag) = some { r with st := if f.status = 0 then .data f.payload else .failed }))) ∧
  (∀ (tag : BitVec 16) (s : State),
    (∀ r, (s.cueReads.find? fun r => r.tag == tag.toNat && r.st == .waiting) = some r → ∃ u, exec (.readTimeout tag) s = .next u ∧
      { r with tag := 0, st := .failed } ∈ u.cueReads ∧ { r with st := .dead } ∈ u.cueReads ∧ u = { s with cueReads := u.cueReads }) ∧
    (∃ u, exec (.readTagRelease tag) s = .next u ∧ (∀ r ∈ u.cueReads, ¬ (r.tag = tag.toNat ∧ r.st = .dead)) ∧
      u = { s with cueReads := u.cueReads })) ∧
  (∀ (w : Fin 64) (s : State),
    (mget 0 s.winCommit w ≠ 0 → s.ns + 1 < mget 0 s.winCommit w + 100000 →
      exec (.windowCommit w) s = .next (s.fset Fld.CUE_WIN_CTL_COMMIT_REFUSED w 1)) ∧
    (s.fget Fld.CUE_WIN_SH_W2_KIND w = 0 → s.winRangeOk (s.fget Fld.CUE_WIN_SH_W0_BASE w) (s.fget Fld.CUE_WIN_SH_W1_LIMIT w) = false →
      exec (.windowCommit w) s = .next (s.fset Fld.CUE_WIN_CTL_COMMIT_REFUSED w 1)) ∧
    (mget 0 s.winCommit w + 100000 ≤ s.ns + 1 ∨ mget 0 s.winCommit w = 0 →
      s.winRangeOk (s.fget Fld.CUE_WIN_SH_W0_BASE w) (s.fget Fld.CUE_WIN_SH_W1_LIMIT w) = true → ∃ u, exec (.windowCommit w) s = .next u ∧
      u.rd Reg.CUE_WIN_AC_W0 w = s.rd Reg.CUE_WIN_SH_W0 w ∧ u.rd Reg.CUE_WIN_AC_W1 w = s.rd Reg.CUE_WIN_SH_W1 w ∧
      u.rd Reg.CUE_WIN_AC_W2 w = s.rd Reg.CUE_WIN_SH_W2 w ∧ u.rd Reg.CUE_WIN_AC_W3 w = s.rd Reg.CUE_WIN_SH_W3 w ∧
      u.fget Fld.CUE_WIN_CTL_GEN w = (s.fget Fld.CUE_WIN_CTL_GEN w + 1) % 2 ^ Fld.CUE_WIN_CTL_GEN.w ∧ leaves s u))

/-! ### Host endpoint (chapter 09) -/

namespace Sys2Proof.Claims

/-- Nothing that a fundamental reset clears is left: no byte of memory, no thread, core, channel, peg, frame or key is listed. -/
def dieClear (u : State) : Prop :=
  u.mem = [] ∧ u.threads = [] ∧ u.cores = [] ∧ u.chans = [] ∧ u.pegs = [] ∧ u.frames = [] ∧ u.keys = [] ∧ u.hreads = [] ∧ u.entries = [] ∧
  u.hwq = [] ∧ u.funcs = [] ∧ u.bow = [] ∧ u.stoCmds = [] ∧ u.uc = [] ∧ u.diceKeys = false

/-- A segment's link has gone down and its function has its defaults. -/
def segDown (u : State) (g : Nat) : Prop := u.fbit Fld.PCI_SEG_STATUS_LINK_UP g = false ∧ u.func g = Func.init

/-- The function takes accesses of a BAR at an offset of a size. -/
def barServed (s : State) (i bar off size : Nat) : Prop :=
  s.funcExists i = true ∧ s.memEnabled i = true ∧ hasBar i bar = true ∧ barSizeOk off size = true

end Sys2Proof.Claims

/-- A fundamental reset leaves nothing of what it clears, samples the straps as their balls stand, and leaves every register but those that only the
power-on of VDD_AO resets, and those two the straps show in, at its reset value, and the queue; PERST0_N low and a fuse fault then hold the die, and a power-on clears every register and holds the die until its rails stand.
A segment's PERST_N, a hot reset and a link loss of a lead segment take its link down and its function to its defaults; a function-level reset
does so for one function, keeping its AER fields. PERST0_N high samples the straps, 3 as 0, and lets the die go. A link in L0 records its state, and one of a width or rate
that it cannot train to changes nothing. -/
def Obligations.ResetKinds : Prop :=
  (∀ s : State,
    let cleared (u : State) : Prop := dieClear u ∧ u.pending = s.pending ∧
      u.split = (if s.strapBalls = 3 then 0 else s.strapBalls % 4) ∧
      ∀ r ∈ Reg.all, r.resetBy ≠ .aon → r.rid ≠ Reg.PCI_STRAP.rid → r.rid ≠ Reg.PCI_SEG_STATUS.rid → ∀ i < 2 ^ 40, u.rd r i = resetValue r i
    (mget false s.hold 0 = false → ∃ u, exec (.fundamentalReset .perst0) s = .next u ∧ cleared u ∧ mget false u.hold 0 = true) ∧
    (mget false s.hold 0 = true → exec (.fundamentalReset .perst0) s = .next s) ∧
    (∃ u, exec (.fundamentalReset .fuseFault) s = .next u ∧ cleared u ∧ mget false u.hold 3 = true) ∧
    (∃ u, exec (.fundamentalReset .powerOn) s = .next u ∧ dieClear u ∧ u.regs = [] ∧ u.pending = s.pending ∧ u.seqLeft = 4 ∧
      mget false u.hold 0 = true ∧ mget false u.hold 4 = true)) ∧
  (∀ (g : Fin 4) (s : State), s.leadSeg g = g.val →
    (g ≠ 0 → mget false s.hold 0 = false → ∃ u, exec (.segmentPerst g) s = .next u ∧ segDown u g ∧ u.fbit Fld.PCI_SEG_STATUS_PERST g = true) ∧
    (s.fbit Fld.PCI_SEG_STATUS_LINK_UP g = true → (∃ u, exec (.hotReset g) s = .next u ∧ segDown u g) ∧
      ∃ u, exec (.linkDown g) s = .next u ∧ segDown u g) ∧
    (∃ u, exec (.pfFlr g) s = .next u ∧ u.func g = { Func.init with aer := (s.func g).aer } ∧
      u.fbit Fld.PCI_SEG_STATUS_LINK_UP g = s.fbit Fld.PCI_SEG_STATUS_LINK_UP g ∧ mget DoeBox.init u.doe g = DoeBox.init) ∧
    (g ≠ 0 → ∀ split, exec (.perstNDeassertion g split) s = .next (s.fset Fld.PCI_SEG_STATUS_PERST g 0)) ∧
    (s.held_ = false → s.fbit Fld.PCI_SEG_STATUS_PERST g = false → ∀ (w : Fin 17) (rate : Fin 8) (flit : Bool),
      (trainWidth w = false ∨ rate = 0 ∨ s.linkWidth g < w.val → exec (.linkInL0 g w rate flit) s = .next s) ∧
      (trainWidth w = true → rate ≠ 0 → w.val ≤ s.linkWidth g → ∃ u, exec (.linkInL0 g w rate flit) s = .next u ∧ u.fbit Fld.PCI_SEG_STATUS_LINK_UP g = true ∧
        u.fget Fld.PCI_SEG_STATUS_RATE g = rate.val ∧ u.fget Fld.PCI_SEG_STATUS_WIDTH g = w.val ∧
        u.fbit Fld.PCI_SEG_STATUS_FLIT g = (flit || decide (6 ≤ rate.val)) ∧ leaves s u))) ∧
  (∀ (i : Fin 4096) (s : State), 4 ≤ i.val → s.funcExists i = true → ∃ u, exec (.vfFlr i) s = .next u ∧
    u.func i = { Func.init with aer := (s.func i).aer } ∧ ∀ j, j ≠ i.val → u.func j = s.func j) ∧
  (∀ (split : BitVec 2) (s : State), ∃ u, exec (.perstNDeassertion 0 split) s = .next u ∧ mget false u.hold 0 = false ∧ u.bootNs = s.ns ∧
    u.split = (if split.toNat = 3 then 0 else split.toNat) ∧ u.fbit Fld.PCI_STRAP_SPLIT_INVALID 0 = (split == 3) ∧ leaves s u) ∧
  (∀ (v : Word) (s : State), exec (.pciReadyWrite v) s = .next (s.wr Reg.PCI_READY 0 (s.rd Reg.PCI_READY 0 ||| (v &&& 15))))

/-- A function that is ready takes a configuration write into the item named; one that is not answers it, and a DOE access, with Request Retry
Status. A BAR access of a bad size is counted and its read an Unsupported Request; a reserved offset reads as zero and is counted, its write in
the dark among the dark writes; an access to a function without memory space, or without that BAR, is an Unsupported Request. In the dark what
is not served reads as zero. The status page answers the function's status; the MSI-X table takes and answers its words, poisoned and counted
where the word is uncorrectable. An LTR write is stored and, where enabled and changed, sent. An invalidation removes the cached translations of
its pages and completes once no read uses one. A DOE discovery object is answered at once, one of more than 16 KiB sets DOE Error, any other
waits for firmware, and an abort clears the mailbox. -/
def Obligations.HostAccesses : Prop :=
  (∀ (i : Fin 4096) (item : CfgItem) (s : State),
    (s.funcExists i = true → s.retryStatus i = false → ∃ u, exec (.pciConfigWrite i item) s = .next u ∧
      u.func i = cfgItemPut (s.func i) (vfOf i == 0) item ∧ (∀ j, j ≠ i.val → u.func j = s.func j) ∧ (s.hwq = [] → leaves s u)) ∧
    (s.funcExists i = true → s.retryStatus i = true → exec (.pciConfigWrite i item) s = .next (s.emit (.cfgRetry i))) ∧
    (s.funcExists i = false → exec (.pciConfigWrite i item) s = .next s)) ∧
  (∀ (i : Fin 4096) (bar : Fin 6) (off size : Nat) (v : Word) (bad : Bool) (s : State), s.funcExists i = true →
    (s.memEnabled i = false ∨ hasBar i bar = false → exec (.hostBarWrite i bar off size v .good) s = .next (s.postedUr i) ∧
      exec (.hostBarRead i bar off size ⟨.good, bad⟩) s = .next ((s.aerLog i .unsupportedRequest).emit (.barAnswer i none))) ∧
    (s.memEnabled i = true → hasBar i bar = true → barSizeOk off size = false →
      exec (.hostBarWrite i bar off size v .good) s = .next (s.bumpPci Fld.PCIC_BAR_BAD_SIZE_COUNT i) ∧
      exec (.hostBarRead i bar off size ⟨.good, bad⟩) s =
        .next (((s.bumpPci Fld.PCIC_BAR_BAD_SIZE_COUNT i).aerLog i .unsupportedRequest).emit (.barAnswer i none))) ∧
    (barServed s i bar off size →
      (s.barPlace i bar off = .reserved →
        (exec (.hostBarWrite i bar off size v .good) s =
          .next (s.bumpPci (if s.dark then Fld.PCIC_DARK_WRITES_COUNT else Fld.PCIC_BAR_RESERVED_COUNT) i)) ∧
        (s.dark = false → exec (.hostBarRead i bar off size ⟨.good, bad⟩) s =
          .next ((s.bumpPci Fld.PCIC_BAR_RESERVED_COUNT i).emit (.barAnswer i (some 0))))) ∧
      (s.dark = true → (s.barPlace i bar off).inDark = false →
        exec (.hostBarRead i bar off size ⟨.good, bad⟩) s = .next (s.emit (.barAnswer i (some 0)))) ∧
      (s.barPlace i bar off = .status 0 →
        exec (.hostBarRead i bar off size ⟨.good, bad⟩) s = .next (s.emit (.barAnswer i (some (fieldAt (s.funcStatus i) 0))))) ∧
      (∀ o, s.barPlace i bar off = .msixTab o → size = 4 →
        (exec (.hostBarRead i bar off size ⟨.good, false⟩) s = .next (s.emit (.barAnswer i (some (fieldAt (s.msixWord i (o / 4)) 0))))) ∧
        (exec (.hostBarRead i bar off size ⟨.good, true⟩) s =
          .next ((s.bumpPci Fld.PCIC_POISON_TX_COUNT i).emit (.barAnswer i (some (fieldAt (s.msixWord i (o / 4)) 0)) true)))) ∧
      (∀ o, s.barPlace i bar off = .msixTab o → size = 4 → o / 4 % 4 ≠ 3 → ∃ u, exec (.hostBarWrite i bar off size v .good) s = .next u ∧
        u.msixWord i (o / 4) = bits v 31 0 ∧ leaves s u))) ∧
  (∀ (p : Fin 4) (v : Word) (s : State), let new := writeFields false Reg.PCI_LTR_CFG (s.rd Reg.PCI_LTR_CFG p) v
    ((s.func p).ltr = false ∨ new = s.rd Reg.PCI_LTR_CFG p → exec (.ltrCfgWrite p v) s = .next (s.wr Reg.PCI_LTR_CFG p new)) ∧
    ((s.func p).ltr = true → new ≠ s.rd Reg.PCI_LTR_CFG p → ∃ u w, exec (.ltrCfgWrite p v) s = .next u ∧ u.rd Reg.PCI_LTR_CFG p = new ∧
      u.out = Event.ltrMessage p w :: s.out)) ∧
  (∀ (i : Fin 4096) (lo hi itag : Nat) (s : State), ∃ u, exec (.atsInvalidate i lo hi itag) s = .next u ∧
    (∀ page, lo ≤ page → page ≤ hi → u.xlatFind i page = none) ∧ (∀ (j page : Nat), j ≠ i.val → u.xlatFind j page = s.xlatFind j page) ∧
    u = { s with atsCache := u.atsCache, atsInv := u.atsInv }) ∧
  (∀ (i : Fin 4096) (itag : Nat) (v : AtsInv) (s : State), (s.atsInv.find? fun v => v.inst == i.val && v.itag == itag) = some v →
    ((∃ e ∈ s.entries, v.uses.contains e.sn = true ∧ e.quar = false) → exec (.invalidationCompletion i itag) s = .next s) ∧
    ((∀ e ∈ s.entries, v.uses.contains e.sn = true → e.quar = true) → exec (.invalidationCompletion i itag) s =
      .next (State.emit { s with atsInv := s.atsInv.erase v } (.invCompletion i itag)))) ∧
  (∀ (p : Fin 4) (bs : List Byte) (keyed : List Nat) (s : State), s.funcExists p = true →
    (s.retryStatus p = true → (∀ t, exec (.doeObject p t bs keyed) s = .next (s.emit (.cfgRetry p))) ∧
      exec (.doeAbort p) s = .next (s.emit (.cfgRetry p))) ∧
    (s.retryStatus p = false →
      (bs.length ≤ 16384 → exec (.doeObject p 0 bs keyed) s = .next (s.emit (.doeResponse p (doeDiscovery (bs.headD 0).toNat))) ∧
        ∀ t : Fin 3, t ≠ 0 → ∃ u, exec (.doeObject p t bs keyed) s = .next u ∧ (mget DoeBox.init u.doe p).object = some (t.val, bs) ∧ u.out = s.out) ∧
      (16384 < bs.length → ∀ t, ∃ u, exec (.doeObject p t bs keyed) s = .next u ∧ (mget DoeBox.init u.doe p).error = true ∧
        (mget DoeBox.init u.doe p).object = (mget DoeBox.init s.doe p).object ∧ u = { s with doe := u.doe }) ∧
      ∃ u, exec (.doeAbort p) s = .next u ∧ mget DoeBox.init u.doe p = DoeBox.init ∧ u = { s with doe := u.doe }))

/-- The data that completes an entry's read frees the entry and reaches the read; a completion of no entry is logged and counted and changes no
read; Unsupported Request fails the read. A timeout puts the entry in quarantine, fails its read and is counted, and the end of the quarantine
frees it. A tag that becomes free lets the oldest read that may be issued go on. A quota whose minima would pass 8,192 entries is refused. -/
def Obligations.ReadTracking : Prop :=
  (∀ (i : Fin 4096) (tag : Nat) (s : State), (s.entries.find? fun e => e.inst == i.val && e.tag == tag) = none →
    ∀ bs, exec (.completionReceived i tag .good (.data bs)) s =
      .next ((s.aerLog i .unexpectedCompletion).bumpPci Fld.PCIC_UNEXP_CPL_COUNT i)) ∧
  (∀ (i : Fin 4096) (tag : Nat) (e : ReadEntry) (s : State), (s.entries.find? fun e => e.inst == i.val && e.tag == tag) = some e → e.quar = false →
    (∀ bs, e.xlat = none → e.got = [] → bs.length = e.len → exec (.completionReceived i tag .good (.data bs)) s = .next ((s.freeEntry e).partDone e bs)) ∧
    (∀ (bs : List Byte) (r : HostRead) (p : ReadPart), (s.hreads.find? fun r => r.id == e.read && r.res.isNone) = some r → r.parts = [p] →
      e.part = 0 → { r with parts := [{ p with got := some bs }], res := some (.ok bs) } ∈ ((s.freeEntry e).partDone e bs).hreads) ∧
    (∀ r, e.xlat = none → (s.hreads.find? fun r => r.id == e.read && r.res.isNone) = some r →
      ∃ u, exec (.completionTimeout i tag) s = .next u ∧ { r with res := some .fail } ∈ u.hreads ∧ { e with quar := true } ∈ u.entries ∧
        counted s u Fld.PCIC_CTO_COUNT (pfOf i) ∧ leaves s u)) ∧
  (∀ (i : Fin 4096) (tag : Nat) (s : State), ∃ u, exec (.quarantineEnd i tag) s = .next u ∧
    (∀ e ∈ u.entries, ¬ (e.inst = i.val ∧ e.tag = tag ∧ e.quar = true)) ∧
    (∀ e ∈ s.entries, ¬ (e.inst = i.val ∧ e.tag = tag ∧ e.quar = true) → e ∈ u.entries) ∧ u = { s with entries := u.entries }) ∧
  (∀ (i : Fin 4096) (r : HostRead) (k : Nat) (s t : State), s.writesOf i = [] →
    (s.hreads.find? fun r => r.inst == i.val && r.nextPart.isSome) = some r → r.nextPart = some k → s.issuePart r k = .go t →
    exec (.tagAvailable i) s = .next (t.pumpReads i (s.partsWaiting - 1))) ∧
  (∀ (i : Fin 4096) (v : Word) (s : State),
    let total := s.tagResv (ctlOf i) - s.fget Fld.PCI_TAG_QUOTA_MIN i + Fld.PCI_TAG_QUOTA_MIN.of v
    (8192 < total → exec (.tagQuotaWrite i v) s = .next (s.fset Fld.PCI_TAG_POOL_QUOTA_REFUSED (ctlOf i) 1)) ∧
    (total ≤ 8192 → s.fbit Fld.CAPO_INST_CTL_STRICT i = false → exec (.tagQuotaWrite i v) s =
      .next (s.wr Reg.PCI_TAG_QUOTA i (writeFields false Reg.PCI_TAG_QUOTA (s.rd Reg.PCI_TAG_QUOTA i) v))))

/-! ### Rings (chapter 10) -/

/-- A ring block that passes the end of its kind is refused; on a machine without blocks and live rings one that fits is stored. A DISABLED ring
that may be enabled becomes ACTIVE with both indices 0 under its instance and local number, one that may not is refused, and a ring in use
refuses word 0 with EN = 1 and word 1. EN = 0 drains an SQ or RQ, and disables a CQ that no ring names; a drained ring becomes DISABLED. A
doorbell of an ACTIVE ring goes to its lane too, sets its index, enters ERROR with OVERRUN past its size, and is counted as stale behind it; of
a ring that does not exist it is counted, in the dark period kept, and under freeze it goes to the ledger. A doorbell read answers state, cause
and index, and in the dark zero. -/
def Obligations.RingsAndDoorbells : Prop :=
  (∀ (i : Fin 4096) (k : Fin 3) (v : Word) (s : State),
    let base := Fld.HQE_INST_RINGS_BASE.of v
    let cnt := min 256 (Fld.HQE_INST_RINGS_COUNT.of v)
    (65536 < base + cnt → exec (.ringMapWrite i k v) s = .next (s.fset Fld.HQE_STATUS_MAP_REFUSED 0 1)) ∧
    (base + cnt ≤ 65536 → s.listed Reg.HQE_INST_RINGS = [] → s.liveRings k = [] → exec (.ringMapWrite i k v) s =
      .next (s.wr Reg.HQE_INST_RINGS (ix2 3 i k) (writeFields false Reg.HQE_INST_RINGS 0 v)))) ∧
  (∀ (k : Fin 3) (n : Fin 65536) (v : Word) (s : State),
    (s.ringSt k n = 0 → ∀ i l, s.ringOwner k n = some (i, l) → s.mayEnable k n (v ||| fieldAt 1 63) = true →
      ∃ u, exec (.ringEnable k n v) s = .next u ∧ u.ringSt k n = 1 ∧ u.fget (rHi k) n = 0 ∧ u.fget (rLo k) n = 0 ∧
        u.ringX k n = { RingX.init with inst := i, locN := l } ∧ leaves s u) ∧
    (s.ringSt k n = 0 → s.mayEnable k n (v ||| fieldAt 1 63) = false → ∃ u, exec (.ringEnable k n v) s = .next u ∧
      u.fbit Fld.HQE_STATUS_ENABLE_REFUSED 0 = true ∧ u.ringSt k n = 0 ∧ u = { s with regs := u.regs }) ∧
    (s.ringSt k n ≠ 0 → exec (.ringEnable k n v) s = .next (s.bump Fld.HQEC_CFG_REFUSED_COUNT) ∧
      exec (.ringElementWrite k n 1 v) s = .next (s.bump Fld.HQEC_CFG_REFUSED_COUNT)) ∧
    (s.ringSt k n = 0 → exec (.ringElementWrite k n 1 v) s = .next (s.wr (ringReg k 1) n (writeFields false (ringReg k 1) 0 v))) ∧
    (exec (.ringElementWrite k n 2 v) s = .next s) ∧
    (k ≠ 2 → s.ringSt k n = 1 ∨ s.ringSt k n = 3 → ∃ u, exec (.ringDisable k n) s = .next u ∧ u.ringSt k n = 4 ∧ (u.ringX k n).chip = []) ∧
    (k = 2 → s.ringSt 2 n = 1 ∨ s.ringSt 2 n = 3 → (∀ j ∈ [0, 1], ∀ m ∈ s.liveRings j, s.fget (rCq j) m ≠ n.val) →
      ∃ u, exec (.ringDisable k n) s = .next u ∧ u.ringSt 2 n = 0 ∧ u.heldOf n = [])) ∧
  (∀ (rq : Bool) (n : Fin 65536) (s : State), s.ringSt (b2n rq) n = 4 →
    (s.onChip (b2n rq) n = 0 → ∃ u, exec (.ringDrainComplete rq n) s = .next u ∧ u.ringSt (b2n rq) n = 0 ∧ u.ringX (b2n rq) n = RingX.init) ∧
    (s.onChip (b2n rq) n ≠ 0 → exec (.ringDrainComplete rq n) s = .next s)) ∧
  (∀ (i : Fin 4096) (rq : Bool) (r : Fin 256) (v : BitVec 16) (s : State), let k := b2n rq
    (s.ringGlobal i k r = none → s.fbit Fld.STO_CTRL_W0_NVME i = false →
      exec (.sqRqDoorbell i rq r v) s = .next (s.bump Fld.HQEC_DB_UNMAPPED_COUNT)) ∧
    ∀ n, s.ringGlobal i k r = some n →
      (s.dark = true → ∃ u, exec (.sqRqDoorbell i rq r v) s = .next u ∧
        mfind u.darkDb (i * 768 + 256 * k + r) = some (fieldAt v.toNat 0) ∧ leaves s u) ∧
      (s.dark = false → s.frozen i = true → exec (.sqRqDoorbell i rq r v) s = .next (s.ledgerPut i k r v.toNat false)) ∧
      (s.dark = false → s.frozen i = false → s.ringSt k n = 1 → s.ringNvme k n = false →
        let lane : State := { s with ucDoorbells := mset [] s.ucDoorbells (ringKey k n) (mget [] s.ucDoorbells (ringKey k n) ++ [fieldAt v.toNat 0]) }
        let size := s.ringSize k n
        let c := s.fget (rLo k) n
        let p := s.fget (rHi k) n
        (size < ringDist v.toNat c → ∃ u, exec (.sqRqDoorbell i rq r v) s = .next u ∧ u.ringSt k n = 3 ∧ u.fget (rCause k) n = 1) ∧
        (ringDist v.toNat c ≤ size → ringDist v.toNat c < ringDist p c → exec (.sqRqDoorbell i rq r v) s = .next (lane.bump Fld.HQEC_DB_STALE_COUNT)) ∧
        (ringDist v.toNat c ≤ size → ringDist p c ≤ ringDist v.toNat c → ∃ u, exec (.sqRqDoorbell i rq r v) s = .next u ∧
          u.fget (rHi k) n = v.toNat ∧ u.fget (rLo k) n = c ∧ u.ringSt k n = 1 ∧ u.ucDoorbells = lane.ucDoorbells ∧ leaves s u))) ∧
  (∀ (i : Fin 4096) (r : Fin 256) (v : BitVec 16) (arm : Bool) (n : Nat) (s : State), s.ringGlobal i 2 r = some n → s.dark = false →
    s.frozen i = false → s.ringSt 2 n ≠ 0 → s.ringNvme 2 n = false →
    let t := s.fget (rHi 2) n
    (ringDist t v.toNat ≤ s.ringSize 2 n → ringDist t v.toNat ≤ ringDist t (s.fget (rLo 2) n) → ∃ u, exec (.cqDoorbell i r v arm) s = .next u ∧
      u.fget (rLo 2) n = v.toNat) ∧
    (s.ringSize 2 n < ringDist t v.toNat → s.ringSt 2 n = 1 → ∃ u, exec (.cqDoorbell i r v arm) s = .next u ∧ u.ringSt 2 n = 3 ∧
      u.fget (rCause 2) n = 1)) ∧
  (∀ (i : Fin 4096) (k : Fin 3) (r : Fin 256) (s : State),
    exec (.doorbellRead i k r) s = .next (s.emit (.barAnswer i (some (if s.dark then 0 else s.doorbellWord i k r)))))

/-- A fetched RQ entry that passes its checks joins the chip and C moves past it; a fetch that failed puts its ring in ERROR. The last payload
read of a transmit job enters its frame under the next handle with the bytes read, in order, and retires the job, unless it waits for its
departure, which then retires it; a frame with a flow handle waits behind an earlier one of its ring. A frame handed to the HQE leaves the
adapter: into its ring's first buffers, which leave the chip, or nowhere where it is orphaned or no ring takes it. A CQ whose held completions time out enters ERROR, counted. A timer that ends for an armed, occupied CQ sends its vector. -/
def Obligations.JobsMoveFrames : Prop :=
  (∀ (n : Fin 65536) (first cnt : Nat) (rest : List (Nat × Nat)) (s t : State), (s.ringX 1 n).fetches = (first, cnt) :: rest → s.ringSt 1 n = 1 →
    (∀ bs, s.takeRead (.fetch 1 n first) = some (.ok bs, t) → cnt = 1 → let ws := entryWords 32 0 bs
      entryCheck 1 (s.fget (rLog 1) n) (s.fget (rLo 1) n) (s.ringX 1 n).chip.length ws = 0 → ∃ u, exec (.descriptorData true n) s = .next u ∧
        (u.ringX 1 n).chip = (s.ringX 1 n).chip ++ [⟨s.fget (rLo 1) n, ws⟩] ∧ u.fget (rLo 1) n = (s.fget (rLo 1) n + 1) % 65536) ∧
    (s.takeRead (.fetch 1 n first) = some (.fail, t) → ∃ u, exec (.descriptorData true n) s = .next u ∧ u.ringSt 1 n = 3 ∧
      u.fget (rCause 1) n = 2)) ∧
  (∀ (job : Nat) (j : TxJob) (rs : List ReadRes) (s t : State), mfind s.txJobs job = some j → j.handed = false →
    (s.handleWaits j = true → exec (.txPayloadDone job) s = .next s) ∧ (s.handleWaits j = false → s.payload job j.ents.length = some (rs, t) →
    let bytes := (rs.map fun r => match r with | .ok bs => bs | _ => []).flatten
    let sound := rs.all fun r => match r with | .ok _ => true | _ => false
    (sound = true → bit j.first 57 = false → s.ingRoom (bytes.length + 4) = true → s.srcQueue (36 + ctlOf j.inst) < 64 →
      ∃ u f, exec (.txPayloadDone job) s = .next u ∧ frameAt u (s.handles % 2 ^ 24) f ∧ f.bytes = bytes ∧ f.inst = j.inst ∧
        f.src = 36 + ctlOf j.inst ∧
        (j.tsReq = false → mfind u.txJobs job = none) ∧ (j.tsReq = true → mfind u.txJobs job = some { j with handed := true })) ∧
    (sound = false → ∃ u, exec (.txPayloadDone job) s = .next u ∧ mfind u.txJobs job = none ∧ u.frames = s.frames))) ∧
  (∀ (job : Nat) (j : TxJob) (stamp : Option Word) (s : State), (s.txGone.find? fun g => g.1 == job) = some (job, stamp) →
    mfind s.txJobs job = some j → ∃ u, exec (.txDeparture job) s = .next u ∧ mfind u.txJobs job = none ∧ ∀ g ∈ u.txGone, g.1 ≠ job) ∧
  (∀ (h q : Nat) (f : Frame) (s : State), frameAt s h f → f.stage = .host q → s.hostOut.head? = some h →
    (s.frameOrphan f = true ∨ s.rqOf q = none → exec (.rxFrame h) s = .next ((s.hostDeparts f).freeFrame h)) ∧
    (∀ n bufs, s.frameOrphan f = false → s.rqOf q = some n → s.ringSt 1 n = 1 → s.usable (s.ringX 1 n).inst = true → bufs ≠ [] →
      fillBuffers (s.ringX 1 n).chip f.bytes = (bufs, []) →
      ((s.stalledOf (s.fget (rCq 1) n)).any fun c => c.kind == 1 && c.n == n) = false →
      ∃ u, exec (.rxFrame h) s = .next u ∧ gone u h ∧ (u.ringX 1 n).chip = (s.ringX 1 n).chip.drop bufs.length)) ∧
  (∀ (n : Fin 65536) (s : State),
    (s.heldOf n ≠ [] → s.ringSt 2 n = 1 ∨ s.ringSt 2 n = 2 → ∃ u, exec (.fullTimeout n) s = .next u ∧ u.ringSt 2 n = 3 ∧
      u.fget (rCause 2) n = 8 ∧ counted s u Fld.HQEC_CQ_TIMEOUT_COUNT 0) ∧
    (s.heldOf n = [] → exec (.fullTimeout n) s = .next s) ∧
    (mget 0 s.fullerT n = 1 → s.ringSt 2 n ≠ 0 → s.fbit Fld.HQE_CQ_W2_ARMED n = true → s.ringOcc 2 n ≠ 0 →
      ∃ u, exec (.fullerTimer n) s = .next u ∧ u.fbit Fld.HQE_CQ_W2_ARMED n = false ∧ counted s u Fld.HQEC_VECTORS_COUNT 0))

/-! ### Microcode (chapter 11) -/

namespace Sys2Proof.Claims

/-- The word a context would fetch is `m`, a legal word that is no safe point and has no unit operation, within its segment. -/
def plainWord (s : State) (x : Nat) (m : Micro) : Prop :=
  s.ucWord (s.ucFetchAddr (s.ucPc x)) = some m ∧ m.illegal = false ∧ m.safept = false ∧ s.fget Fld.HQE_UC_CTX_STATUS_SEG_COUNT x < 512 ∧ m.uop = 0

/-- Whether the branch of a word would be taken. -/
def ucTaken (s : State) (x : Nat) (m : Micro) : Bool := s.ucCond x m.cond (s.ucCtx x).r != bit m.w0 49

/-- Command `i` issues a lane's word of SEQOP `k`. -/
def ucCommand (lane : Fin 32) (ecc : UcEcc) (k : Nat) (i : Instr) : Prop :=
  (k = 0 ∧ i = .ucNext lane ecc) ∨ (k = 1 ∧ i = .ucJump lane ecc) ∨ (k = 2 ∧ i = .ucBranch lane ecc) ∨ (k = 3 ∧ i = .ucCall lane ecc) ∨
  (k = 4 ∧ i = .ucReturn lane ecc) ∨ (k = 5 ∧ i = .ucDispatch lane ecc) ∨ (k = 6 ∧ i = .ucWait lane ecc) ∨ (k = 7 ∧ i = .ucEnd lane ecc)

/-- The word a lane's context fetches arrives: one of the two copies it may be served from is good. -/
def ucArrives (s : State) (lane x : Nat) (ecc : UcEcc) : Prop := (s.ucFetch lane (s.ucFetchAddr (s.ucPc x)) ecc).1 = true

/-- A context changes its regime only at its next safe point. -/
def ucLate (s : State) (x : Nat) : Prop := s.ucSt x ≠ 0 ∧ ¬ (s.ucSt x = 2 ∧ (s.ucCtx x).waitSafe = true)

end Sys2Proof.Claims

/-- The command of a word's SEQOP issues it for the context whose turn it is: pc and call stack become what the sequencing says, the context
stays in RUN, waits after WAIT and is IDLE and unbound after END; an ADD writes its sum to DST; memory is as before. The fetch may be of a good
or a corrected copy, or be served from the next replica. A word whose copies are both bad, or whose encoding is reserved, or a call beyond eight
returns, or a fetch at a reserved address, faults the context and leaves its registers. A command of another SEQOP, and a lane without a ready
context, change nothing. -/
def Obligations.MicrowordsIssue : Prop :=
  (∀ (lane : Fin 32) (x : Nat) (m : Micro) (nxt : Nat) (stack : List Nat) (s : State), s.ucTurn lane = some x → s.ucBreak x = false →
    plainWord s x m → m.next (s.ucFetchAddr (s.ucPc x)) (ucTaken s x m) (s.ucCtx x).r = some (nxt, stack) →
    ∀ ecc i, ucArrives s lane x ecc → ucCommand lane ecc m.seqop i → ∃ u, exec i s = .next u ∧ leaves s u ∧ (u.ucCtx x).r.stack = stack ∧
      (m.aluop = 1 → bit m.w1 42 = false → m.dst ≠ 0 → (u.ucCtx x).r.get m.dst =
        (s.ucCtx x).r.get (bits m.w1 52 48) + (s.ucCtx x).r.get (bits m.w1 47 43)) ∧
      (m.seqop ≤ 5 → u.ucPc x = nxt % 2 ^ 15 ∧ u.ucSt x = 1) ∧ (m.seqop = 6 → u.ucSt x = 2 ∧ (u.ucCtx x).waitEv = m.waitev) ∧
      (m.seqop = 7 → u.ucSt x = 0 ∧ (u.ucCtx x).bind = none)) ∧
  (∀ (lane : Fin 32) (x : Nat) (m : Micro) (s : State), s.ucTurn lane = some x → s.ucBreak x = false →
    s.ucWord (s.ucFetchAddr (s.ucPc x)) = some m →
    (∀ ecc i, ¬ ucArrives s lane x ecc ∨ m.illegal = true → ucCommand lane ecc m.seqop i → ∃ u, exec i s = .next u ∧ u.ucSt x = 4 ∧
      (u.ucCtx x).r = (s.ucCtx x).r ∧ mget false u.latch 531 = true ∧ leaves s u) ∧
    (plainWord s x m → m.seqop = 3 → 8 ≤ (s.ucCtx x).r.stack.length → ∀ ecc, ∃ u, exec (.ucCall lane ecc) s = .next u ∧ u.ucSt x = 4 ∧
      (u.ucCtx x).r = (s.ucCtx x).r) ∧
    (∀ ecc k i, k ≠ m.seqop → ucCommand lane ecc k i → exec i s = .next s)) ∧
  (∀ (lane : Fin 32) (x : Nat) (s : State), s.ucTurn lane = some x → s.ucBreak x = false → s.ucWord (s.ucFetchAddr (s.ucPc x)) = none →
    ∀ ecc k i, ucCommand lane ecc k i → ∃ u, exec i s = .next u ∧ u.ucSt x = 4 ∧ (u.ucCtx x).r = (s.ucCtx x).r ∧ leaves s u) ∧
  (∀ (lane : Fin 32) (ecc : UcEcc) (k : Nat) (i : Instr) (s : State), s.ucTurn lane = none → ucCommand lane ecc k i → exec i s = .next s)

/-- A dispatched routine, or job of a live ring, takes an idle context of its lane, bound to its instance's generation, at its entry. The event of a waiting context
lets it go on at the next word. RESUME, ROLLFWD and RESTART take a HELD or FAULTED context to the word after its safe point, to its
roll-forward entry, or to its checkpoint with the registers saved there. A patch load is refused once work has started, and fills patch RAM only
where every check passes. A new REGIME stands at once where every context is idle or waits at a safe point; a context that does not keeps the
change pending; while one is pending, or a patch loads, a write leaves REGIME. Debug halts, steps and runs a context only where the regime
allows it, and is refused elsewhere. -/
def Obligations.MicrocodeControl : Prop :=
  (∀ (entry : Fin 64) (i : Fin 4096) (x0 : Nat) (s : State), x0 / 8 = i.val % 32 → s.ucSt x0 = 0 →
    ∃ u x, exec (.ucJobDispatch entry (.routine i)) s = .next u ∧ x / 8 = i.val % 32 ∧ s.ucSt x = 0 ∧ u.ucSt x = 1 ∧ u.ucPc x = entry.val ∧
      (u.ucCtx x).bind = some (i.val, s.gen i) ∧ leaves s u) ∧
  (∀ (entry : Fin 64) (k : Fin 3) (n : Fin 65536) (x0 : Nat) (s : State), x0 / 8 = n.val % 32 → s.ucSt x0 = 0 → s.ringSt k n ≠ 0 →
    let i := (s.ringX k n).inst
    ∃ u x, exec (.ucJobDispatch entry (.ring k n)) s = .next u ∧ x / 8 = n.val % 32 ∧ s.ucSt x = 0 ∧ u.ucSt x = 1 ∧ u.ucPc x = entry.val ∧
      (u.ucCtx x).bind = some (i, s.gen i) ∧ (u.ucCtx x).ring = some (k.val, n.val) ∧ leaves s u) ∧
  (∀ (c : Fin 256) (s : State),
    (s.ucSt c = 2 → (s.ucCtx c).waitEv ≠ 2 → (s.ucCtx c).waitEv ≠ 3 → (s.ucCtx c).waitEv ≠ 4 → ∃ u, exec (.ucWaitEvent c) s = .next u ∧
      u.ucSt c = 1 ∧ u.ucPc c = (s.ucPc c + 1) % 2 ^ 15 ∧ leaves s u) ∧
    (s.ucSt c = 3 → (∃ u, exec (.ucResume c) s = .next u ∧ u.ucSt c = 1 ∧
        u.ucPc c = (s.fget Fld.HQE_UC_CTX_STATUS_SP_PC c + 1) % 2 ^ 15 ∧ u = { s with regs := u.regs }) ∧
      ∃ u, exec (.ucRollfwd c) s = .next u ∧ u.ucSt c = 1 ∧ u.ucPc c = (s.ucCtx c).target % 2 ^ 15 ∧
        u.fbit Fld.HQE_UC_CTX_STATUS_ROLLFWD_ACTIVE c = true ∧ u = { s with regs := u.regs }) ∧
    (s.ucSt c = 4 → s.fget Fld.HQE_UC_CTX_STATUS_RESTARTS c < 3 → ∃ u, exec (.ucRestart c) s = .next u ∧ u.ucSt c = 1 ∧
      u.ucPc c = s.fget Fld.HQE_UC_CTX_STATUS_SP_PC c ∧ (u.ucCtx c).r = (s.ucCtx c).chk ∧
      u.fget Fld.HQE_UC_CTX_STATUS_RESTARTS c = s.fget Fld.HQE_UC_CTX_STATUS_RESTARTS c + 1 ∧ leaves s u) ∧
    (s.ucSt c = 4 → s.fget Fld.HQE_UC_CTX_STATUS_RESTARTS c = 3 → exec (.ucRestart c) s = .next s)) ∧
  (∀ (v : Word) (s : State), s.fbit Fld.HQE_PATCH_STATUS_BUSY 0 = true →
    exec (.patchLoad v) s = .next (s.fset Fld.HQE_PATCH_LOAD_ADDR 0 (bits v 47 0))) ∧
  (∀ (v : Word) (s : State), s.fbit Fld.HQE_PATCH_STATUS_BUSY 0 = false →
    ((∀ x < 256, s.ucSt x = 0) → s.fbit Fld.HQE_MODE_STARTED 0 = false → ∃ u, exec (.patchLoad v) s = .next u ∧
      u.fbit Fld.HQE_PATCH_STATUS_BUSY 0 = true ∧ u.fget Fld.HQE_PATCH_LOAD_ADDR 0 = bits v 47 0 ∧
      u.patchJob = (bits v 47 0, s.fget Fld.HQE_PATCH_STATUS_LEN 0) ∧ u = { s with regs := u.regs, patchJob := u.patchJob }) ∧
    (s.fbit Fld.HQE_MODE_STARTED 0 = true → ∃ u, exec (.patchLoad v) s = .next u ∧ u.fget Fld.HQE_PATCH_STATUS_RESULT 0 = 7 ∧
      u.fbit Fld.HQE_PATCH_STATUS_BUSY 0 = false)) ∧
  (∀ (img : List Byte) (s t : State), s.fbit Fld.HQE_PATCH_STATUS_BUSY 0 = true →
    s.ddrRead s.patchJob.1 s.patchJob.2 = (some img, t) →
    (∀ plain, patchCheck img = .ok plain → ∃ u, exec .patchLoadDone s = .next u ∧ u.fbit Fld.HQE_PATCH_STATUS_LOADED 0 = true ∧
      u.fbit Fld.HQE_PATCH_STATUS_BUSY 0 = false ∧ u.fget Fld.HQE_PATCH_STATUS_RESULT 0 = 0 ∧ leaves s u) ∧
    (∀ r, patchCheck img = .error r → ∃ u, exec .patchLoadDone s = .next u ∧ u.ucPatch = s.ucPatch ∧
      u.fbit Fld.HQE_PATCH_STATUS_BUSY 0 = false ∧ u.fget Fld.HQE_PATCH_STATUS_RESULT 0 = r ∧ leaves s u)) ∧
  (∀ (v : Word) (s : State), s.warm ≠ 3 →
    (s.fbit Fld.HQE_MODE_MODE_PENDING 0 = true ∨ s.fbit Fld.HQE_PATCH_STATUS_BUSY 0 = true → ∃ u, exec (.regimeWrite v) s = .next u ∧
      u.fget Fld.HQE_MODE_REGIME 0 = s.fget Fld.HQE_MODE_REGIME 0 ∧ u = { s with regs := u.regs }) ∧
    (s.fbit Fld.HQE_MODE_MODE_PENDING 0 = false → s.fbit Fld.HQE_PATCH_STATUS_BUSY 0 = false → (∀ x < 256, s.ucPending x 4 = false) →
      ((∀ c ∈ s.uc, ¬ ucLate s c.1) → ∃ u, exec (.regimeWrite v) s = .next u ∧ u.fget Fld.HQE_MODE_REGIME 0 = bits v 1 0 ∧
        u.fbit Fld.HQE_MODE_MODE_PENDING 0 = false ∧ (∀ c ∈ s.uc, (u.ucCtx c.1).stretch = (bits v 1 0 != 0)) ∧ leaves s u) ∧
      (∀ c ∈ s.uc, c.1 < 256 → ucLate s c.1 → ∃ u, exec (.regimeWrite v) s = .next u ∧
        u.fget Fld.HQE_MODE_REGIME 0 = s.fget Fld.HQE_MODE_REGIME 0 ∧ u.fbit Fld.HQE_MODE_MODE_PENDING 0 = true ∧
        u.ucPending c.1 4 = true ∧ u.ucCtx c.1 = s.ucCtx c.1 ∧ leaves s u))) ∧
  (∀ (lane : Fin 32) (v : Word) (s : State), let x := 8 * lane.val + bits v 18 16
    (s.fget Fld.HQE_MODE_REGIME 0 = 0 ∨ s.fbit Fld.HQE_MODE_DEBUG_EN 0 = false →
      exec (.ucDbgHalt lane v) s = .next (s.fset Fld.HQE_MODE_DBG_REFUSED 0 1) ∧
      (∀ ecc, exec (.ucDbgStep lane v ecc) s = .next (s.fset Fld.HQE_MODE_DBG_REFUSED 0 1)) ∧
      exec (.ucDbgRun lane v) s = .next (s.fset Fld.HQE_MODE_DBG_REFUSED 0 1)) ∧
    (s.fget Fld.HQE_MODE_REGIME 0 ≠ 0 → s.fbit Fld.HQE_MODE_DEBUG_EN 0 = true →
      (s.ucSt x = 1 ∨ s.ucSt x = 2 → ∃ u, exec (.ucDbgHalt lane v) s = .next u ∧ u.ucSt x = 5 ∧ u.ucPc x = s.ucPc x ∧ leaves s u) ∧
      (s.ucSt x = 5 → (s.ucCtx x).prev = 1 → (∃ u, exec (.ucDbgRun lane v) s = .next u ∧ u.ucSt x = 1 ∧ u.ucPc x = s.ucPc x ∧ leaves s u) ∧
        ∀ m ecc, plainWord s x m → m.seqop = 0 → ucArrives s lane x ecc → ∃ u, exec (.ucDbgStep lane v ecc) s = .next u ∧ u.ucSt x = 5 ∧
          u.ucPc x = (s.ucFetchAddr (s.ucPc x) + 1) % 2 ^ 15 ∧ leaves s u)))

/-! ### Instances and Capo (chapter 12) -/

namespace Sys2Proof.Claims

/-- An instance stands in a state with a RESULT and a generation. -/
def instNow (u : State) (i st result gen : Nat) : Prop :=
  u.instState i = st ∧ u.fget Fld.CAPO_INST_STATUS_RESULT i = result ∧ u.gen i = gen

/-- The transfer of an instance has ended in FROZEN with a RESULT, and the Capo interrupt is raised. -/
def xferOver (u : State) (i result : Nat) : Prop :=
  u.instState i = 4 ∧ u.fget Fld.CAPO_INST_STATUS_RESULT i = result ∧ u.fbit Fld.CAPO_XFER_STATUS_BUSY 0 = false ∧ mget false u.latch 532 = true

/-- The transport key context of a transfer may seal (`open_` false) or open an image. -/
def mtkReady (s : State) (open_ : Bool) : Prop :=
  let c := s.fget Fld.CAPO_XFER_CFG_MTK_CTX 0
  s.noCipher = false ∧ s.ctxState c = 1 ∧ s.ctxAlg c = 2 ∧ s.ctxUse c = 3 ∧ s.fbit Fld.CIP_CTX_W0_DIR c = open_ ∧
    s.fget Fld.CIP_CTX_W0_CSUB_CLU c = 0

end Sys2Proof.Claims

/-- CREATE of an OFF instance that meets its checks makes it READY in the next generation and otherwise reports CHECK; DESTROY and RESET of an
OFF one report a bad state. A reset or destroy of a READY one opens the next generation, which GEN shows modulo 2^16, and leaves no transmit job,
no waiting write and no host read of it but those it makes as a PF for other instances; RESET_COMPLETE brings it to READY, or to OFF after a
destroy, once no older work and no ring of it is left, and ends a controller reset with RDY at 0. A freeze takes READY to FREEZING in the same
generation and keeps only the transmit jobs that had started; the drain takes it to FROZEN, and its timeout does so in the next generation;
UNFREEZE takes an unsaved FROZEN one back to READY. -/
def Obligations.InstanceStates : Prop :=
  ∀ (i : Fin 4096) (s : State), let st := s.instState i
    let saved := s.fbit Fld.CAPO_INST_STATUS_SAVED i
    let gen' := s.gen i + 1
    (st = 0 → (s.createOk i = true → ∃ u, exec (.instanceCreate i) s = .next u ∧ instNow u i 1 0 gen' ∧ leaves s u) ∧
      (s.createOk i = false → exec (.instanceCreate i) s = .next (s.capoResult i 2)) ∧
      exec (.instanceReset i) s = .next (s.capoResult i 1) ∧ exec (.instanceDestroy i) s = .next (s.capoResult i 1)) ∧
    (st = 1 → exec (.instanceCreate i) s = .next (s.capoResult i 1)) ∧
    (st = 1 → s.ucBound i = [] → ∀ d : Bool, ∃ u, exec (if d then .instanceDestroy i else .instanceReset i) s = .next u ∧ u.instState i = 2 ∧
      u.gen i = gen' ∧ u.fget Fld.CAPO_INST_STATUS_GEN i = gen' % 2 ^ 16 ∧ mget false u.capoOff i = d ∧ u.writesOf i = [] ∧
      (∀ r ∈ u.hreads, r.inst = i.val → ∃ j, j ≠ i.val ∧ (r.who = .pageLog j ∨ r.who = .image j)) ∧ (∀ j ∈ u.txJobs, j.2.inst ≠ i.val) ∧ leaves s u) ∧
    (st = 2 → s.oldWork i = false → (∀ k < 3, s.ringsOf k i = []) → s.warm = 0 → s.csubs = [] →
      ∃ u, exec (.resetComplete i) s = .next u ∧ u.instState i = (if mget false s.capoOff i then 0 else 1) ∧
        u.fget Fld.CAPO_INST_STATUS_RESULT i = 0 ∧ mget false u.latch 532 = true ∧ mget false u.rrs i = false ∧
        (mget false s.ccReset i = true → u.fbit Fld.STO_CTRL_W1_RDY i = false)) ∧
    (st = 2 → s.oldWork i = true ∨ (∃ k < 3, s.ringsOf k i ≠ []) → exec (.resetComplete i) s = .next s) ∧
    (st = 1 → s.ucBound i = [] → ∃ u, exec (.instanceFreeze i) s = .next u ∧ u.instState i = 3 ∧ u.gen i = s.gen i ∧
      (∀ j ∈ u.txJobs, j.2.inst = i.val → s.jobStarted j.1 j.2 = true) ∧ leaves s u) ∧
    (st ≠ 1 → exec (.instanceFreeze i) s = .next (s.capoResult i 1)) ∧
    (st = 3 → (s.startedJobs i = false → ∃ u, exec (.freezeDrainDone i) s = .next u ∧ instNow u i 4 0 (s.gen i) ∧
        mget false u.latch 532 = true ∧ leaves s u) ∧
      (s.startedJobs i = true → exec (.freezeDrainDone i) s = .next s) ∧
      (s.ucBound i = [] → ∃ u, exec (.freezeTimeout i) s = .next u ∧ instNow u i 4 0 gen' ∧ mget false u.latch 532 = true ∧ leaves s u)) ∧
    (st = 4 → (saved = false → ∃ u, exec (.instanceUnfreeze i) s = .next u ∧ u.instState i = 1 ∧ u.fget Fld.CAPO_INST_STATUS_RESULT i = 0) ∧
      (saved = true → exec (.instanceUnfreeze i) s = .next (s.capoResult i 1)))

/-- A SAVE of an unsaved FROZEN instance that passes its checks starts a transfer and one that does not reports why; a RESTORE into one without rings
starts too, with the read of its image as the PF. A finished save that is sealed and written leaves the instance FROZEN and SAVED; one longer than
LEN, or than 4 MiB without its flows and learned entries (the RESULT is the model's choice, log entry 72), and a restore whose image cannot be
read, end in FROZEN with their RESULT. A context whose key either of them finds lost is erased to EMPTY, a policer or element whose state word
is lost has full buckets, or its parent's V and its BURST, and the transfer goes on with what is left. A restore applies an image that passes every check and ends DONE; one that a check refuses loads nothing.
A mailbox GO makes it BUSY and raises its source, or is refused while BUSY and in the dark; DONE ends it. A range write, LOG_EN, a filter clear of
an unsaved instance and a consumer read are stored. -/
def Obligations.SaveRestoreAndLog : Prop :=
  (∀ (i : Fin 4096) (s : State), s.instState i = 4 → s.fbit Fld.CAPO_INST_STATUS_SAVED i = false →
    (s.saveCheck i = 0 → ∃ u, exec (.instanceSave i) s = .next u ∧ u.instState i = 5 ∧ u.fbit Fld.CAPO_XFER_STATUS_BUSY 0 = true ∧
      u = { s with regs := u.regs }) ∧
    (s.saveCheck i ≠ 0 → exec (.instanceSave i) s = .next (s.capoResult i (s.saveCheck i))) ∧
    (s.fbit Fld.CAPO_XFER_STATUS_BUSY 0 = false → (∀ k < 3, s.ringsOf k i = []) → ∃ u, exec (.instanceRestore i) s = .next u ∧
      u.instState i = 6 ∧ u.fbit Fld.CAPO_XFER_STATUS_BUSY 0 = true ∧ (∃ r ∈ u.hreads, r.who = .image i ∧ r.inst = pfOf i) ∧ leaves s u)) ∧
  (∀ (i : Fin 4096) (found : Upsets) (r : State), r.instState i = 5 →
    let s := r.upset found
    let split (l : List CapoSec) : List CapoSec := (l.map fun p => capoSplit p.1 (p.2.length + 1) p.2).flatten
    let all := split (s.imageSecs i) ++ [(15, [])]
    let len := imageLength all
    let hdr := s.imageHeader i all.length len
    let mtk := s.fget Fld.CAPO_XFER_CFG_MTK_CTX 0
    (s.fget Fld.CAPO_XFER_CFG_LEN 0 < len → ∃ u, exec (.saveComplete i found) r = .next u ∧ xferOver u i 4 ∧ leaves s u) ∧
    (len ≤ s.fget Fld.CAPO_XFER_CFG_LEN 0 → 2 ^ 22 < imageLength (split ((s.imageSecs i).take 8) ++ [(15, [])]) →
      ∃ u, exec (.saveComplete i found) r = .next u ∧ xferOver u i 8 ∧ leaves s u) ∧
    (len ≤ s.fget Fld.CAPO_XFER_CFG_LEN 0 → imageLength (split ((s.imageSecs i).take 8) ++ [(15, [])]) ≤ 2 ^ 22 → mtkReady s false →
      ∀ body t t', s.sealSecs hdr mtk all = (some body, t) →
      t.hostWrite (pfOf i) (t.gen (pfOf i)) (t.rd Reg.CAPO_XFER_ADDR 0).toNat (hdr ++ body) false false false .image = (t', false) →
      ∃ u, exec (.saveComplete i found) r = .next u ∧ xferOver u i 0 ∧ u.fbit Fld.CAPO_INST_STATUS_SAVED i = true ∧ u.out = t'.out)) ∧
  (∀ (i : Fin 4096) (keys : List (Fin 65536)) (words : List StateWord) (q : State), q.instState i = 6 →
    let s := q.upset ⟨keys, words⟩
    32 ≤ s.fget Fld.CAPO_XFER_CFG_LEN 0 →
    (∀ r t, r = .fail ∨ r = .poison ∨ r = .refused → s.takeRead (.image i) = some (r, t) →
      ∃ u, exec (.restoreComplete i keys words) q = .next u ∧ xferOver u i 10 ∧ leaves s u) ∧
    (∀ buf t opened secs c, s.takeRead (.image i) = some (.ok buf, t) → 32 ≤ buf.length → bits (imgWord buf 0) 63 16 = 0x4341504F0001 →
      (imgWord buf 2).toNat ≤ buf.length → bits (imgWord buf 1) 50 16 = 0 → mtkReady t true →
      let bs := buf.take (imgWord buf 2).toNat
      let mtk := t.fget Fld.CAPO_XFER_CFG_MTK_CTX 0
      (∀ r, r = 7 ∨ r = 11 → t.openSecs (bs.take 32) mtk (bs.length + 1) 0 (bs.drop 32) = (r, opened, secs) →
        ∃ u, exec (.restoreComplete i keys words) q = .next u ∧ xferOver u i r ∧ leaves s u ∧ u.ringx = s.ringx) ∧
      (t.openSecs (bs.take 32) mtk (bs.length + 1) 0 (bs.drop 32) = (0, opened, secs) → secs.length < 65535 →
        bits (imgWord buf 0) 15 0 = secs.length + 1 → imageIn secs = some c →
        let v := t.fadd Fld.CIP_CTX_W2_INV_CNT mtk opened
        (v.restoreCheck i c = 0 → exec (.restoreComplete i keys words) q =
          .next ((((v.restoreApply i c).fset Fld.CAPO_XFER_STATUS_BYTES 0 bs.length).eraseCtx mtk).xferEnd i 0)) ∧
        (v.restoreCheck i c ≠ 0 → exec (.restoreComplete i keys words) q = .next (v.xferEnd i (v.restoreCheck i c)))))) ∧
  (∀ (c : Fin 65536) (p : Fin 1048576) (s : State), (s.ctxState c ≠ 0 → (s.keyUpset c).ctxState c = 0 ∧ (s.keyUpset c).key c = []) ∧
    (s.wordUpset (.policer p)).fget Fld.TM_POL_W2_TC p = min 16777216 (s.fget Fld.TM_POL_W0_CBS p) ∧
    (s.wordUpset (.policer p)).fget Fld.TM_POL_W2_TE_TP p = min 16777216 (s.fget Fld.TM_POL_W1_EBS_PBS p)) ∧
  (∀ (n : Fin 348198) (q : Nat) (s : State), s.tmParent n = some q →
    let u := s.wordUpset (.element n)
    u.fget Fld.TM_NODE_W2_F n = s.fget Fld.TM_NODE_W4_V q ∧ u.tmTokens n = s.tmBurst n) ∧
  (∀ (i : Nat) (r : Nat) (s : State), i < 4096 → r < 16 → xferOver (s.xferEnd i r) i r) ∧
  (∀ (p : Fin 4) (v : Word) (s : State),
    (s.dark = true → exec (.mailboxGo p v) s = .next (s.bumpPci Fld.PCIC_DARK_WRITES_COUNT p)) ∧
    (s.dark = false → s.fbit Fld.PCI_MBX_CTL_BUSY p = false → ∃ u, exec (.mailboxGo p v) s = .next u ∧ u.fbit Fld.PCI_MBX_CTL_BUSY p = true ∧
      u.fget Fld.PCI_MBX_CTL_SEQ p = bits v 47 32 ∧ mget false u.latch (520 + p) = true ∧ leaves s u) ∧
    (s.dark = false → s.fbit Fld.PCI_MBX_CTL_BUSY p = true → ∃ u, exec (.mailboxGo p v) s = .next u ∧
      u.fbit Fld.PCI_MBX_CTL_REFUSED p = true ∧ u.fget Fld.PCI_MBX_CTL_SEQ p = s.fget Fld.PCI_MBX_CTL_SEQ p ∧ u = { s with regs := u.regs }) ∧
    (∃ u, exec (.mailboxDone p v) s = .next u ∧ u.fbit Fld.PCI_MBX_CTL_BUSY p = false ∧ u.fget Fld.PCI_MBX_CTL_RESULT p = bits v 31 24 ∧
      leaves s u)) ∧
  (∀ (i : Fin 4096) (k : Fin 16) (hi : Bool) (v : Word) (s : State), s.fbit Fld.CAPO_INST_CTL_STRICT i = false →
    let r := if hi then Reg.PCI_HB_RANGE_HI else Reg.PCI_HB_RANGE_LO
    exec (.hbRangeWrite i k hi v) s = .next (s.wr r (ix2 16 i k) (writeFields false r (s.rd r (ix2 16 i k)) v))) ∧
  (∀ (i : Fin 4096) (s : State), (s.fbit Fld.CAPO_INST_STATUS_SAVED i = false → ∃ u, exec (.filterClear i) s = .next u ∧
      (∀ c ∈ u.logFilter, c.1 / 2 ^ 52 ≠ i.val) ∧ u.fget Fld.CAPO_INST_STATUS_RESULT i = 0 ∧ leaves s u) ∧
    (s.fbit Fld.CAPO_INST_STATUS_SAVED i = true → exec (.filterClear i) s = .next (s.capoResult i 1)) ∧
    (∀ v, bits v 3 0 = 0 → s.instState i = 1 ∨ s.instState i = 3 → ∃ u, exec (.logEnableWrite i v) s = .next u ∧
      u.fbit Fld.CAPO_INST_CTL_LOG_EN i = bit v 31 ∧ leaves s u) ∧
    (∀ bs t, s.takeRead (.pageLog i) = some (.ok bs, t) → ∃ u, exec (.logConsumerRead i) s = .next u ∧
      mget 0 u.logCons i = leNat (bs.take 8) % 2 ^ 32 ∧ leaves s u))

/-! ### Storage (chapter 13) -/

namespace Sys2Proof.Claims

/-- The I/O command row of an opcode. -/
def nvmeRow (op : Nat) (n : Fin 65536) (i : Instr) : Prop :=
  (op = 0 ∧ i = .nvmeFlush n) ∨ (op = 1 ∧ i = .nvmeWrite n) ∨ (op = 2 ∧ i = .nvmeRead n) ∨ (op = 8 ∧ i = .nvmeWriteZeroes n) ∨
    (op = 9 ∧ i = .nvmeDsm n)

/-- The oldest fetched command of a ring that is ACTIVE. -/
def oldest (s : State) (n : Fin 65536) (id : Nat) (c : StoCmd) : Prop :=
  (s.stoCmds.find? fun c => c.2.n == n.val && c.2.stage == .fetched && !c.2.detached) = some (id, c) ∧ s.ringSt 0 n = 1

/-- The CapsuleCmd of a command is the last of what its connection has to send. -/
def capsuleSent (s u : State) (id : Nat) (c' : StoCmd) : Prop :=
  mfind u.stoCmds id = some c' ∧ c'.stage = .sent ∧
    (u.connX c'.conn).snd = (s.connX c'.conn).snd ++
      [⟨pdu (s.fbit Fld.STO_CONN_W0_HDGST c'.conn) (s.fbit Fld.STO_CONN_W0_DDGST c'.conn) 4 0 c'.capsule [], none⟩]

/-- No command waits for a slot, for pages or to be sent. -/
def noneWaits (s : State) : Prop := ∀ p ∈ s.stoCmds, p.2.stage ≠ .waiting ∧ p.2.stage ≠ .staged

/-- What a connection has sent and not seen acknowledged comes to when it is rebuilt from staging. -/
def rebuilt (s : State) (k : Nat) : List SndPdu × Option (Nat × StoCmd) × State :=
  (s.sendBack k).rebuild k (s.flight k) (s.connX k).snd

/-- A connection stands in FAILED with a cause, and its event has been raised. -/
def connFailed (u : State) (k cause : Nat) : Prop :=
  u.connSt k = 3 ∧ u.fget Fld.STO_CONN_W13_CAUSE k = cause ∧ mget false u.latch 534 = true

/-- Channel 0x8003 answers a connection whose exception is outstanding and behind which no frame is held. -/
def excAnswer (s t : State) (sec : Fin 9) (m : Msg) (k : Nat) : Prop :=
  s.takeUnit 0x8003 sec = some (m, t) ∧ k = bits (m.word 0) 13 0 ∧ (t.connX k).exc = true ∧ (t.connX k).heldF = []

end Sys2Proof.Claims

/-- NVME of an OFF virtual function is stored, and otherwise left. For a controller: a CC is stored and told to firmware, and one whose EN falls
opens the reset of a READY instance, at whose end RDY clears; AQA, ASQ and ACQ are told, and stored unless CC.EN is 1, which refuses and counts
them; an admin doorbell, also one of queue 0, is stored and told; in the dark each of these is dropped and counted. A
doorbell of I/O queue 1 to 64 is that of local ring 0 to 63, and of any other is counted and told. ADM_IRQ signals vector 0, which is pending
while the function may not send. A namespace word is stored while VALID is 0, a VALID := 1 only over connections of the instance; while VALID is 1
every other write than VALID := 0 is refused and counted. -/
def Obligations.NvmeController : Prop :=
  (∀ (i : Fin 4096) (on : Bool) (s : State),
    (s.instState i = 0 → vfOf i ≠ 0 → ∃ u, exec (.nvmePersonalityWrite i on) s = .next u ∧ u.nvmeOn i = on ∧ u = { s with regs := u.regs }) ∧
    (s.instState i ≠ 0 ∨ vfOf i = 0 → exec (.nvmePersonalityWrite i on) s = .next s)) ∧
  (∀ (i : Fin 4096) (s : State), s.nvmeOn i = true → s.dark = true →
    let lost : Host.Outcome State Fault Refusal := .next (s.bumpPci Fld.PCIC_DARK_WRITES_COUNT i)
    (∀ v, exec (.nvmeCcWrite i v) s = lost) ∧ (∀ r v, exec (.nvmeAdminCfgWrite i r v) s = lost) ∧
    ∀ cq v, exec (.adminDoorbell i cq v) s = lost ∧ exec (.nvmeIoDoorbell i 0 cq v) s = lost) ∧
  (∀ (i : Fin 4096) (s : State), s.nvmeOn i = true → s.dark = false →
    let en := (s.fget Fld.STO_CTRL_W0_CC i).testBit 0
    (∀ v : BitVec 32, (en && !v.toNat.testBit 0) = false → ∃ u, exec (.nvmeCcWrite i v) s = .next u ∧ u.fget Fld.STO_CTRL_W0_CC i = v.toNat ∧
      mget false u.latch 533 = true ∧ leaves s u) ∧
    (∀ v : BitVec 32, en = true → v.toNat.testBit 0 = false → s.instState i = 1 → s.ucBound i = [] →
      ∃ u, exec (.nvmeCcWrite i v) s = .next u ∧ u.instState i = 2 ∧ u.gen i = s.gen i + 1 ∧ mget false u.ccReset i = true ∧
        mget false u.latch 533 = true) ∧
    (∀ (r : Fin 3) (v : Word), (en = true → exec (.nvmeAdminCfgWrite i r v) s = .next ((s.bump Fld.STOC_CFG_REFUSED_COUNT).irq 533)) ∧
      (en = false → ∃ u, exec (.nvmeAdminCfgWrite i r v) s = .next u ∧ mget false u.latch 533 = true ∧ leaves s u ∧
        (r = 0 → u.fget Fld.STO_CTRL_W2_AQA i = v.toNat % 2 ^ Fld.STO_CTRL_W2_AQA.w) ∧
        (r = 1 → (u.rd Reg.STO_CTRL_W3 i).toNat / 4096 = v.toNat / 4096) ∧ (r = 2 → (u.rd Reg.STO_CTRL_W4 i).toNat / 4096 = v.toNat / 4096))) ∧
    (∀ v : BitVec 16, (∃ u, exec (.adminDoorbell i false v) s = .next u ∧ u.fget Fld.STO_CTRL_W5_ASQ_TAIL i = v.toNat ∧
        mget false u.latch 533 = true ∧ leaves s u) ∧
      (∃ u, exec (.adminDoorbell i true v) s = .next u ∧ u.fget Fld.STO_CTRL_W5_ACQ_HEAD i = v.toNat ∧
        mget false u.latch 533 = true ∧ leaves s u) ∧
      (∀ r : Fin 256, r.val < 64 → ∀ y : Fin 512, y.val = r.val + 1 →
        exec (.nvmeIoDoorbell i y false v) s = exec (.sqRqDoorbell i false r v) s ∧
        exec (.nvmeIoDoorbell i y true v) s = exec (.cqDoorbell i r v false) s) ∧
      (∀ cq, exec (.nvmeIoDoorbell i 0 cq v) s = exec (.adminDoorbell i cq v) s) ∧
      (∀ (y : Fin 512) (cq : Bool), 64 < y.val → exec (.nvmeIoDoorbell i y cq v) s =
        .next ((s.bump Fld.HQEC_DB_UNMAPPED_COUNT).irq 533)))) ∧
  (∀ (i : Fin 4096) (s : State), s.msixOpen i 0 = false →
    exec (.admIrq i) s = .next { s with msixPba := mset false s.msixPba (i * 2048) true }) ∧
  (∀ (i : Fin 4096) (k : Fin 16) (word : Fin 4) (v : Word) (s : State), let el := 16 * i.val + k
    (s.fbit Fld.STO_NS_W0_VALID el = true → word.val ≠ 0 ∨ bit v 63 = true →
      exec (.namespaceWrite i k word v) s = .next (s.bump Fld.STOC_CFG_REFUSED_COUNT)) ∧
    (s.fbit Fld.STO_NS_W0_VALID el = true → bit v 63 = false → ∃ u, exec (.namespaceWrite i k 0 v) s = .next u ∧
      u.fbit Fld.STO_NS_W0_VALID el = false ∧ u = { s with regs := u.regs }) ∧
    (s.fbit Fld.STO_NS_W0_VALID el = false → (word.val ≠ 0 ∨ bit v 63 = false ∨ s.nsConnsOk i el v = true) →
      exec (.namespaceWrite i k word v) s = .next (s.wr (nsReg word) el (writeFields false (nsReg word) 0 v))) ∧
    (s.fbit Fld.STO_NS_W0_VALID el = false → bit v 63 = true → s.nsConnsOk i el v = false →
      exec (.namespaceWrite i k 0 v) s = .next (s.bump Fld.STOC_CFG_REFUSED_COUNT)))

/-- The oldest fetched command of an ACTIVE SQ, where the row is its opcode's, completes with the first check of Table 13-8 that fails. One that
passes waits where its connection is not LIVE. Behind no other command of a LIVE one it takes a slot: a Flush or Write Zeroes is sent, a Read is
sent or reads its PRP list, and a Write or Dataset Management takes a page for each 4 KiB of its data and reads them or its PRP list.
STAGING_DONE puts unencrypted data of one piece into its pages and sends its CapsuleCmd. A failed read of them completes with Data Transfer Error. -/
def Obligations.NvmeCommands : Prop :=
  (∀ (op : Nat) (n : Fin 65536) (i : Instr) (id : Nat) (c : StoCmd) (s : State), nvmeRow op n i → oldest s n id c →
    (c.op ≠ op → exec i s = .next s) ∧
    (c.op = op → (∀ sct sc dnr, s.nvmeCheck c = some (sct, sc, dnr) →
      exec i s = .next ((s.xtsCounted sc).endCmd id c (nvmeStatus sct sc dnr) 0)) ∧
      (s.nvmeCheck c = none →
        (s.connSt c.conn ≠ 2 → exec i s = .next (s.setCmd id { c with stage := .waiting })) ∧
        (s.connSt c.conn = 2 → s.connCmds c.conn = [] → c.slot = none → c.pages = [] →
          (op = 0 ∨ op = 8 → ∃ u c', exec i s = .next u ∧ capsuleSent s u id c' ∧ c'.slot.isSome = true ∧ leaves s u) ∧
          (op = 2 → ∃ u c', exec i s = .next u ∧ mfind u.stoCmds id = some c' ∧ c'.slot.isSome = true ∧
            (c'.stage = .sent ∨ c'.stage = .prpList)) ∧
          (op = 1 ∨ op = 9 → (c.len + 4095) / 4096 ≤ s.stageFree.length → c.len ≤ s.fget Fld.STO_CONN_W7_STAGE_CAP c.conn →
            ∃ u c', exec i s = .next u ∧ mfind u.stoCmds id = some c' ∧ c'.slot.isSome = true ∧
              c'.pages.length = (c.len + 4095) / 4096 ∧ (c'.stage = .reading ∨ c'.stage = .prpList)))))) ∧
  (∀ (cmd : Nat) (c : StoCmd) (s t : State), mfind s.stoCmds cmd = some c → c.stage = .reading → c.prps.length = 1 →
    (∀ bs, s.takeRead (.storage cmd 0) = some (.ok bs, t) → c.xts = false →
      let data := if c.op = 9 then rebase c.baseLba (bs.length / 16) bs else bs
      let p := t.stagePut c.pages data
      (p.connSt c.conn = 2 → p.ringSt 0 c.n = 1 → ∃ u c', exec (.stagingDone cmd) s = .next u ∧ capsuleSent p u cmd c' ∧ u.mem = p.mem) ∧
      (p.connSt c.conn ≠ 2 → ∃ u, exec (.stagingDone cmd) s = .next u ∧ mfind u.stoCmds cmd = some { c with stage := .staged } ∧
        u.mem = p.mem)) ∧
    (s.takeRead (.storage cmd 0) = some (.fail, t) →
      exec (.stagingDone cmd) s = .next (t.finishCmd cmd c (nvmeStatus 0 0x04 false) 0)))

/-- STATE changes as Table 13-5 permits; a LIVE or FAILED connection refuses other element writes. A LIVE one sends what its window allows from
SND_NXT and moves it, sends a delayed ACK, takes data in order and moves RCV_NXT, moves SND_UNA for an ACK, and fails on RST in its window and FIN;
a frame with a wrong checksum is discarded; one of no connection, or of one not LIVE, is dispatched, and behind an exception up to 64 are held.
A retransmission timeout resumes at SND_UNA with CWND = MSS or fails the connection, as staged data do that are uncorrectable when they are
sent again. An answer ends the exception by its OP; a frame given back to a connection in SETUP or FAILED raises another, and to one in IDLE none;
a stray answer is counted. A failed connection's commands complete when it gives up. Commands of an older generation are detached,
counted, and discarded where their connection is not LIVE. -/
def Obligations.Connections : Prop :=
  (∀ (c : Fin 16384) (v : Word) (s : State), let st := s.connSt c
    (st = 0 ∨ st = 3 → ∃ u, exec (.connSetup c v) s = .next u ∧ u.connSt c = 1 ∧ u = { s with regs := u.regs }) ∧
    (st = 1 → s.connCmds c = [] → ∃ u, exec (.connLive c v) s = .next u ∧ u.connSt c = 2 ∧ (u.connX c).snd = [] ∧ (u.connX c).rx = [] ∧
      u.fget Fld.STO_CONN_W13_RTO_COUNT c = 0 ∧ leaves s u) ∧
    (∀ id cmd, st = 1 → s.stoCmds = [(id, cmd)] → cmd.conn = c.val → cmd.stage = .sent → cmd.detached = false →
      ∃ u c', exec (.connLive c v) s = .next u ∧ mfind u.stoCmds id = some c' ∧ c'.stage = .sent ∧
        ∃ p, (u.connX c).snd = [p] ∧ p.part = none) ∧
    (st = 2 → s.slotCmds c = [] → ∃ u, exec (.connIdle c v) s = .next u ∧ u.connSt c = 0 ∧ u = { s with regs := u.regs }) ∧
    (st = 2 → s.slotCmds c ≠ [] → exec (.connIdle c v) s = .next (s.bump Fld.STOC_CFG_REFUSED_COUNT)) ∧
    (st = 1 ∨ st = 3 → s.connCmds c = [] → noneWaits s → ∃ u, exec (.connIdle c v) s = .next u ∧ u.connSt c = 0 ∧ leaves s u) ∧
    (∀ w : Fin 16, (13 ≤ w.val → exec (.connElementWrite c w v) s = .next s) ∧ (0 < w.val → w.val < 13 →
      (st = 2 ∨ st = 3 → exec (.connElementWrite c w v) s = .next (s.bump Fld.STOC_CFG_REFUSED_COUNT)) ∧
      (st ≠ 2 → st ≠ 3 → exec (.connElementWrite c w v) s = .next (s.wr (connReg w) c (writeFields false (connReg w) 0 v))))) ∧
    (st = 1 ∨ st = 3 → ∃ u, exec (.reconnectExpiry c) s = .next u ∧ u.connCmds c = [])) ∧
  (∀ (c : Fin 16384) (s : State), s.connSt c = 2 →
    let seq := s.fget Fld.STO_CONN_W8_SND_NXT c
    let una := s.fget Fld.STO_CONN_W8_SND_UNA c
    let unsent := ((s.connX c).snd.flatMap fun p => p.bytes).drop (s.flight c)
    let n := min (s.fget Fld.STO_CONN_W0_MSS c) (min unsent.length
      (min (s.fget Fld.STO_CONN_W10_CWND c) (s.fget Fld.STO_CONN_W9_SND_WND c) - s.flight c))
    let sent (u : State) : Prop := (s.template (s.fget Fld.STO_CONN_W1_TMPL c)).isSome = true → ∃ f, frameAt u (s.handles % 2 ^ 24) f ∧
      f.queue = some (s.fget Fld.STO_CONN_W1_TM_QUEUE c) ∧ u.tmIn = s.tmIn ++ [s.handles % 2 ^ 24]
    (n ≠ 0 → ∃ u, exec (.segmentTransmit c) s = .next u ∧ u.fget Fld.STO_CONN_W8_SND_NXT c = (seq + n) % 2 ^ 32 ∧ sent u ∧ leaves s u) ∧
    (n = 0 → exec (.segmentTransmit c) s = .next s) ∧
    ((s.connX c).ackDue = true → ∃ u, exec (.ackDelayTimer c) s = .next u ∧ (u.connX c).ackDue = false ∧ u.regs = s.regs ∧ sent u) ∧
    ((s.connX c).ackDue = false → exec (.ackDelayTimer c) s = .next s) ∧
    (s.flight c ≠ 0 → (rebuilt s c).2.1.isSome = true → ∃ u, exec (.retransmitTimeout c) s = .next u ∧ connFailed u c 8) ∧
    (s.flight c ≠ 0 → (rebuilt s c).2.1 = none → ∃ u, exec (.retransmitTimeout c) s = .next u ∧ u.fget Fld.STO_CONN_W8_SND_NXT c = una ∧
      u.fget Fld.STO_CONN_W10_CWND c = s.fget Fld.STO_CONN_W0_MSS c ∧
      (max 1 (s.fget Fld.STO_CONN_W11_RTO_MAX c) ≤ s.fget Fld.STO_CONN_W13_RTO_COUNT c + 1 → connFailed u c 3) ∧
      (s.fget Fld.STO_CONN_W13_RTO_COUNT c + 1 < max 1 (s.fget Fld.STO_CONN_W11_RTO_MAX c) →
        u.fget Fld.STO_CONN_W13_RTO_COUNT c = s.fget Fld.STO_CONN_W13_RTO_COUNT c + 1 ∧ u.connSt c = 2)) ∧
    ((s.connX c).exc = true → (s.connX c).heldF = [] → ∃ u, exec (.excTimeout c) s = .next u ∧ connFailed u c 7 ∧ (u.connX c).exc = false)) ∧
  (∀ (h : Nat) (f : Frame) (s : State), frameAt s h f → f.stage = .storage → (∀ x ∈ s.connx, h ∉ x.2.heldF) →
    ((f.seg.bind fun g => s.connOf f g) = none →
      exec (.tcpSegment h) s = .next (s.stoDispatch h f (s.dispatchChan f.profile f.hash) 0x20 0)) ∧
    (∀ g k, f.seg = some g → s.connOf f g = some k → let x := s.connX k
      (x.exc = true → x.heldF.length < 64 → exec (.tcpSegment h) s = .next (s.setConnX k { x with heldF := x.heldF ++ [h] })) ∧
      (x.exc = true → 64 ≤ x.heldF.length → exec (.tcpSegment h) s = .next ((s.bump Fld.STOC_HOLD_DROP_COUNT).dropFrame h)) ∧
      (x.exc = false → s.connSt k ≠ 2 → exec (.tcpSegment h) s = .next (s.stoExc k h f 0x21)) ∧
      (x.exc = false → s.connSt k = 2 →
        let d := f.bytes
        let flag (b : Nat) : Bool := (byteAt d (g.l4 + 13)).testBit b
        let hl := 4 * (byteAt d (g.l4 + 12) / 16)
        let data := (d.take g.last).drop (g.l4 + hl)
        let nxt := s.fget Fld.STO_CONN_W9_RCV_NXT k
        let seq := w32 d (g.l4 + 4)
        let sumOk := w16 (l4Csum d g.l3 g.l4 6 16) (g.l4 + 16) % 65535 = w16 d (g.l4 + 16) % 65535
        let plain := sumOk ∧ flag 0 = false ∧ flag 1 = false ∧ flag 2 = false ∧ flag 5 = false ∧
          (tcpOpts ((d.drop (g.l4 + 20)).take (hl - 20)) 40 0).2 = false
        (¬ sumOk → exec (.tcpSegment h) s = .next ((s.bump Fld.STOC_TCP_CSUM_ERR_COUNT).freeFrame h)) ∧
        (sumOk → flag 2 = true → seqDist seq nxt < s.fget Fld.STO_CONN_W12_RCV_WND k →
          ∃ u, exec (.tcpSegment h) s = .next u ∧ connFailed u k 1 ∧ gone u h) ∧
        (sumOk → flag 2 = false → flag 0 = true → ∃ u, exec (.tcpSegment h) s = .next u ∧ connFailed u k 2 ∧ gone u h) ∧
        (plain → s.connCmds k = [] → noneWaits s → data ≠ [] → seq = nxt →
          ∃ u, exec (.tcpSegment h) s = .next u ∧ u.fget Fld.STO_CONN_W9_RCV_NXT k = (nxt + data.length) % 2 ^ 32) ∧
        (plain → s.connCmds k = [] → data = [] → flag 4 = true →
          let adv := seqDist (w32 d (g.l4 + 8)) (s.fget Fld.STO_CONN_W8_SND_UNA k)
          adv ≠ 0 → adv ≤ s.flight k → ∃ u, exec (.tcpSegment h) s = .next u ∧ gone u h ∧
            u.fget Fld.STO_CONN_W8_SND_UNA k = w32 d (g.l4 + 8) ∧ (u.connX k).snd = dropSnd adv (s.connX k).snd)))) ∧
  (∀ (sec : Fin 9) (m : Msg) (k : Nat) (s t : State), excAnswer s t sec m k → let op := bits (m.word 0) 63 56
    let cwnd (u : State) : Prop := bits (m.word 1) 31 0 ≠ 0 → u.fget Fld.STO_CONN_W10_CWND k = bits (m.word 1) 31 0
    (op = 1 → ∃ u, exec (.excDone sec) s = .next u ∧ (u.connX k).exc = false ∧ cwnd u ∧ u.connSt k = t.connSt k) ∧
    (op = 3 → t.connSt k = 2 → (rebuilt t k).2.1 = none → ∃ u, exec (.excRetransmit sec) s = .next u ∧ (u.connX k).exc = false ∧ cwnd u ∧
      u.fget Fld.STO_CONN_W8_SND_NXT k = t.fget Fld.STO_CONN_W8_SND_UNA k) ∧
    (op = 0 ∨ 4 ≤ op → t.connSt k = 2 → ∃ u, exec (.excFail sec) s = .next u ∧ (u.connX k).exc = false ∧ connFailed u k 6 ∧ cwnd u) ∧
    (op = 2 → ∀ h f g, t.namedPacket { m with words := [fieldAt 1 41, (m.word 1) >>> 40] } = some h → frameAt t h f → f.seg = some g →
      t.connSt k ≠ 2 → ∃ u, exec (.excReinject sec) s = .next u ∧ (u.connX k).exc = (t.connSt k != 0) ∧ cwnd u)) ∧
  (∀ (sec : Fin 9) (m : Msg) (s t : State), s.takeUnit 0x8003 sec = some (m, t) → (t.connX (bits (m.word 0) 13 0)).exc = false →
    bits (m.word 0) 63 56 = 1 → exec (.excDone sec) s = .next (t.bump Fld.STOC_RET_STRAY_COUNT)) ∧
  (∀ (i : Fin 4096) (s : State), noneWaits s → ∃ u, exec (.commandDetach i) s = .next u ∧ leaves s u ∧
    u.stoCmds = (s.stoCmds.map fun p => (p.1, { p.2 with detached := p.2.detached ||
      (p.2.inst == i.val && p.2.stage == .sent && p.2.gen != s.gen i) })).filter fun p => !p.2.detached || s.connSt p.2.conn == 2)

/-! ### Bow (chapter 14) -/

namespace Sys2Proof.Claims

/-- The running block of a register-mode channel has ended with a status, after its writes. -/
def blockEnded (t u : State) (c : Nat) (status : Nat) : Prop :=
  u.bowSt c = 1 ∧ (u.bowX c).blk = none ∧ ∃ e, (u.bowX c).ended = (t.bowX c).ended ++ [e] ∧ e.status = status ∧ e.stalled = false

/-- A block that can start: no field of it is bad, and no FENCE holds it. -/
def mayBegin (s : State) (c : Nat) (ws : List Word) (chain : Bool) : Prop :=
  blkBad ws chain = false ∧ (blkFence ws = false ∨ (s.bowX c).ended = [])

/-- The oldest ended block of a channel, whose writes are all visible, asks for no message and starts no other channel. -/
def maySettle (s : State) (c : Nat) (e : BowEnd) (es : List BowEnd) : Prop :=
  (s.bowX c).ended = e :: es ∧ s.bowWritesOut c e.id = false ∧ (s.bowX c).late = [] ∧ e.status = 0 ∧
    s.blkOrphan e.words e.gen = false ∧ bit (blkW e.words 0) 60 = false ∧ s.bowSelected 2 c = []

end Sys2Proof.Claims

/-- ENABLE takes DISABLED to IDLE with no trigger and no active block, and is refused while DISABLING; DISABLE of an enabled channel leaves it
DISABLING with nothing pending and nothing armed, and DISABLED once its reads are back. A trigger adds to PENDING, is lost at 255, and is dropped
where the channel takes none. ARM acts in register mode, and holds the shadow, whose write it refuses. CFG is written while DISABLED. A timer that
fires gives each channel that selects it a trigger, and a ONESHOT one clears EN. A queue keeps its place and size while EN = 1, is emptied
when a size of 6 or more is enabled, and takes a HEAD that does not move back. -/
def Obligations.BowChannelsAndQueues : Prop :=
  (∀ (c : Fin 512) (s : State), let st := s.bowSt c
    let regsOnly (u : State) : Prop := u = { s with regs := u.regs }
    (st = 0 → ∃ u, exec (.bowEnable c) s = .next u ∧ u.bowSt c = 1 ∧ u.fget Fld.BOW_CH_STATUS_PENDING c = 0 ∧
      u.fbit Fld.BOW_CH_STATUS_ACTIVE_VALID c = false ∧ regsOnly u) ∧
    (st = 6 → exec (.bowEnable c) s = .next (s.fset Fld.BOW_CH_STATUS_ENABLE_REFUSED c 1)) ∧
    (st ≠ 0 → st ≠ 6 → exec (.bowEnable c) s = .next s ∧ ∃ u, exec (.bowDisable c) s = .next u ∧ u.bowSt c = 6 ∧
      u.fget Fld.BOW_CH_STATUS_PENDING c = 0 ∧ u.bowArmed c = false ∧ u.bowX c = BowX.init) ∧
    (st = 0 ∨ st = 6 → exec (.bowDisable c) s = .next s) ∧
    (st = 6 → (s.bowReadsOut c = true → exec (.bowDisableDone c) s = .next s) ∧
      (s.bowReadsOut c = false → ∃ u, exec (.bowDisableDone c) s = .next u ∧ u.bowSt c = 0 ∧ u.bowX c = BowX.init ∧ leaves s u)) ∧
    (st = 0 ∨ st = 5 ∨ st = 6 → exec (.bowStart c) s = .next (s.bump Fld.BOWC_TRIG_DROPPED_COUNT)) ∧
    (st ∈ [1, 2, 3, 4] → let p := s.fget Fld.BOW_CH_STATUS_PENDING c
      (p = 255 → exec (.bowStart c) s = .next (s.bump Fld.BOWC_TRIG_LOST_COUNT)) ∧
      (p < 255 → ∃ u, exec (.bowStart c) s = .next u ∧ u.fget Fld.BOW_CH_STATUS_PENDING c = p + 1 ∧ regsOnly u)) ∧
    (s.bowChain c = false → (∃ u, exec (.bowArm c) s = .next u ∧ u.bowArmed c = true ∧ regsOnly u) ∧
      ∃ u, exec (.bowDisarm c) s = .next u ∧ u.bowArmed c = false ∧ regsOnly u) ∧
    (s.bowChain c = true → exec (.bowArm c) s = .next s ∧ exec (.bowDisarm c) s = .next s) ∧
    (∀ (w : Fin 4) (v : Word), (s.bowArmed c = true → exec (.bowShadowWrite c w v) s = .next (s.fset Fld.BOW_CH_STATUS_SHADOW_BUSY c 1)) ∧
      (s.bowArmed c = false → exec (.bowShadowWrite c w v) s = .next (s.wr (bowShadow w) c v))) ∧
    (∀ v : Word, (st = 0 → exec (.bowCfgWrite c v) s = .next (s.wr Reg.BOW_CH_CFG c (writeFields false Reg.BOW_CH_CFG 0 v))) ∧
      (st ≠ 0 → exec (.bowCfgWrite c v) s = .next (s.bump Fld.BOWC_CFG_REFUSED_COUNT)))) ∧
  (∀ (t : Fin 64) (s : State),
    (∀ v, exec (.bowTimerWrite t v) s = .next (s.wr Reg.BOW_TIMER t (writeFields false Reg.BOW_TIMER 0 v))) ∧
    (s.fbit Fld.BOW_TIMER_EN t = false → exec (.bowTimerFire t) s = .next s) ∧
    (∀ c, s.fbit Fld.BOW_TIMER_EN t = true → s.bowSelected 1 t = [c] → s.bowSt c ∈ [1, 2, 3, 4] →
      s.fget Fld.BOW_CH_STATUS_PENDING c < 255 → ∃ u, exec (.bowTimerFire t) s = .next u ∧
      u.fget Fld.BOW_CH_STATUS_PENDING c = s.fget Fld.BOW_CH_STATUS_PENDING c + 1 ∧
      u.fbit Fld.BOW_TIMER_EN t = !s.fbit Fld.BOW_TIMER_ONESHOT t)) ∧
  (∀ (q : Fin 16) (v : Word) (s : State), let same (u : State) (f : Field) : Prop := u.fget f q = s.fget f q
    (s.fbit Fld.BOW_CQ_CFG_EN q = true → ∃ u, exec (.bowCqCfgWrite q v) s = .next u ∧ u.fbit Fld.BOW_CQ_CFG_EN q = bit v 63 ∧
      same u Fld.BOW_CQ_CFG_BASE ∧ same u Fld.BOW_CQ_CFG_LOG2SIZE) ∧
    (s.fbit Fld.BOW_CQ_CFG_EN q = false → bit v 63 = true → 6 ≤ bits v 57 54 → ∃ u, exec (.bowCqCfgWrite q v) s = .next u ∧
      u.fbit Fld.BOW_CQ_CFG_EN q = true ∧ u.fget Fld.BOW_CQ_IDX_TAIL q = 0 ∧ u.fget Fld.BOW_CQ_IDX_HEAD q = 0) ∧
    (s.fbit Fld.BOW_CQ_CFG_EN q = false → bit v 63 = true → bits v 57 54 < 6 → ∃ u, exec (.bowCqCfgWrite q v) s = .next u ∧
      u.fbit Fld.BOW_CQ_CFG_EN q = false ∧ same u Fld.BOW_CQ_IDX_TAIL)) ∧
  (∀ (q : Fin 16) (h : BitVec 16) (s : State),
    let tail := s.fget Fld.BOW_CQ_IDX_TAIL q
    let occ (x : Nat) : Nat := (tail + 65536 - x) % 65536
    let head := s.fget Fld.BOW_CQ_IDX_HEAD q
    (occ head < occ h.toNat → exec (.bowCqHeadWrite q h) s = .next (s.fset Fld.BOW_CQ_IDX_HEAD_REFUSED q 1)) ∧
    (occ h.toNat ≤ occ head → exec (.bowCqHeadWrite q h) s = .next (s.fset Fld.BOW_CQ_IDX_HEAD q h.toNat)))

/-- A trigger in IDLE is consumed: a chain fetches its HEAD, a register-mode channel with nothing to run drops it, and one with an active block
starts it, whose reads are then issued with those of the other channels, or halts with BAD_DESC where a field is bad. A descriptor that arrives
starts, or waits behind the running block. A block whose writes
are done ends, one of an older generation ends ORPHANED; a fill within a 64-byte line of DDR5 writes its pattern at once where no other channel
is enabled and no write has failed. A burst or fetch that
fails past RETRY halts the channel with its ERR. An ended block completes with its count, its interrupt and, where there is room, its
record at TAIL; without room the channel waits, and goes on once there is some. -/
def Obligations.BowBlocks : Prop :=
  (∀ (c : Fin 512) (s : State), s.bowSt c = 1 → s.fget Fld.BOW_CH_STATUS_PENDING c ≠ 0 → s.dark = false →
    let ws := s.bowActiveWords c
    let ready := s.fbit Fld.BOW_CH_STATUS_ACTIVE_VALID c
    (s.bowChain c = true → ∃ u, exec (.bowTriggerConsume c) s = .next u ∧ u.bowSt c = 2 ∧
      (u.bowX c).fetch = some ⟨(s.rd Reg.BOW_CH_HEAD c).toNat, s.fget Fld.BOW_CH_CHAIN_TAP_TAP c, false, 0⟩ ∧
      u.fget Fld.BOW_CH_STATUS_PENDING c + 1 = s.fget Fld.BOW_CH_STATUS_PENDING c) ∧
    (s.bowChain c = false → ready = false → s.bowArmed c = false → ∃ u, exec (.bowTriggerConsume c) s = .next u ∧
      counted s u Fld.BOWC_TRIG_DROPPED_COUNT 0 ∧ u.bowSt c = 1 ∧ u = { s with regs := u.regs }) ∧
    (s.bowChain c = false → ready = true → blkBad ws false = true → ∃ u, exec (.bowTriggerConsume c) s = .next u ∧ u.bowSt c = 5 ∧
      u.fget Fld.BOW_CH_STATUS_ERR c = 3 ∧ mget false u.latch 535 = true ∧ (u.bowX c).blk = none) ∧
    (s.bowChain c = false → ready = true → mayBegin s c ws false → ∃ (t : State) (b : BowBlk), exec (.bowTriggerConsume c) s = .next (t.bowServe 4096) ∧
      t.bowSt c = 2 ∧ (t.bowX c).blk = some b ∧ b.words = ws ∧ b.done = 0)) ∧
  (∀ (c : Fin 512) (f : BowFetch) (ws : List Word) (s : State), s.bowSt c = 2 → (s.bowX c).fetch = some f → f.word0 = false →
    s.bowFetched f = some ws → (blkEnd ws = false ∨ s.fget Fld.BOW_CH_CHAIN_TAP_TAP c = f.snap) →
    (∀ b, (s.bowX c).blk = some b → ∃ u b', exec (.bowDescArrive c) s = .next u ∧ (u.bowX c).next = some b' ∧ b'.words = ws ∧
      (u.bowX c).fetch = none ∧ leaves s u) ∧
    ((s.bowX c).blk = none → s.dark = false → s.bowChain c = true → mayBegin s c ws true → ∃ (t : State) (b : BowBlk),
      exec (.bowDescArrive c) s = .next (t.bowServe 4096) ∧
      (t.bowX c).blk = some b ∧ b.words = ws ∧ b.desc = f.addr ∧ t.bowSt c = 2)) ∧
  (∀ (c : Fin 512) (b : BowBlk) (s : State), s.bowSt c = 2 → (s.bowX c).blk = some b →
    (∀ t b', s.bowRun c b = (t, b', .fin) → t.bowChain c = false → ∃ u, exec (.bowBlockEnd c) s = .next u ∧ blockEnded t u c 0 ∧
      u.mem = t.mem) ∧
    (∀ t b', s.bowRun c b = (t, b', .orphan) → t.bowChain c = false → ∃ u, exec (.bowBlockEnd c) s = .next u ∧ blockEnded t u c 2) ∧
    (∀ t b', s.bowRun c b = (t, b', .wait) → exec (.bowBlockEnd c) s = .next (t.bowKeep c b')) ∧
    (let d := blkDst b.words
     let n := blkLen b.words
     blkKind b.words = 1 → blkDstHost b.words = false → b.done = 0 → b.buf = [] → b.dead = none → n ≠ 0 → d % 64 + n ≤ 64 → s.region d = .ddr →
      s.bowChain c = false → s.bowEnabled = [c.val] → (s.bowX c).late = [] → ∃ u, exec (.bowBlockEnd c) s = .next u ∧ u.bowSt c = 1 ∧
        u.mem = (s.memStore d ((List.range n).map fun k => (blkW b.words 1).extractLsb' (8 * (k % 8)) 8)).mem) ∧
    (∀ t b', (s.bowX c).late = [] → (s.bowX c).fetch = none → s.bowRun c b = (t, b', .failWrite) → t.bowRetry c ≤ b'.tries →
      ∃ u, exec (.bowAccessFail c) s = .next u ∧ u.bowSt c = 5 ∧ u.fget Fld.BOW_CH_STATUS_ERR c = 1 ∧ mget false u.latch 535 = true ∧
        u.fget Fld.BOW_CH_ERRADDR_ADDR c = (blkDst b'.words + b'.done) % 2 ^ 64)) ∧
  (∀ (c : Fin 512) (f : BowFetch) (s : State), s.bowSt c = 2 → (s.bowX c).fetch = some f → (s.bowX c).late = [] → s.bowFetched f = none →
    (f.tries < s.bowRetry c → ∃ u, exec (.bowAccessFail c) s = .next u ∧ (u.bowX c).fetch = some { f with tries := f.tries + 1 } ∧
      counted s u Fld.BOWC_RETRIES_COUNT 0) ∧
    (s.bowRetry c ≤ f.tries → (s.bowX c).blk = none → ∃ u, exec (.bowAccessFail c) s = .next u ∧ u.bowSt c = 5 ∧
      u.fget Fld.BOW_CH_STATUS_ERR c = 4 ∧ mget false u.latch 535 = true ∧ u.fget Fld.BOW_CH_ERRADDR_ADDR c = f.addr % 2 ^ 64)) ∧
  (∀ (c : Fin 512) (e : BowEnd) (es : List BowEnd) (s : State), maySettle s c e es →
    let q := s.fget Fld.BOW_CH_CFG_CQ c
    let tail := s.fget Fld.BOW_CQ_IDX_TAIL q
    let plain := bit (blkW e.words 0) 61 = false
    let toQueue := bit (blkW e.words 0) 61 = true ∧ e.recorded = false ∧ s.fbit Fld.BOW_CQ_CFG_EN q = true
    let done (u : State) : Prop := (u.bowX c).ended = es ∧ counted s u Fld.BOWC_BLOCKS_COUNT 0 ∧
      (bit (blkW e.words 0) 62 = true → mget false u.latch c = true)
    let placed (u : State) : Prop := u.fget Fld.BOW_CQ_IDX_TAIL q = (tail + 1) % 65536 ∧ u.mem = (s.bowAppend c q e 0).mem
    (e.stalled = false → plain → ∃ u, exec (.bowBlockComplete c) s = .next u ∧ done u ∧ u.mem = s.mem) ∧
    (e.stalled = false → toQueue → s.bowCqRoom q = true → ∃ u, exec (.bowBlockComplete c) s = .next u ∧ done u ∧ placed u) ∧
    (e.stalled = false → toQueue → s.bowCqRoom q = false → s.bowSt c ≠ 5 → ∃ u, exec (.bowBlockComplete c) s = .next u ∧ u.bowSt c = 3 ∧
      (u.bowX c).ended = { e with stalled := true } :: es ∧ (u.bowX c).back = some (s.bowSt c) ∧
      counted s u Fld.BOWC_CQ_STALL_COUNT 0) ∧
    (e.stalled = true → toQueue → s.bowCqRoom q = true → ∀ st, st < 7 → (s.bowX c).back = some st →
      ∃ u, exec (.bowCqRoom c) s = .next u ∧ done u ∧ placed u ∧ u.bowSt c = st))

/-! ### The interrupt controller (chapter 15) -/

/-- An edge of a listed source below 1,024 is latched; one of a PSF source makes it pending; a latched edge passes on and the latch clears. ICU_SET
makes a listed source pending, and a write of PENDING = 1 clears it. CFG of a source is stored, of a PSF source it is not. What ICU_CLAIM
accepts is deliverable, and no deliverable source has a lower PRIO, or an equal one and a lower number; it becomes active at the top of the
core's stack, or the core is told that there is none. EOI pops the source on top, and raises the core's PSF source for any other. A hold that ends
redirects the source once. -/
def Obligations.InterruptsAreServedInOrder : Prop :=
  (∀ (i : Fin 2048) (s : State), let listed := i.val < 540 ∨ 1024 ≤ i.val
    (i.val < 540 → exec (.interruptEdge i) s = .next { s with latch := mset false s.latch i true }) ∧
    (540 ≤ i.val → i.val < 2032 → exec (.interruptEdge i) s = .next s) ∧
    (2032 ≤ i.val → ∃ u, exec (.interruptEdge i) s = .next u ∧ u.fbit Fld.ICU_SRC_STATE_PENDING i = true ∧ leaves s u) ∧
    (mget false s.latch i = true → listed → ∃ u, exec (.edgeToPending i) s = .next u ∧ u.fbit Fld.ICU_SRC_STATE_PENDING i = true ∧
      mget false u.latch i = false ∧ leaves s u) ∧
    (mget false s.latch i = false → exec (.edgeToPending i) s = .next s) ∧
    (listed → s.fbit Fld.ICU_SRC_STATE_PENDING i = true → exec (.icuSet i) s = .next s) ∧
    (listed → s.fbit Fld.ICU_SRC_STATE_PENDING i = false → ∃ u, exec (.icuSet i) s = .next u ∧
      u.fbit Fld.ICU_SRC_STATE_PENDING i = true ∧
      (s.coreAwake (s.icuTarget i) = false → s.icuWakeEn i = true → mget false u.wakeReq (coreDomain (s.icuTarget i)) = true) ∧
      (s.coreAwake (s.icuTarget i) = false → s.icuWakeEn i = false → mget 0 s.icuHold i = 0 → mget 0 u.icuHold i = 1) ∧ leaves s u) ∧
    (¬ listed → exec (.icuSet i) s = .next s ∧ exec (.icuPendingClear i) s = .next s) ∧
    (listed → ∃ u, exec (.icuPendingClear i) s = .next u ∧ u.fbit Fld.ICU_SRC_STATE_PENDING i = false ∧ leaves s u) ∧
    (∀ v, (listed → i.val < 2032 → ∃ u, exec (.icuSrcCfgWrite i v) s = .next u ∧
        u.rd Reg.ICU_SRC_CFG i = writeFields false Reg.ICU_SRC_CFG (s.rd Reg.ICU_SRC_CFG i) v ∧ leaves s u) ∧
      (2032 ≤ i.val → exec (.icuSrcCfgWrite i v) s = .next s)) ∧
    (mget 0 s.icuHold i = 1 → s.coreAwake (s.icuTarget i) = false → ∃ u, exec (.redirectHoldExpiry i) s = .next u ∧
      mget 0 u.icuHold i = 2 ∧ counted s u Fld.ICUC_REDIRECTS_COUNT 0 ∧
      (s.coreAwake (s.icuFallback i) = false → mget false u.wakeReq (coreDomain (s.icuFallback i)) = true)) ∧
    (mget 0 s.icuHold i ≠ 1 → exec (.redirectHoldExpiry i) s = .next s)) ∧
  (∀ (req : Nat) (k : Fin 16) (s : State),
    (req ≠ 0xE000 + k.val → exec (.icuClaim req k) s =
      .next ((s.bump Fld.ICUC_SPURIOUS_COUNT).emit (.readAnswer req (fieldAt 1 31)))) ∧
    (s.icuBest k = none → ∃ u, exec (.icuClaim (0xE000 + k.val) k) s = .next u ∧
      u.out = Event.readAnswer (0xE000 + k.val) (fieldAt 1 31) :: s.out ∧ counted s u Fld.ICUC_SPURIOUS_COUNT 0) ∧
    (s.icuBest k = none → ∀ src < 2048, s.icuDeliverable src k = false) ∧
    (∀ src, s.icuBest k = some src → s.icuDeliverable src k = true ∧
      (∀ o < 2048, s.icuDeliverable o k = true → s.icuPrio src < s.icuPrio o ∨ (s.icuPrio src = s.icuPrio o ∧ src ≤ o)) ∧
      ∃ u, exec (.icuClaim (0xE000 + k.val) k) s = .next u ∧ u.fbit Fld.ICU_SRC_STATE_PENDING src = false ∧
        u.out = Event.readAnswer (0xE000 + k.val) (claimWord src (s.icuPrio src)) :: s.out ∧ counted s u Fld.ICUC_CLAIMS_COUNT 0 ∧
        (src < 2032 → u.fbit Fld.ICU_SRC_STATE_ACTIVE src = true ∧ u.icuStackOf k = (s.icuPrio src, src) :: s.icuStackOf k) ∧
        (2032 ≤ src → u.icuStackOf k = s.icuStackOf k))) ∧
  (∀ (req : Nat) (k : Fin 16) (i : Fin 2048) (s : State),
    (req ≠ 0xE000 + k.val ∨ 2032 ≤ i.val → exec (.icuEoi req k i) s = .next s) ∧
    (i.val < 2032 → ∀ p rest, s.icuStackOf k = (p, i.val) :: rest → ∃ u, exec (.icuEoi (0xE000 + k.val) k i) s = .next u ∧
      u.icuStackOf k = rest ∧ u.fbit Fld.ICU_SRC_STATE_ACTIVE i = false ∧ leaves s u) ∧
    (i.val < 2032 → (s.icuStackOf k).head?.map (·.2) ≠ some i.val → ∃ u, exec (.icuEoi (0xE000 + k.val) k i) s = .next u ∧
      u.icuStackOf k = s.icuStackOf k ∧ u.fbit Fld.ICU_CORE_STATUS_PSF k = true ∧ u.fget Fld.ICU_CORE_STATUS_PSF_EOI k = i.val ∧
      u.fbit Fld.ICU_SRC_STATE_PENDING (2032 + k) = true))

/-! ### Power (chapter 16) -/

namespace Sys2Proof.Claims

/-- A power domain stands in a phase. -/
def inPhase (s : State) (d p : Nat) : Prop := s.phase d = p

/-- A request of a domain ends at once with a result, and the domain's source is raised. -/
def requestOver (s u : State) (d r : Nat) : Prop :=
  u.fget Fld.PWR_DOM_STATUS_LAST_RESULT d = r ∧ mget false u.latch 538 = true ∧ u.phase d = s.phase d ∧ u.depth d = s.depth d ∧ leaves s u

end Sys2Proof.Claims

/-- An idle entry starts a STEADY domain with GOV_EN and AUTO towards a deeper allowed depth. A request deeper than the limit ends with 5, than
what is allowed with 4, no deeper than the present depth with 1, and otherwise starts; while PHASE is not 0 it does nothing. ACK takes
REQUESTING to ENTERING; reaching the target makes it the depth, with result 1. A wake that applies aborts a request with 2, reverses an entry, and
starts a sleeping domain; one that does not apply changes nothing. A completed wake leaves depth 0, STEADY, with 3 where it reversed. -/
def Obligations.DomainDepths : Prop :=
  ∀ (d : Fin 34) (s : State),
    (∀ depth : Fin 5, let k := min depth.val (s.domAllowed d)
      (s.fbit Fld.PWR_CFG_GOV_EN 0 = true → s.fbit Fld.PWR_DOM_CFG_AUTO d = true → inPhase s d 0 → s.depth d < k →
        ∃ u, exec (.domainIdleEntry d depth) s = .next u ∧ inPhase u d 1 ∧ mget 0 u.pwrTarget d = k ∧ mget false u.pwrByReq d = false ∧
          leaves s u) ∧
      (s.depth d ≥ k → exec (.domainIdleEntry d depth) s = .next s)) ∧
    (∀ v : Word, bit v 31 = false → let k := bits v 2 0
      (inPhase s d 0 → s.deepest d < k → ∃ u, exec (.domainRequest d v) s = .next u ∧ requestOver s u d 5) ∧
      (inPhase s d 0 → k ≤ s.deepest d → s.domAllowed d < k → ∃ u, exec (.domainRequest d v) s = .next u ∧ requestOver s u d 4) ∧
      (inPhase s d 0 → k ≤ s.deepest d → k ≤ s.domAllowed d → k ≤ s.depth d →
        ∃ u, exec (.domainRequest d v) s = .next u ∧ requestOver s u d 1) ∧
      (inPhase s d 0 → k ≤ s.deepest d → k ≤ s.domAllowed d → s.depth d < k → ∃ u, exec (.domainRequest d v) s = .next u ∧
        inPhase u d 1 ∧ mget 0 u.pwrTarget d = k ∧ mget false u.pwrByReq d = true ∧ leaves s u) ∧
      (¬ inPhase s d 0 → exec (.domainRequest d v) s = .next (s.fset Fld.PWR_DOM_CTL_REQ_DEPTH d k))) ∧
    (∀ v : Word, ∃ u, exec (.domainWakeWrite d v) s = .next u ∧ leaves s u ∧ mget false u.wakeReq d = false ∧ u.depth d = s.depth d ∧
      (inPhase s d 1 → u.fget Fld.PWR_DOM_STATUS_LAST_RESULT d = 2 ∧ inPhase u d (if s.depth d = 0 then 0 else 3)) ∧
      (inPhase s d 2 → inPhase u d 3 ∧ mget false u.pwrRev d = true) ∧
      (inPhase s d 0 → inPhase u d (if s.depth d = 0 then 0 else 3))) ∧
    (∀ b : Fin 4, let on := wakeApplies d b && (s.fget Fld.PWR_DOM_CFG_WAKE_EN d).testBit b && (b.val != 2 || mget false s.wakeReq d)
      (on = false → exec (.domainWake d (some b)) s = .next s) ∧
      (on = true → inPhase s d 0 → s.depth d ≠ 0 → ∃ u, exec (.domainWake d (some b)) s = .next u ∧ inPhase u d 3 ∧ leaves s u)) ∧
    (inPhase s d 0 → s.depth d ≠ 0 → ∃ u, exec (.domainWake d none) s = .next u ∧ inPhase u d 3 ∧ leaves s u) ∧
    (inPhase s d 1 → ∃ u, exec (.domainAck d) s = .next u ∧ inPhase u d 2 ∧ u = { s with regs := u.regs }) ∧
    (¬ inPhase s d 1 → exec (.domainAck d) s = .next s) ∧
    (inPhase s d 2 → ∀ k, mget 0 s.pwrTarget d = k → k ≤ 4 → ∃ u, exec (.depthReached d) s = .next u ∧ u.depth d = k ∧
      u.fget Fld.PWR_DOM_STATUS_LAST_RESULT d = 1) ∧
    (¬ inPhase s d 2 → exec (.depthReached d) s = .next s) ∧
    (∀ uncorr : Bool, (inPhase s d 3 → ∃ u, exec (.wakeComplete d uncorr) s = .next u ∧ u.depth d = 0 ∧ inPhase u d 0 ∧
        (mget false s.pwrRev d = true → u.fget Fld.PWR_DOM_STATUS_LAST_RESULT d = 3) ∧
        (s.depth d = 3 → uncorr = true → counted s u Fld.PWRC_RESTORE_ERR_COUNT 0)) ∧
      (¬ inPhase s d 3 → exec (.wakeComplete d uncorr) s = .next s))

/-- A load window stores the load of each domain, and a budget write its register; a STEADY domain that is then deeper than its allowed
depth begins to wake. A temperature sets TJ and the throttle level of Table 16-6, with its source on a change; at 115 °C it trips: no key is left,
THERMTRIP_N is asserted, every domain is off and the trip holds; a fall through −45 °C erases the keys. An AVS step moves VDD_CORE by at most
5 mV towards its target, where the regulator acknowledges it. A telemetry sample stores its rail, and the total of the seven. -/
def Obligations.LoadsAndTemperature : Prop :=
  (∀ (loads : List Byte) (s : State), ∃ u, exec (.loadWindow loads) s = .next u ∧ leaves s u ∧
    ∀ d < 34, d < loads.length → u.fget Fld.PWR_DOM_STATUS_LOAD d = (loads.getD d 0).toNat) ∧
  (∀ (v : Word) (s : State),
    (∀ i : Fin 4096, ∃ u, exec (.budgetWrite (.inst i) v) s = .next u ∧ leaves s u ∧
      u.rd Reg.PWR_INST_BUD i = writeFields false Reg.PWR_INST_BUD (s.rd Reg.PWR_INST_BUD i) v) ∧
    (∀ d : Fin 34, ∃ u, exec (.budgetWrite (.dom d) v) s = .next u ∧ leaves s u ∧
      u.rd Reg.PWR_DOM_CFG d = writeFields false Reg.PWR_DOM_CFG (s.rd Reg.PWR_DOM_CFG d) v ∧
      ((s.wr Reg.PWR_DOM_CFG d (writeFields false Reg.PWR_DOM_CFG (s.rd Reg.PWR_DOM_CFG d) v)).domAllowed d < s.depth d → s.phase d = 0 →
        u.phase d = 3))) ∧
  (∀ (r : Vector (BitVec 16) 16) (s : State), s.fbit Fld.SP_TAMPER_TRIP_HELD 0 = false →
    let tj := (s.hottest r).1
    let was := (BitVec.ofNat 16 (s.fget Fld.PWR_THERMAL_TJ 0)).toInt
    let level := s.fget Fld.PWR_THERMAL_LEVEL 0
    (tj < 920 → -360 ≤ tj ∨ was < -360 → ∃ u, exec (.thermalSample r) s = .next u ∧ leaves s u ∧
      u.fget Fld.PWR_THERMAL_TJ 0 = (BitVec.ofInt 16 tj).toNat ∧ u.fget Fld.PWR_THERMAL_LEVEL 0 = nextLevel level tj ∧
      (nextLevel level tj ≠ level → mget false u.latch 536 = true)) ∧
    (920 ≤ tj → ∃ u, exec (.thermalSample r) s = .next u ∧ u.keys = [] ∧ u.diceKeys = false ∧ Event.thermtrip true ∈ u.out ∧
      (∀ d < 34, u.depth d = 4) ∧ u.fbit Fld.SP_TAMPER_TRIP_HELD 0 = true ∧ mget false u.hold 2 = true) ∧
    (tj < -360 → -360 ≤ was → ∃ u, exec (.thermalSample r) s = .next u ∧ noKeys u ∧ u.diceKeys = false)) ∧
  (∀ (ack : Bool) (s : State), let t := s.avsTarget.1
    (s.vddCore = t → ∃ u, exec (.avsStep ack) s = .next u ∧ u.vddCore = t ∧ u.fget Fld.PWR_AVS_MV 0 = t ∧ u.out = s.out) ∧
    (∀ v, v ≠ s.vddCore → v = (if s.vddCore < t then min t (s.vddCore + 5) else max t (s.vddCore - 5)) →
      ∃ u, exec (.avsStep ack) s = .next u ∧ u.out = Event.avsCommand v :: s.out ∧ u.vddCore = (if ack then v else s.vddCore) ∧
        (ack = false → counted s u Fld.PWRC_AVS_NAK_COUNT 0))) ∧
  (∀ (rail : Fin 7) (mv : BitVec 16) (mw : BitVec 32) (s : State), ∃ u, exec (.telemetrySample rail mv mw) s = .next u ∧
    u.fget Fld.PWR_RAIL_MV rail = mv.toNat ∧ u.fget Fld.PWR_RAIL_MW rail = mw.toNat ∧
    u.fget Fld.PWR_TOTAL_MW 0 = ((List.range 7).map fun k => u.fget Fld.PWR_RAIL_MW k).sum % 2 ^ Fld.PWR_TOTAL_MW.w ∧
    u = { s with regs := u.regs })

/-! ### Boot, warm restart, clocks and tuning (chapter 17) -/

namespace Sys2Proof.Claims

/-- Control core `k` runs from an address in M, with everything else at its reset values. -/
def coreStarted (u : State) (k pc : Nat) : Prop :=
  mget Core.init u.cores k = { Core.init with running := true, a := { Core.init.a with pc := BitVec.ofNat 64 pc } }

/-- Soundpost may begin to boot. -/
def mayBoot (s : State) : Prop := s.held_ = false ∧ s.fget Fld.SP_BOOT_STATUS_PHASE 0 < 3 ∧ s.warm = 0

end Sys2Proof.Claims

/-- A boot whose self-tests fail erases the keys and ends in PHASE 4; slot A, where it passes every check, else slot B, is placed in the boot
window, measured and started on core 0; where neither passes, PHASE is 4. CORE_RELEASE starts the cores newly named at ENTRY. A warm restart
begins with its key, while none runs and a PF is ready, and is refused otherwise; the end of its drain clears threads, channels and frames, or
escalates while a context still runs. A system PLL that loses lock resets the die, under hold until it is back, the fabric's after an alarm;
a port PLL takes its UP links to FAULT. A tuning item is stored and clamped. -/
def Obligations.BootWarmAndClocks : Prop :=
  (∀ (a b : FlashSlot) (s : State), (¬ mayBoot s → s.warm = 0 → exec (.flashVerify a b true) s = .next s) ∧
    (mayBoot s → (∃ u, exec (.flashVerify a b false) s = .next u ∧ noKeys u ∧ u.fget Fld.SP_BOOT_STATUS_PHASE 0 = 4 ∧ u.cores = s.cores) ∧
      (∀ (second : Bool) (hdr : List Word) (body sig : List Byte), (if second then b else a) = .image hdr body sig →
        slotResult (if second then b else a) = 0 → (second = true → slotResult a ≠ 0) → ∃ u, exec (.flashVerify a b true) s = .next u ∧
        u.fget Fld.SP_BOOT_STATUS_PHASE 0 = 3 ∧ u.fget Fld.SP_BOOT_STATUS_SLOT 0 = b2n second ∧
        coreStarted u 0 (bootWindow + (hdr.getD 3 0).toNat) ∧ (∀ k < body.length, u.memByte (bootWindow + k) = body.getD k 0) ∧
        u.diceKeys = true ∧ u.diceD = sha384 (imageBytes hdr body)) ∧
      (slotResult a ≠ 0 → slotResult b ≠ 0 → ∃ u, exec (.flashVerify a b true) s = .next u ∧ u.fget Fld.SP_BOOT_STATUS_PHASE 0 = 4 ∧
        u.fget Fld.SP_BOOT_STATUS_RESULT_B 0 = slotResult b ∧ leaves s u))) ∧
  (∀ (v : Word) (s : State), ∃ u, exec (.coreRelease v) s = .next u ∧ ∀ k : Fin 16,
    (k.val ≠ 0 → bit v (48 + k) = true → (s.fget Fld.SP_CORE_RELEASE_RELEASE 0).testBit k = false → coreStarted u k (bits v 47 0) ∧
      (u.fget Fld.SP_CORE_RELEASE_RELEASE 0).testBit k = true) ∧
    ((k.val = 0 ∨ bit v (48 + k) = false ∨ (s.fget Fld.SP_CORE_RELEASE_RELEASE 0).testBit k = true) →
      mget Core.init u.cores k = mget Core.init s.cores k)) ∧
  (∀ (v : Word) (s : State), let idle := s.fbit Fld.SP_WARM_CTL_IN_PROGRESS 0 = false ∧ s.fget Fld.PCI_READY_CFG 0 ≠ 0
    (bits v 23 16 = 0x5A → idle → ∃ u, exec (.warmRestartRequest v) s = .next u ∧ u.warm = 1 ∧ u.dark = true) ∧
    (bits v 23 16 = 0x5A → ¬ idle → ∃ u, exec (.warmRestartRequest v) s = .next u ∧ u.fbit Fld.SP_WARM_CTL_REFUSED 0 = true ∧
      u = { s with regs := u.regs }) ∧
    (bits v 23 16 ≠ 0x5A → ∃ u, exec (.warmRestartRequest v) s = .next u ∧ u = { s with regs := u.regs })) ∧
  (∀ s : State,
    (s.warm = 1 → s.uc = [] → ∃ u, exec .warmDrainLimit s = .next u ∧ u.warm = 2 ∧ u.threads = [] ∧ u.chans = [] ∧ u.frames = [] ∧
      u.uc = [] ∧ u.pending = s.pending) ∧
    (s.warm = 1 → (s.uc.any fun c => s.ucSt c.1 == 1 || s.ucSt c.1 == 2) = true → exec .warmDrainLimit s = exec .warmEscalate s) ∧
    (s.warm = 1 ∨ s.warm = 2 → ∃ u, exec .warmEscalate s = .next u ∧ dieClear u ∧ u.warm = 0 ∧ u.fget Fld.SP_RESET_CAUSE_LAST 0 = 6) ∧
    (s.warm ≠ 1 → exec .warmDrainLimit s = .next s ∧ (s.warm ≠ 2 → exec .warmEscalate s = .next s))) ∧
  (∀ (pll : Pll) (s : State),
    (∀ n, pllSys pll = some n → (∃ u, exec (.pllLockLoss pll) s = .next u ∧ dieClear u ∧ mget false u.hold (20 + n) = true ∧
        u.fget Fld.SP_RESET_CAUSE_LAST 0 = 3) ∧
      exec (.pllLockRegained pll) s = .next (s.setHold (20 + n) false)) ∧
    (∀ p k, pllPort pll = some (p, k) → (∃ u, exec (.pllLockLoss pll) s = .next u ∧ mget false u.portPll k = true ∧
        (∀ j < 8, s.linkSt (8 * p + j) = 4 → u.linkSt (8 * p + j) = 5)) ∧
      exec (.pllLockRegained pll) s = .next { s with portPll := mset false s.portPll k false }) ∧
    (∀ k, pll = .pcie k → exec (.pllLockLoss pll) s = .next (s.controllerDown k) ∧ exec (.pllLockRegained pll) s = .next s)) ∧
  (∀ (item : Fin 160) (v : Word) (s : State), let sum := (Config.tuneFactory item).toInt + (v.extractLsb' 16 16).toInt
    let eff := min (max sum (tuneRange item).1) (tuneRange item).2
    (144 ≤ item.val → item.val ≤ 151 → s.fbit Fld.SP_APPROVED_ACTIVE 0 = true → exec (.tuneWrite item v) s = .next s) ∧
    ((item.val < 144 ∨ 151 < item.val ∨ s.fbit Fld.SP_APPROVED_ACTIVE 0 = false) → ∃ u, exec (.tuneWrite item v) s = .next u ∧
      u.fget Fld.SP_TUNE_USER item = bits v 31 16 ∧ u.fget Fld.SP_TUNE_EFFECTIVE item = (BitVec.ofInt 16 eff).toNat ∧
      u.fbit Fld.SP_TUNE_CLAMPED item = decide (eff ≠ sum) ∧ u = { s with regs := u.regs }))

/-! ### Memory and the address map (chapter 18) -/

/-- TRAIN takes a channel to TRAINING, and RESTORE one in self-refresh to TRAINED with its contents kept; the end of training stores what it
found, or FAILED. MEM_CFG is stored where every channel of CH_MASK is TRAINED and refused otherwise; behind LOCK its locked fields stay and
the write is marked, as is one of a secret region. L3 MODE becomes 1 once. A scrub read does nothing where scrubbing is off, and marks an
uncorrectable line poisoned; one that is already is noted again. A write to an alias that names no array, group or offset is recorded as bad; one to group 16 of an array writes
the same offset of each element; a read of the aliases answers zero. -/
def Obligations.MemoryAndAliases : Prop :=
  (∀ (c : Fin 8) (s : State), let st := s.fget Fld.MEM_CH_BOOT_STATE c
    (st ≠ 1 → ∃ u, exec (.memTrain c) s = .next u ∧ u.fget Fld.MEM_CH_BOOT_STATE c = 1) ∧
    (st = 1 → exec (.memTrain c) s = .next s) ∧
    (st = 4 → ∃ u, exec (.memRestore c) s = .next u ∧ u.fget Fld.MEM_CH_BOOT_STATE c = 2 ∧ u.fget Fld.MEM_CH_BOOT_RETAINED c = 1 ∧ leaves s u) ∧
    (st ≠ 4 → exec (.memRestore c) s = .next s) ∧
    (st = 1 → (∃ u, exec (.memTrainDone c none) s = .next u ∧ u.fget Fld.MEM_CH_BOOT_STATE c = 3 ∧ u = { s with regs := u.regs }) ∧
      ∀ r : TrainResult, ∃ u, exec (.memTrainDone c (some r)) s = .next u ∧ u.fget Fld.MEM_CH_BOOT_STATE c = 2 ∧
        u.fget Fld.MEM_CH_BOOT_RATE c = r.rate.toNat % 2 ^ Fld.MEM_CH_BOOT_RATE.w ∧
        (∀ k < 32, u.rd Reg.MEM_CH_TRAIN (ix2 32 c k) = r.data.getD k 0) ∧ u = { s with regs := u.regs }) ∧
    (st ≠ 1 → ∀ r, exec (.memTrainDone c r) s = .next s)) ∧
  (∀ (v : Word) (s : State), let locked := s.fbit Fld.MEM_CFG_LOCK 0
    let ok := s.maskOk (Fld.MEM_CFG_CH_MASK.of v)
    (locked = false → ok = false → exec (.memCfgWrite v) s = .next (s.fset Fld.MEM_STATUS_CFG_REFUSED 0 1)) ∧
    (locked = true ∨ ok = true → ∃ u, exec (.memCfgWrite v) s = .next u ∧
      u.rd Reg.MEM_CFG 0 = writeFields locked Reg.MEM_CFG (s.rd Reg.MEM_CFG 0) v ∧
      (locked = true → u.fbit Fld.MEM_STATUS_LOCKED_WRITE 0 = true ∧ u.fget Fld.MEM_CFG_CH_MASK 0 = s.fget Fld.MEM_CFG_CH_MASK 0 ∧
        u = { s with regs := u.regs })) ∧
    (exec .memLock s = .next (s.fset Fld.MEM_CFG_LOCK 0 1)) ∧
    (∀ (i : Fin 15) (hi : Bool), let r := if hi then Reg.MEM_SECRET_HI else Reg.MEM_SECRET_LO
      (locked = true → exec (.secretRegionWrite i hi v) s = .next (s.fset Fld.MEM_STATUS_LOCKED_WRITE 0 1)) ∧
      (locked = false → ∃ u, exec (.secretRegionWrite i hi v) s = .next u ∧ u.rd r i = writeFields false r (s.rd r i) v)) ∧
    (s.fbit Fld.MEM_L3_CTL_MODE 0 = true → exec .l3ModeSwitch s = .next s) ∧
    (s.fbit Fld.MEM_L3_CTL_MODE 0 = false → ∃ u, exec .l3ModeSwitch s = .next u ∧ u.fbit Fld.MEM_L3_CTL_MODE 0 = true)) ∧
  (∀ (line : Nat) (ecc : EccEvent) (s : State),
    let on := 64 * line < s.ddrCapacity ∧ s.fget Fld.MEM_CFG_SCRUB_H 0 ≠ 0 ∧ s.depth 30 < 2 ∧ s.depth 31 < 2
    (¬ on → exec (.scrubRead line ecc) s = .next s) ∧
    (on → s.poisoned (64 * line) 64 = true → exec (.scrubRead line ecc) s = .next (s.noteUncorr (64 * line))) ∧
    (on → s.poisoned (64 * line) 64 = false →
      (ecc ≠ .corrected → ecc ≠ .uncorrectable → exec (.scrubRead line ecc) s = .next s) ∧
      (ecc = .corrected → ∃ u, exec (.scrubRead line ecc) s = .next u ∧
        counted s u Fld.MEMC_SCRUB_FIX_COUNT (s.ddrChannel (64 * line)) ∧ leaves s u) ∧
      (ecc = .uncorrectable → ∃ u, exec (.scrubRead line ecc) s = .next u ∧ u.poisoned (64 * line) 64 = true ∧
        counted s u Fld.MEMC_UNCORR_COUNT (s.ddrChannel (64 * line))))) ∧
  (∀ (req addr size : Nat) (v : Word) (s : State), s.region addr = .aliases →
    let o := addr - 0x030000000000
    let S := o / 2 ^ 27 % 32
    let x := o % 2 ^ 27
    let sized := (size = 4 ∨ size = 8) ∧ addr % size = 0
    let bad (u : State) : Prop := u.fbit Fld.MEM_STATUS_ALIAS_BAD 0 = true ∧ counted s u Fld.MEMC_ALIAS_BAD_COUNT 0 ∧ u = { s with regs := u.regs }
    (aliasArray (o / 2 ^ 32) = none → ∃ u, exec (.aliasWrite req addr size v) s = .next u ∧ bad u) ∧
    (∀ base stride n, aliasArray (o / 2 ^ 32) = some (base, stride, n) →
      (¬ sized ∨ 16 < S ∨ stride ≤ x → ∃ u, exec (.aliasWrite req addr size v) s = .next u ∧ bad u) ∧
      (sized → S < 16 → s.fbit Fld.MEM_ALIAS_CFG_BITMAP_EN 0 = false → ∃ u, exec (.aliasWrite req addr size v) s = .next u ∧ bad u) ∧
      (sized → S = 16 → x < stride → exec (.aliasWrite req addr size v) s = .next
        ((List.range n).foldl (fun t k => t.devStore req (base + k * stride + x) size v) (s.bump Fld.MEMC_ALIAS_WRITES_COUNT)))) ∧
    (∃ u, exec (.aliasRead req addr size) s = .next u ∧ u.out = Event.readAnswer req 0 :: s.out ∧
      u.fbit Fld.MEM_STATUS_ALIAS_READ 0 = true ∧ counted s u Fld.MEMC_ALIAS_READS_COUNT 0 ∧ leaves s u))

/-! ### Soundpost (chapters 19 and 20) -/

namespace Sys2Proof.Claims

/-- The management port answers a request with a code and data, and nothing else changes. -/
def answers (s : State) (c : Instr) (code : Nat) (data : List Word) : Prop :=
  exec c s = .next (s.emit (.mgmtResponse code data))

/-- The newest event is a management response. -/
def answered (u : State) (code : Nat) : Prop := ∃ rest, u.out = Event.mgmtResponse code [] :: rest

end Sys2Proof.Claims

/-- With TEST_MODE low, an endpoint ID and a TID but 0 and 0xFF are stored and answered, others are invalid; versions, types, telemetry, status and
1 to 30 crash-log records are answered, and the status with TEST_MODE high too, where the others are not. A control command answers
NOT_PERMITTED without CTRL_EN; with it a clear leaves one record, a reset resets or is refused, and a forced power-off takes the named domains to
depth 4, but never domains 32 and 33. An SPDM request waits for firmware, and is Busy without it or after its time. (Codes: log entry 53.) -/
def Obligations.ManagementPort : Prop :=
  (∀ (s : State), mget false s.hold 1 = false →
    (∀ e : Byte, (e = 0 ∨ e = 0xFF → answers s (.setEndpointId e) 2 [] ∧ answers s (.setTid e) 2 []) ∧
      (e ≠ 0 → e ≠ 0xFF → exec (.setEndpointId e) s =
          .next ((s.fset Fld.SP_MGMT_CFG_EID 0 e.toNat).emit (.mgmtResponse 0 [e.zeroExtend 64])) ∧
        ∃ u, exec (.setTid e) s = .next u ∧ u.tid = e.toNat ∧ answered u 0) ∧
      (e ≠ 0 → e ≠ 0x3F → answers s (.getPldmVersion e) 0x83 [] ∧ answers s (.getPldmCommands e) 0x83 [])) ∧
    answers s .getTid 0 [BitVec.ofNat 64 s.tid] ∧ answers s (.getPldmVersion 0) 0 [0xF1F1F000] ∧
    (∃ w u, exec (.getPldmVersion 0x3F) s = .next u ∧ u.out = Event.mgmtResponse 0 [w] :: s.out) ∧
    answers s .getPldmTypes 0 [0x8000000000000001] ∧ answers s (.getPldmCommands 0) 0 [0x3E, 0, 0, 0] ∧
    answers s (.getPldmCommands 0x3F) 0 [0x7E, 0, 0, 0] ∧
    (∃ data u, exec .readTelemetry s = .next u ∧ u = s.emit (.mgmtResponse 0 data) ∧ data.length = 17 ∧
      data.getD 0 0 = BitVec.ofNat 64 (s.fget Fld.PWR_THERMAL_TJ 0) ∧ data.getD 16 0 = BitVec.ofNat 64 (s.fget Fld.PWR_TOTAL_MW 0)) ∧
    (∀ first count, (count = 0 ∨ 30 < count ∨ 2048 ≤ first → answers s (.readCrashLog first count) 2 []) ∧
      (0 < count → count ≤ 30 → first < 2048 → ∃ data, answers s (.readCrashLog first count) 0 data ∧ data.length = 4 * count ∧
        ∀ k < 4 * count, data.getD k 0 = s.rd Reg.SP_LOG_WIN (ix2 4 ((first + k / 4) % 2048) (k % 4)))) ∧
    (s.fbit Fld.SP_MGMT_CFG_CTRL_EN 0 = false → answers s .clearCrashLog 0x80 [] ∧ (∀ k, answers s (.requestReset k) 0x80 []) ∧
      ∀ m, answers s (.forcePowerOff m) 0x80 []) ∧
    (s.fbit Fld.SP_MGMT_CFG_CTRL_EN 0 = true →
      (∃ u, exec .clearCrashLog s = .next u ∧ answered u 0 ∧ u.fget Fld.SP_LOG_STATUS_HEAD 0 = 1 ∧
        (∀ n, 1 ≤ n → n < 2048 → ∀ j < 4, u.rd Reg.SP_LOG_WIN (ix2 4 n j) = 0) ∧ leaves s u) ∧
      (s.fbit Fld.SP_WARM_CTL_IN_PROGRESS 0 = false → s.fget Fld.PCI_READY_CFG 0 ≠ 0 → s.uc = [] → ∃ u, exec (.requestReset 0) s = .next u ∧
        u.warm = 1 ∧ u.dark = true ∧ answered u 0) ∧
      (s.fbit Fld.SP_WARM_CTL_IN_PROGRESS 0 = true → ∃ u, exec (.requestReset 0) s = .next u ∧ u.warm = s.warm ∧ answered u 0x81) ∧
      (∃ u, exec (.requestReset 1) s = .next u ∧ dieClear u ∧ answered u 0 ∧ u.fget Fld.SP_RESET_CAUSE_LAST 0 = 2) ∧
      (∀ k : Byte, 1 < k.toNat → answers s (.requestReset k) 2 []) ∧
      (∀ m : BitVec 34, (m.getLsbD 32 || m.getLsbD 33) = true → ∃ u, exec (.forcePowerOff m) s = .next u ∧ answered u 0x81 ∧ leaves s u) ∧
      (∀ m : BitVec 34, (m.getLsbD 32 || m.getLsbD 33) = false → ∃ u, exec (.forcePowerOff m) s = .next u ∧ answered u 0 ∧
        ∀ d < 34, m.getLsbD d = true → u.depth d = 4 ∧ u.phase d = 0)) ∧
    (∀ sec bs, (s.fget Fld.SP_BOOT_STATUS_PHASE 0 = 3 → exec (.spdmRequest sec bs) s = .next { s with spdmBox := s.spdmBox ++ [(sec, bs)] }) ∧
      (s.fget Fld.SP_BOOT_STATUS_PHASE 0 ≠ 3 → exec (.spdmRequest sec bs) s = .next (s.emit (.spdmResponse [0x13, 0x7F, 0x03, 0x00]))))) ∧
  (∀ (s : State), mget false s.hold 1 = true → ∀ c ∈ [Instr.getTid, .getPldmTypes, .readTelemetry, .clearCrashLog], exec c s = .next s) ∧
  (∀ s : State, (∃ data, answers s .readStatus 0 data ∧ data.length = 10 ∧ data.getD 0 0 = s.rd Reg.SP_PART 0 ∧
      data.getD 2 0 = s.rd Reg.SP_RESET_CAUSE 0) ∧
    exec .mgmtBusTimeout s = .next (s.emit .mgmtRelease) ∧ (s.spdmBox = [] → exec .spdmBusy s = .next s) ∧
    (∀ q qs, s.spdmBox = q :: qs →
      exec .spdmBusy s = .next ({ s with spdmBox := qs }.emit (.spdmResponse [0x13, 0x7F, 0x03, 0x00]))))

/-- LOG_CLEAR empties the log; an appended record stands in the slot at HEAD. A disabled watchdog starts; a kick restarts it, and a bad one and
the end of its count bite, to a fundamental reset with ACTION. A token is refused in approved mode, and otherwise uses its challenge up; one
that passes every check unlocks debug with no key left. SAMPLE/PRELOAD needs no unlock, another JTAG instruction than R422's acts as BYPASS
before it, and the SerDes and DDR5 CK balls are outside boundary scan. Approved mode is entered where no reason stands against it. DICE_SEAL closes the window.
A read of the DRBG answers zero once an entropy sample has failed, which erases the keys. A rail out of range after sequencing, a breach and
TEST_MODE act as R420 and R439 say; sequencing raises its enables in turn, and a failure drops them. -/
def Obligations.SoundpostGuards : Prop :=
  (∀ s : State, (∃ u, exec .logClear s = .next u ∧ u = { s with regs := u.regs } ∧ u.fget Fld.SP_LOG_STATUS_HEAD 0 = 0 ∧
      ∀ n < 2048, ∀ j < 4, u.rd Reg.SP_LOG_WIN (ix2 4 n j) = 0) ∧
    (∀ w : Word, ∃ u, exec (.logAppend w) s = .next u ∧ leaves s u ∧ let n := s.fget Fld.SP_LOG_STATUS_HEAD 0
      u.rd Reg.SP_LOG_WIN (ix2 4 n 2) = s.rd Reg.SP_LOG_APPEND0 0 ∧ u.rd Reg.SP_LOG_WIN (ix2 4 n 3) = w ∧
      bits (u.rd Reg.SP_LOG_WIN (ix2 4 n 0)) 47 40 = 9)) ∧
  (∀ (v : Word) (s : State), let on := s.fbit Fld.SP_WDOG_EN 0
    (on = false → bits v 7 0 = 0 → ∃ u, exec (.wdogStart v) s = .next u ∧ u.fbit Fld.SP_WDOG_EN 0 = true ∧ u.wdogNs = s.ns ∧
      u.fget Fld.SP_WDOG_TIMEOUT_MS 0 = bits v 47 32 ∧ leaves s u) ∧
    (on = true → bits v 7 0 = 0xC3 → ∃ u, exec (.wdogKick v) s = .next u ∧ u.wdogNs = s.ns ∧ u.fbit Fld.SP_WDOG_STATUS_WARNED 0 = false ∧
      u.fget Fld.SP_WDOG_TIMEOUT_MS 0 = s.fget Fld.SP_WDOG_TIMEOUT_MS 0 ∧ leaves s u) ∧
    (on = true → s.fbit Fld.SP_WDOG_ACTION 0 = true → bits v 7 0 ≠ 0 → bits v 7 0 ≠ 0xC3 → ∃ u, exec (.wdogKick v) s = .next u ∧ dieClear u) ∧
    (on = true → s.wdogHeld = false → (s.fget Fld.SP_WDOG_WARN_MS 0 ≠ 0 → s.fbit Fld.SP_WDOG_STATUS_WARNED 0 = false →
        ∃ u, exec .wdogWarning s = .next u ∧ u.fbit Fld.SP_WDOG_STATUS_WARNED 0 = true ∧ mget false u.latch 537 = true ∧ leaves s u) ∧
      (s.fbit Fld.SP_WDOG_ACTION 0 = true → ∃ u, exec .wdogBite s = .next u ∧ dieClear u ∧ u.fget Fld.SP_RESET_CAUSE_LAST 0 = 2) ∧
      (s.fbit Fld.SP_WDOG_ACTION 0 = false → s.fbit Fld.SP_WARM_CTL_IN_PROGRESS 0 = false → s.fget Fld.PCI_READY_CFG 0 ≠ 0 →
        ∃ u, exec .wdogBite s = .next u ∧ u.warm = 1 ∧ u.dark = true)) ∧
    (on = false → exec .wdogBite s = .next s ∧ exec .wdogWarning s = .next s)) ∧
  (∀ (ws : List Word) (i : Instr) (s : State),
    i = .jtagDbgToken ws ∨ (i = .dbgTokenGo ∧ ws = (List.range 20).map fun k => s.rd Reg.SP_TOKEN k) →
    (s.fbit Fld.SP_APPROVED_ACTIVE 0 = true → ∃ u, exec i s = .next u ∧ u.fget Fld.SP_DBG_RESULT 0 = 7 ∧
      u.chalValid = s.chalValid ∧ leaves s u) ∧
    (s.fbit Fld.SP_APPROVED_ACTIVE 0 = false → (s.tokenResult ws ≠ 1 → ∃ u, exec i s = .next u ∧
        u.fget Fld.SP_DBG_RESULT 0 = s.tokenResult ws ∧ u.chalValid = false ∧
        u.fbit Fld.SP_DBG_UNLOCKED 0 = s.fbit Fld.SP_DBG_UNLOCKED 0 ∧ leaves s u) ∧
      (s.tokenResult ws = 1 → ∃ u, exec i s = .next u ∧ u.fget Fld.SP_DBG_RESULT 0 = 1 ∧ u.chalValid = false ∧
        u.fbit Fld.SP_DBG_UNLOCKED 0 = true ∧ noKeys u))) ∧
  (∀ (c : Nat) (s : State), s.jtagActs .samplePreload = .samplePreload ∧
    (s.fbit Fld.SP_DBG_UNLOCKED 0 = false → s.jtagActs (.other c) = .bypass)) ∧
  (BallGroup.ethSerdes.scanned = false ∧ BallGroup.pcieSerdes.scanned = false ∧ BallGroup.ddrCk.scanned = false ∧
    BallGroup.ddrOther.scanned = true ∧ BallGroup.corner.scanned = true) ∧
  (∀ s : State, (∃ u, exec .newChallenge s = .next u ∧ u.chalValid = true ∧ leaves s u) ∧
    (s.approvedReason = 0 → exec .approvedEnter s = .next (s.fset Fld.SP_APPROVED_ACTIVE 0 1)) ∧
    (s.approvedReason ≠ 0 → ∃ u, exec .approvedEnter s = .next u ∧ u.fbit Fld.SP_APPROVED_REFUSED 0 = true ∧
      u.fget Fld.SP_APPROVED_REASON 0 = s.approvedReason ∧ u.fbit Fld.SP_APPROVED_ACTIVE 0 = s.fbit Fld.SP_APPROVED_ACTIVE 0) ∧
    (∃ u, exec .diceSeal s = .next u ∧ (∀ req k, u.diceRead req k = 0) ∧ u = { s with diceSealed := true }) ∧
    (∀ req, ∃ u w, exec (.rngRead req) s = .next u ∧ u.out = Event.readAnswer req w :: s.out ∧ (s.rngDead = true → w = 0) ∧ leaves s u) ∧
    exec .drbgReseed s = .next { s with drbgCount := 0 } ∧ exec (.entropySample true) s = .next s ∧
    (∃ u, exec (.entropySample false) s = .next u ∧ u.rngDead = true ∧ noKeys u) ∧
    (∃ u, exec .shieldBreach s = .next u ∧ noKeys u ∧ (u.fget Fld.CIP_ALARM_CAUSE 0).testBit 3 = true) ∧
    (mget false s.hold 1 = false → ∃ u, exec (.testModePin true) s = .next u ∧ dieClear u ∧ mget false u.hold 1 = true) ∧
    (exec (.testModePin false) s = .next (s.setHold 1 false))) ∧
  (∀ (rail : Fin 7) (s : State),
    (s.seqLeft = 0 → mget false s.hold (10 + rail) = false → ∃ u, exec (.supplyOutOfRange rail) s = .next u ∧ dieClear u ∧
      mget false u.hold (10 + rail) = true ∧ u.fget Fld.SP_RESET_CAUSE_LAST 0 = 2) ∧
    (s.seqLeft ≠ 0 → exec (.supplyOutOfRange rail) s = .next s) ∧
    (exec (.railReturns rail) s = .next (s.setHold (10 + rail) false))) ∧
  (∀ s : State, (s.seqLeft = 0 → exec .seqStage s = .next s ∧ exec .seqFail s = .next s) ∧
    (s.seqLeft = 4 → exec .seqStage s = .next ({ s with seqLeft := 3 }.emit (.seqEn 0 true))) ∧
    (s.seqLeft = 3 → exec .seqStage s = .next ({ s with seqLeft := 2 }.emit (.seqEn 1 true))) ∧
    (s.seqLeft = 2 → exec .seqStage s = .next ({ s with seqLeft := 1 }.emit (.seqEn 2 true))) ∧
    (s.seqLeft = 1 → exec .seqStage s = .next ({ s with seqLeft := 0 }.setHold 4 false)) ∧
    (s.seqLeft ≠ 0 → ∃ u, exec .seqFail s = .next u ∧ u.seqLeft = 4 ∧ mget false u.hold 4 = true ∧
      u.out = [Event.seqEn 2 false, .seqEn 1 false, .seqEn 0 false] ++ s.out))

/-! ### The block as a whole -/

namespace Sys2Proof.Claims

/-- The commands that may write byte memory, or make some of it undefined: stores, data that arrives, frames and jobs that are stored, and what resets and powers off. -/
def mayStore : Instr → Bool
  | .registerWrite _ _ _ _ | .stB _ _ _ _ | .stH _ _ _ _ | .stW _ _ _ _ | .stD _ _ _ _ | .aaddW _ _ _ _ | .aaddD _ _ _ _
  | .casD _ _ _ _ | .chrd _ _ _ _ | .chrdn _ _ _ _ | .chrdPb _ _ _ _ | .messageDelivered _ | .programMemoryWrite _ _ | .flowInsert _
  | .flowInsertReplace _ | .flowRemove _ | .actionListApply _ | .lateCheckFail _ _ | .lookupComplete _ _ _ | .tableWindowWrite _ _
  | .overlayDrain | .learn _ | .unlearn _ | .parkedResume _ | .emAgeScan _ _ _ _ | .shadowRecheck _ _ | .tmEnqueue _ _ | .csubComplete
  | .peerWrite | .fundamentalReset _ | .segmentPerst _ | .hotReset _ | .linkDown _ | .pfFlr _ | .vfFlr _ | .hostBarWrite _ _ _ _ _ _
  | .ringEnable _ _ _ | .ringDisable _ _ | .ringElementWrite _ _ _ _ | .sqRqDoorbell _ _ _ _ | .cqDoorbell _ _ _ _
  | .descriptorData _ _ | .txPayloadDone _ | .txDeparture _ | .rxFrame _ | .ucNext _ _ | .ucJump _ _ | .ucBranch _ _ | .ucCall _ _
  | .ucReturn _ _ | .ucDispatch _ _ | .ucWait _ _ | .ucEnd _ _ | .regimeWrite _ | .ucDbgHalt _ _ | .ucDbgStep _ _ _ | .ucDbgRun _ _
  | .instanceCreate _ | .instanceDestroy _ | .instanceReset _ | .instanceFreeze _ | .instanceSave _ | .instanceRestore _
  | .instanceUnfreeze _ | .filterClear _ | .resetComplete _ | .restoreComplete _ _ _ | .logEnableWrite _ _ | .nvmeCcWrite _ _
  | .nvmeIoDoorbell _ _ _ _ | .connSetup _ _ | .connLive _ _ | .connIdle _ _ | .connElementWrite _ _ _ | .nvmeFlush _ | .nvmeWrite _
  | .nvmeRead _ | .nvmeWriteZeroes _ | .nvmeDsm _ | .stagingDone _ | .tcpSegment _ | .retransmitTimeout _ | .excDone _ | .excReinject _
  | .excRetransmit _ | .excFail _ | .excTimeout _ | .reconnectExpiry _ | .bowEnable _ | .bowDisable _ | .bowStart _ | .bowArm _
  | .bowDisarm _ | .bowBlockEnd _ | .bowBlockComplete _ | .bowAccessFail _ | .bowCqRoom _ | .depthReached _ | .wakeComplete _ _
  | .thermalSample _ | .pllLockLoss _ | .flashVerify _ _ _ | .warmDrainLimit | .warmEscalate | .memTrain _ | .memCfgWrite _
  | .l3ModeSwitch | .secretRegionWrite _ _ _ | .aliasWrite _ _ _ _ | .scrubRead _ _ | .requestReset _ | .forcePowerOff _ | .wdogStart _
  | .wdogKick _ | .wdogBite | .supplyOutOfRange _ | .testModePin _ => true
  | _ => false

/-- The commands that may change the key store: those that load, erase or reset keys, and those that reach registers that do. -/
def mayChangeKeys : Instr → Bool
  | .registerWrite _ _ _ _ | .stB _ _ _ _ | .stH _ _ _ _ | .stW _ _ _ _ | .stD _ _ _ _ | .klwCommandDone | .eraseComplete _
  | .keyAlarm _ | .selftestComplete _ | .fundamentalReset _ | .resetComplete _ | .saveComplete _ _ | .restoreComplete _ _ _
  | .bowBlockEnd _ | .bowAccessFail _ | .depthReached _ | .wakeComplete _ _ | .thermalSample _ | .pllLockLoss _ | .flashVerify _ _ _
  | .warmDrainLimit | .warmEscalate | .aliasWrite _ _ _ _ | .requestReset _ | .forcePowerOff _ | .wdogStart _ | .wdogKick _ | .wdogBite
  | .dbgTokenGo | .jtagDbgToken _ | .entropySample _ | .supplyOutOfRange _ | .shieldBreach | .testModePin _ => true
  | _ => false

/-- The commands that change nothing but registers. -/
def setsRegistersOnly : Instr → Bool
  | .threadShareWrite _ _ | .channelCfgWrite _ _ _ | .sendDataWrite _ _ _ _ | .parseGraphCommit _ | .parseMemoryWrite _ _
  | .agePeriodWrite _ | .fretWrite _ _ | .clampSweep _ | .flushComplete | .instBufWrite _ _ | .ingressCellsWrite _
  | .contextWrite _ _ _ | .klwClaim _ _ | .klwRelease _ | .klwAutoRelease | .klwDataWrite _ _ _ | .selftestRun | .trainingTimeout _
  | .alignTimeout _ | .pciReadyWrite _ | .tagQuotaWrite _ _ | .ringMapWrite _ _ _ | .ucResume _ | .ucRollfwd _ | .hbRangeWrite _ _ _ _
  | .nvmePersonalityWrite _ _ | .namespaceWrite _ _ _ _ | .bowShadowWrite _ _ _ | .bowCfgWrite _ _ | .bowTimerWrite _ _
  | .bowTimerFire _ | .bowCqCfgWrite _ _ | .bowCqHeadWrite _ _ | .domainAck _ | .telemetrySample _ _ _ | .tuneWrite _ _
  | .memTrainDone _ _ | .memLock | .logClear | .approvedEnter => true
  | _ => false

end Sys2Proof.Claims

/-- With a command at the front of the queue, a step is exec of that command on the state with the rest of the queue; with none waiting the
block idles for one tick. No word spells a command, so placing a word leaves the state (log entries 6 and 7). -/
def Obligations.StepRunsTheFrontCommand : Prop :=
  (∀ (c : Instr) (rest : List Instr) (s : State), s.pending = c :: rest → step s = exec c { s with pending := rest }) ∧
  (∀ s : State, s.pending = [] → step s = .next s.tick ∧ s.tick.ns = s.ns + 1 ∧ s.tick.mem = s.mem ∧ s.tick.pending = []) ∧
  (∀ (s : State) (nbits w : Nat), s.withFetchWord nbits w = s)

/-- After reset nothing is stored, no command waits, and every register array reads its reset value at every index: the spec's, or zero where it
gives none (log entry 1). So every instance is OFF, every link and ring DISABLED, every key context EMPTY, every Bow channel DISABLED, every power
domain at depth 0, no core released and every thread halted; each of the four lead instances keeps 8 read tags. -/
def Obligations.ResetState : Prop :=
  State.reset.Inv ∧ State.reset.pending = [] ∧ State.reset.mem = [] ∧ State.reset.keys = [] ∧ (∀ a, State.reset.memByte a = 0) ∧
  (∀ r ∈ Reg.all, ∀ i, State.reset.rd r i = resetValue r i) ∧
  (∀ i < 4096, State.reset.instState i = 0 ∧ State.reset.fget Fld.PCI_TAG_QUOTA_MIN i = (if i < 4 then 8 else 0)) ∧
  (∀ m < 32, State.reset.linkSt m = 0) ∧ (∀ k < 3, ∀ n < 65536, State.reset.ringSt k n = 0) ∧ (∀ c < 65536, State.reset.ctxState c = 0) ∧
  (∀ c < 512, State.reset.bowSt c = 0) ∧ (∀ d < 34, State.reset.depth d = 0) ∧
  (∀ k, (mget Core.init State.reset.cores k).running = false) ∧ (∀ t, (State.reset.thr t).st = .halted)

/-- From every state whose byte memory is in its canonical form and whose waiting commands are well formed, a step that answers a next state
leaves both so: no store, no loss of contents and no reset leaves an address twice, out of order, or listed at the value it reads as anyway. -/
def Obligations.EveryStepKeepsInv : Prop := ∀ s t : State, s.Inv → step s = .next t → t.Inv

/-- The commands of the list change no piece of state but registers: memory, threads, channels, frames, keys, clocks and every queue stay. -/
def Obligations.FrameRegistersOnly : Prop :=
  ∀ (c : Instr) (s u : State), setsRegistersOnly c = true → exec c s = .next u → u = { s with regs := u.regs }

/-- A command that is not of the list leaves every byte of memory, what is undefined in it, and the poison marks of its lines. -/
def Obligations.FrameMemory : Prop :=
  ∀ (c : Instr) (s u : State), mayStore c = false → exec c s = .next u →
    u.mem = s.mem ∧ u.lost = s.lost ∧ u.poison = s.poison ∧ ∀ a, u.memByte a = s.memByte a

/-- No command changes the commands that wait behind it. A command that is not of the list leaves the key store, as every data-path command does. -/
def Obligations.FrameKeysAndQueue : Prop :=
  ∀ (c : Instr) (s u : State), exec c s = .next u → u.pending = s.pending ∧ (mayChangeKeys c = false → u.keys = s.keys)
end

