-- ==== Sys2Proof/Laws/Maps.lean ====
section
/-! SUPPORT. The laws of the sparse maps: what reads what a write put, and that writes keep the form. -/

namespace Sys2Proof.Machine

variable {α : Type}

@[simp] theorem mget_nil (d : α) (i : Nat) : mget d [] i = d := rfl

theorem mget_cons (d : α) (k i : Nat) (v : α) (m : SMap α) :
    mget d ((k, v) :: m) i = if i = k then v else mget d m i := rfl

/-- A listed value is read back, and every other index reads as before. -/
theorem mget_mput (d : α) (m : SMap α) (i j : Nat) (v : α) :
    mget d (mput m i v) j = if j = i then v else mget d m j := by
  induction m with
  | nil => rfl
  | cons c m ih =>
    obtain ⟨k, w⟩ := c
    unfold mput
    split
    · rfl
    · split
      · subst i; simp only [mget_cons]; split <;> rfl
      · simp only [mget_cons, ih]
        split
        · subst j; rw [if_neg (Ne.symm ‹¬ i = k›)]
        · rfl

/-- An erased index reads as the default, and every other index reads as before. -/
theorem mget_merase (d : α) (m : SMap α) (i j : Nat) :
    mget d (merase m i) j = if j = i then d else mget d m j := by
  induction m with
  | nil => simp [merase]
  | cons c m ih =>
    obtain ⟨k, w⟩ := c
    unfold merase
    split
    · subst i; rw [ih, mget_cons]; split <;> rfl
    · simp only [mget_cons, ih]
      split
      · subst j; rw [if_neg (Ne.symm ‹¬ i = k›)]
      · rfl

/-- What a write leaves at each index. -/
theorem mget_mset [DecidableEq α] (d : α) (m : SMap α) (i j : Nat) (v : α) :
    mget d (mset d m i v) j = if j = i then v else mget d m j := by
  unfold mset
  split
  · subst v; exact mget_merase d m i j
  · exact mget_mput d m i j v

@[simp] theorem mget_mset_same [DecidableEq α] (d : α) (m : SMap α) (i : Nat) (v : α) : mget d (mset d m i v) i = v := by
  rw [mget_mset, if_pos rfl]

theorem mget_mset_ne [DecidableEq α] (d : α) (m : SMap α) {i j : Nat} (v : α) (h : j ≠ i) :
    mget d (mset d m i v) j = mget d m j := by
  rw [mget_mset, if_neg h]

@[simp] theorem mget_mput_same (d : α) (m : SMap α) (i : Nat) (v : α) : mget d (mput m i v) i = v := by
  rw [mget_mput, if_pos rfl]

theorem mget_mput_ne (d : α) (m : SMap α) {i j : Nat} (v : α) (h : j ≠ i) : mget d (mput m i v) j = mget d m j := by
  rw [mget_mput, if_neg h]

theorem mfind_mput (m : SMap α) (i j : Nat) (v : α) : mfind (mput m i v) j = if j = i then some v else mfind m j := by
  induction m with
  | nil => rfl
  | cons c m ih =>
    obtain ⟨k, w⟩ := c
    unfold mput
    split
    · rfl
    · split
      · subst i; simp only [mfind]; split <;> rfl
      · simp only [mfind, ih]
        split
        · subst j; rw [if_neg (Ne.symm ‹¬ i = k›)]
        · rfl

/-! ### The form -/

theorem mem_merase {m : SMap α} {i : Nat} {c : Nat × α} (h : c ∈ merase m i) : c ∈ m ∧ c.1 ≠ i := by
  induction m with
  | nil => cases h
  | cons p m ih =>
    obtain ⟨k, w⟩ := p
    unfold merase at h
    split at h
    · exact ⟨.tail _ (ih h).1, (ih h).2⟩
    · cases h with
      | head => exact ⟨.head _, fun e => ‹¬ i = k› e.symm⟩
      | tail _ h => exact ⟨.tail _ (ih h).1, (ih h).2⟩

theorem mem_mput {m : SMap α} {i : Nat} {v : α} {c : Nat × α} (h : c ∈ mput m i v) : c = (i, v) ∨ c ∈ m := by
  induction m with
  | nil => simpa [mput] using h
  | cons p m ih =>
    obtain ⟨k, w⟩ := p
    unfold mput at h
    split at h
    · simpa using h
    · split at h
      · subst i
        cases h with
        | head => exact .inl rfl
        | tail _ h => exact .inr (.tail _ h)
      · cases h with
        | head => exact .inr (.head _)
        | tail _ h => exact (ih h).imp_right (.tail _)

theorem mSorted_merase {m : SMap α} (i : Nat) (h : mSorted m) : mSorted (merase m i) := by
  induction m with
  | nil => exact .nil
  | cons p m ih =>
    obtain ⟨k, w⟩ := p
    unfold merase
    cases h with
    | cons h1 h2 =>
      split
      · exact ih h2
      · exact .cons (fun c hc => h1 c (mem_merase hc).1) (ih h2)

theorem mSorted_mput {m : SMap α} (i : Nat) (v : α) (h : mSorted m) : mSorted (mput m i v) := by
  induction m with
  | nil => exact .cons (fun _ hc => nomatch hc) .nil
  | cons p m ih =>
    obtain ⟨k, w⟩ := p
    unfold mput
    cases h with
    | cons h1 h2 =>
      split
      · refine .cons (fun c hc => ?_) (.cons h1 h2)
        cases hc with
        | head => assumption
        | tail _ hc => exact Nat.lt_trans ‹i < k› (h1 c hc)
      · split
        · exact .cons h1 h2
        · refine .cons (fun c hc => ?_) (ih h2)
          rcases mem_mput hc with rfl | hc
          · exact Nat.lt_of_le_of_ne (Nat.le_of_not_lt ‹_›) (Ne.symm ‹_›)
          · exact h1 c hc

theorem mSorted_mset [DecidableEq α] {m : SMap α} (d : α) (i : Nat) (v : α) (h : mSorted m) : mSorted (mset d m i v) := by
  unfold mset
  split
  · exact mSorted_merase i h
  · exact mSorted_mput i v h

theorem mSorted_filter {m : SMap α} (p : Nat × α → Bool) (h : mSorted m) : mSorted (m.filter p) := h.filter p

/-- A write keeps the canonical form of a byte memory, whatever an unlisted address reads as. -/
theorem memWf_mset {base : Nat → Byte} {m : SMap Byte} (a : Nat) (b : Byte) (h : memWf base m) :
    memWf base (mset (base a) m a b) := by
  refine ⟨mSorted_mset _ a b h.1, fun c hc => ?_⟩
  unfold mset at hc
  split at hc
  · exact h.2 c (mem_merase hc).1
  · rcases mem_mput hc with rfl | hc
    · assumption
    · exact h.2 c hc

/-- What is left of a memory of which some addresses are forgotten is canonical, if the others read as before. -/
theorem memWf_filter {base base' : Nat → Byte} {m : SMap Byte} (p : Nat → Bool) (hb : ∀ a, p a = true → base' a = base a)
    (h : memWf base m) : memWf base' (m.filter fun c => p c.1) := by
  refine ⟨mSorted_filter _ h.1, fun c hc => ?_⟩
  rw [List.mem_filter] at hc
  rw [hb _ hc.2]
  exact h.2 c hc.1

end Sys2Proof.Machine
end

