-- ==== Sys2Proof/Laws/State.lean ====
section
/-! SUPPORT. The fields that each update of the state leaves, one clause per field: no proof needs to unfold a record update. -/

namespace Sys2Proof.Machine

@[simp] theorem State.wr_fields (s : State) (r : RegDesc) (i : Nat) (v : Word) :
    (s.wr r i v).mem = s.mem ∧ (s.wr r i v).lost = s.lost ∧ (s.wr r i v).poison = s.poison ∧ (s.wr r i v).ns = s.ns ∧ (s.wr r i v).time = s.time ∧
    (s.wr r i v).free = s.free ∧ (s.wr r i v).out = s.out ∧ (s.wr r i v).latch = s.latch ∧ (s.wr r i v).errSec = s.errSec ∧
    (s.wr r i v).wakeReq = s.wakeReq ∧ (s.wr r i v).threads = s.threads ∧ (s.wr r i v).cores = s.cores ∧ (s.wr r i v).chans = s.chans ∧
    (s.wr r i v).unitPtr = s.unitPtr ∧ (s.wr r i v).parBusy = s.parBusy ∧ (s.wr r i v).polarity = s.polarity ∧ (s.wr r i v).pegs = s.pegs ∧
    (s.wr r i v).ports = s.ports ∧ (s.wr r i v).rr = s.rr ∧ (s.wr r i v).frames = s.frames ∧ (s.wr r i v).handles = s.handles ∧
    (s.wr r i v).arrivals = s.arrivals ∧ (s.wr r i v).fc = s.fc ∧ (s.wr r i v).pend = s.pend ∧ (s.wr r i v).actFifo = s.actFifo ∧
    (s.wr r i v).tmIn = s.tmIn ∧ (s.wr r i v).actLists = s.actLists ∧ (s.wr r i v).pushId = s.pushId ∧ (s.wr r i v).mirrorCount = s.mirrorCount ∧
    (s.wr r i v).tmFifo = s.tmFifo ∧ (s.wr r i v).tmAux = s.tmAux ∧ (s.wr r i v).polAux = s.polAux ∧ (s.wr r i v).lookups = s.lookups ∧
    (s.wr r i v).overlay = s.overlay ∧ (s.wr r i v).draining = s.draining ∧ (s.wr r i v).learnSeq = s.learnSeq ∧ (s.wr r i v).parked = s.parked ∧
    (s.wr r i v).emFresh = s.emFresh ∧ (s.wr r i v).emCount = s.emCount ∧ (s.wr r i v).extTaint = s.extTaint ∧ (s.wr r i v).tblDiffs = s.tblDiffs ∧
    (s.wr r i v).orderSeen = s.orderSeen ∧ (s.wr r i v).keys = s.keys ∧ (s.wr r i v).klwCmd = s.klwCmd ∧ (s.wr r i v).csubs = s.csubs ∧
    (s.wr r i v).anFail = s.anFail ∧ (s.wr r i v).portPll = s.portPll ∧ (s.wr r i v).tsFifo = s.tsFifo ∧ (s.wr r i v).cue = s.cue ∧
    (s.wr r i v).peerIn = s.peerIn ∧ (s.wr r i v).cueReads = s.cueReads ∧ (s.wr r i v).cueTags = s.cueTags ∧ (s.wr r i v).winCommit = s.winCommit ∧
    (s.wr r i v).strapBalls = s.strapBalls ∧ (s.wr r i v).funcs = s.funcs ∧ (s.wr r i v).rrs = s.rrs ∧ (s.wr r i v).msixTab = s.msixTab ∧
    (s.wr r i v).msixPba = s.msixPba ∧ (s.wr r i v).hreads = s.hreads ∧ (s.wr r i v).hreadCount = s.hreadCount ∧ (s.wr r i v).entries = s.entries ∧
    (s.wr r i v).entryCount = s.entryCount ∧ (s.wr r i v).hwq = s.hwq ∧ (s.wr r i v).atsCache = s.atsCache ∧ (s.wr r i v).atsInv = s.atsInv ∧
    (s.wr r i v).doe = s.doe ∧ (s.wr r i v).ideSecure = s.ideSecure ∧ (s.wr r i v).dark = s.dark ∧ (s.wr r i v).darkDb = s.darkDb ∧
    (s.wr r i v).logFilter = s.logFilter ∧ (s.wr r i v).logCons = s.logCons ∧ (s.wr r i v).ringx = s.ringx ∧ (s.wr r i v).txJobs = s.txJobs ∧
    (s.wr r i v).txCount = s.txCount ∧ (s.wr r i v).txGone = s.txGone ∧ (s.wr r i v).held = s.held ∧ (s.wr r i v).stalled = s.stalled ∧
    (s.wr r i v).fullerT = s.fullerT ∧ (s.wr r i v).hostOut = s.hostOut ∧ (s.wr r i v).uc = s.uc ∧ (s.wr r i v).ucScratch = s.ucScratch ∧
    (s.wr r i v).ucLast = s.ucLast ∧ (s.wr r i v).ucPatch = s.ucPatch ∧ (s.wr r i v).ucBad = s.ucBad ∧ (s.wr r i v).ucRegime = s.ucRegime ∧
    (s.wr r i v).patchJob = s.patchJob ∧ (s.wr r i v).ucDoorbells = s.ucDoorbells ∧ (s.wr r i v).genCount = s.genCount ∧
    (s.wr r i v).capoOff = s.capoOff ∧ (s.wr r i v).ccReset = s.ccReset ∧ (s.wr r i v).stoCmds = s.stoCmds ∧ (s.wr r i v).stoCount = s.stoCount ∧
    (s.wr r i v).connx = s.connx ∧ (s.wr r i v).bow = s.bow ∧ (s.wr r i v).bowPtr = s.bowPtr ∧ (s.wr r i v).icuHold = s.icuHold ∧
    (s.wr r i v).icuStack = s.icuStack ∧ (s.wr r i v).pwrTarget = s.pwrTarget ∧ (s.wr r i v).pwrByReq = s.pwrByReq ∧ (s.wr r i v).pwrRev = s.pwrRev ∧
    (s.wr r i v).pwrNs = s.pwrNs ∧ (s.wr r i v).pwrSince = s.pwrSince ∧ (s.wr r i v).clkBase = s.clkBase ∧ (s.wr r i v).pwrSelfRef = s.pwrSelfRef ∧
    (s.wr r i v).vddCore = s.vddCore ∧ (s.wr r i v).hold = s.hold ∧ (s.wr r i v).resetNs = s.resetNs ∧ (s.wr r i v).bootNs = s.bootNs ∧
    (s.wr r i v).warm = s.warm ∧ (s.wr r i v).warmSp = s.warmSp ∧ (s.wr r i v).warmFlr = s.warmFlr ∧ (s.wr r i v).diceKeys = s.diceKeys ∧
    (s.wr r i v).diceSealed = s.diceSealed ∧ (s.wr r i v).diceD = s.diceD ∧ (s.wr r i v).diceSvn = s.diceSvn ∧ (s.wr r i v).diceSlot = s.diceSlot ∧
    (s.wr r i v).diceDebug = s.diceDebug ∧ (s.wr r i v).measPatch = s.measPatch ∧ (s.wr r i v).tid = s.tid ∧ (s.wr r i v).spdmBox = s.spdmBox ∧
    (s.wr r i v).wdogNs = s.wdogNs ∧ (s.wr r i v).wdogHeld = s.wdogHeld ∧ (s.wr r i v).chalValid = s.chalValid ∧ (s.wr r i v).jtagIr = s.jtagIr ∧
    (s.wr r i v).rngDead = s.rngDead ∧ (s.wr r i v).spTestFail = s.spTestFail ∧ (s.wr r i v).drbgCount = s.drbgCount ∧
    (s.wr r i v).seqLeft = s.seqLeft ∧ (s.wr r i v).pending = s.pending :=
  ⟨rfl, rfl, rfl, rfl, rfl, rfl, rfl, rfl, rfl, rfl, rfl, rfl, rfl, rfl, rfl, rfl, rfl, rfl, rfl, rfl, rfl, rfl, rfl, rfl, rfl,
   rfl, rfl, rfl, rfl, rfl, rfl, rfl, rfl, rfl, rfl, rfl, rfl, rfl, rfl, rfl, rfl, rfl, rfl, rfl, rfl, rfl, rfl, rfl, rfl, rfl,
   rfl, rfl, rfl, rfl, rfl, rfl, rfl, rfl, rfl, rfl, rfl, rfl, rfl, rfl, rfl, rfl, rfl, rfl, rfl, rfl, rfl, rfl, rfl, rfl, rfl,
   rfl, rfl, rfl, rfl, rfl, rfl, rfl, rfl, rfl, rfl, rfl, rfl, rfl, rfl, rfl, rfl, rfl, rfl, rfl, rfl, rfl, rfl, rfl, rfl, rfl,
   rfl, rfl, rfl, rfl, rfl, rfl, rfl, rfl, rfl, rfl, rfl, rfl, rfl, rfl, rfl, rfl, rfl, rfl, rfl, rfl, rfl, rfl, rfl, rfl, rfl,
   rfl, rfl, rfl, rfl⟩

@[simp] theorem State.fset_fields (s : State) (f : Field) (i v : Nat) :
    (s.fset f i v).mem = s.mem ∧ (s.fset f i v).lost = s.lost ∧ (s.fset f i v).poison = s.poison ∧ (s.fset f i v).ns = s.ns ∧
    (s.fset f i v).time = s.time ∧ (s.fset f i v).free = s.free ∧ (s.fset f i v).out = s.out ∧ (s.fset f i v).latch = s.latch ∧
    (s.fset f i v).errSec = s.errSec ∧ (s.fset f i v).wakeReq = s.wakeReq ∧ (s.fset f i v).threads = s.threads ∧ (s.fset f i v).cores = s.cores ∧
    (s.fset f i v).chans = s.chans ∧ (s.fset f i v).unitPtr = s.unitPtr ∧ (s.fset f i v).parBusy = s.parBusy ∧ (s.fset f i v).polarity = s.polarity ∧
    (s.fset f i v).pegs = s.pegs ∧ (s.fset f i v).ports = s.ports ∧ (s.fset f i v).rr = s.rr ∧ (s.fset f i v).frames = s.frames ∧
    (s.fset f i v).handles = s.handles ∧ (s.fset f i v).arrivals = s.arrivals ∧ (s.fset f i v).fc = s.fc ∧ (s.fset f i v).pend = s.pend ∧
    (s.fset f i v).actFifo = s.actFifo ∧ (s.fset f i v).tmIn = s.tmIn ∧ (s.fset f i v).actLists = s.actLists ∧ (s.fset f i v).pushId = s.pushId ∧
    (s.fset f i v).mirrorCount = s.mirrorCount ∧ (s.fset f i v).tmFifo = s.tmFifo ∧ (s.fset f i v).tmAux = s.tmAux ∧
    (s.fset f i v).polAux = s.polAux ∧ (s.fset f i v).lookups = s.lookups ∧ (s.fset f i v).overlay = s.overlay ∧
    (s.fset f i v).draining = s.draining ∧ (s.fset f i v).learnSeq = s.learnSeq ∧ (s.fset f i v).parked = s.parked ∧
    (s.fset f i v).emFresh = s.emFresh ∧ (s.fset f i v).emCount = s.emCount ∧ (s.fset f i v).extTaint = s.extTaint ∧
    (s.fset f i v).tblDiffs = s.tblDiffs ∧ (s.fset f i v).orderSeen = s.orderSeen ∧ (s.fset f i v).keys = s.keys ∧ (s.fset f i v).klwCmd = s.klwCmd ∧
    (s.fset f i v).csubs = s.csubs ∧ (s.fset f i v).anFail = s.anFail ∧ (s.fset f i v).portPll = s.portPll ∧ (s.fset f i v).tsFifo = s.tsFifo ∧
    (s.fset f i v).cue = s.cue ∧ (s.fset f i v).peerIn = s.peerIn ∧ (s.fset f i v).cueReads = s.cueReads ∧ (s.fset f i v).cueTags = s.cueTags ∧
    (s.fset f i v).winCommit = s.winCommit ∧ (s.fset f i v).strapBalls = s.strapBalls ∧ (s.fset f i v).funcs = s.funcs ∧ (s.fset f i v).rrs = s.rrs ∧
    (s.fset f i v).msixTab = s.msixTab ∧ (s.fset f i v).msixPba = s.msixPba ∧ (s.fset f i v).hreads = s.hreads ∧
    (s.fset f i v).hreadCount = s.hreadCount ∧ (s.fset f i v).entries = s.entries ∧ (s.fset f i v).entryCount = s.entryCount ∧
    (s.fset f i v).hwq = s.hwq ∧ (s.fset f i v).atsCache = s.atsCache ∧ (s.fset f i v).atsInv = s.atsInv ∧ (s.fset f i v).doe = s.doe ∧
    (s.fset f i v).ideSecure = s.ideSecure ∧ (s.fset f i v).dark = s.dark ∧ (s.fset f i v).darkDb = s.darkDb ∧
    (s.fset f i v).logFilter = s.logFilter ∧ (s.fset f i v).logCons = s.logCons ∧ (s.fset f i v).ringx = s.ringx ∧ (s.fset f i v).txJobs = s.txJobs ∧
    (s.fset f i v).txCount = s.txCount ∧ (s.fset f i v).txGone = s.txGone ∧ (s.fset f i v).held = s.held ∧ (s.fset f i v).stalled = s.stalled ∧
    (s.fset f i v).fullerT = s.fullerT ∧ (s.fset f i v).hostOut = s.hostOut ∧ (s.fset f i v).uc = s.uc ∧ (s.fset f i v).ucScratch = s.ucScratch ∧
    (s.fset f i v).ucLast = s.ucLast ∧ (s.fset f i v).ucPatch = s.ucPatch ∧ (s.fset f i v).ucBad = s.ucBad ∧ (s.fset f i v).ucRegime = s.ucRegime ∧
    (s.fset f i v).patchJob = s.patchJob ∧ (s.fset f i v).ucDoorbells = s.ucDoorbells ∧ (s.fset f i v).genCount = s.genCount ∧
    (s.fset f i v).capoOff = s.capoOff ∧ (s.fset f i v).ccReset = s.ccReset ∧ (s.fset f i v).stoCmds = s.stoCmds ∧
    (s.fset f i v).stoCount = s.stoCount ∧ (s.fset f i v).connx = s.connx ∧ (s.fset f i v).bow = s.bow ∧ (s.fset f i v).bowPtr = s.bowPtr ∧
    (s.fset f i v).icuHold = s.icuHold ∧ (s.fset f i v).icuStack = s.icuStack ∧ (s.fset f i v).pwrTarget = s.pwrTarget ∧
    (s.fset f i v).pwrByReq = s.pwrByReq ∧ (s.fset f i v).pwrRev = s.pwrRev ∧ (s.fset f i v).pwrNs = s.pwrNs ∧ (s.fset f i v).pwrSince = s.pwrSince ∧
    (s.fset f i v).clkBase = s.clkBase ∧ (s.fset f i v).pwrSelfRef = s.pwrSelfRef ∧ (s.fset f i v).vddCore = s.vddCore ∧
    (s.fset f i v).hold = s.hold ∧ (s.fset f i v).resetNs = s.resetNs ∧ (s.fset f i v).bootNs = s.bootNs ∧ (s.fset f i v).warm = s.warm ∧
    (s.fset f i v).warmSp = s.warmSp ∧ (s.fset f i v).warmFlr = s.warmFlr ∧ (s.fset f i v).diceKeys = s.diceKeys ∧
    (s.fset f i v).diceSealed = s.diceSealed ∧ (s.fset f i v).diceD = s.diceD ∧ (s.fset f i v).diceSvn = s.diceSvn ∧
    (s.fset f i v).diceSlot = s.diceSlot ∧ (s.fset f i v).diceDebug = s.diceDebug ∧ (s.fset f i v).measPatch = s.measPatch ∧
    (s.fset f i v).tid = s.tid ∧ (s.fset f i v).spdmBox = s.spdmBox ∧ (s.fset f i v).wdogNs = s.wdogNs ∧ (s.fset f i v).wdogHeld = s.wdogHeld ∧
    (s.fset f i v).chalValid = s.chalValid ∧ (s.fset f i v).jtagIr = s.jtagIr ∧ (s.fset f i v).rngDead = s.rngDead ∧
    (s.fset f i v).spTestFail = s.spTestFail ∧ (s.fset f i v).drbgCount = s.drbgCount ∧ (s.fset f i v).seqLeft = s.seqLeft ∧
    (s.fset f i v).pending = s.pending :=
  ⟨rfl, rfl, rfl, rfl, rfl, rfl, rfl, rfl, rfl, rfl, rfl, rfl, rfl, rfl, rfl, rfl, rfl, rfl, rfl, rfl, rfl, rfl, rfl, rfl, rfl,
   rfl, rfl, rfl, rfl, rfl, rfl, rfl, rfl, rfl, rfl, rfl, rfl, rfl, rfl, rfl, rfl, rfl, rfl, rfl, rfl, rfl, rfl, rfl, rfl, rfl,
   rfl, rfl, rfl, rfl, rfl, rfl, rfl, rfl, rfl, rfl, rfl, rfl, rfl, rfl, rfl, rfl, rfl, rfl, rfl, rfl, rfl, rfl, rfl, rfl, rfl,
   rfl, rfl, rfl, rfl, rfl, rfl, rfl, rfl, rfl, rfl, rfl, rfl, rfl, rfl, rfl, rfl, rfl, rfl, rfl, rfl, rfl, rfl, rfl, rfl, rfl,
   rfl, rfl, rfl, rfl, rfl, rfl, rfl, rfl, rfl, rfl, rfl, rfl, rfl, rfl, rfl, rfl, rfl, rfl, rfl, rfl, rfl, rfl, rfl, rfl, rfl,
   rfl, rfl, rfl, rfl⟩

@[simp] theorem State.fadd_fields (s : State) (f : Field) (i n : Nat) :
    (s.fadd f i n).mem = s.mem ∧ (s.fadd f i n).lost = s.lost ∧ (s.fadd f i n).poison = s.poison ∧ (s.fadd f i n).ns = s.ns ∧
    (s.fadd f i n).time = s.time ∧ (s.fadd f i n).free = s.free ∧ (s.fadd f i n).out = s.out ∧ (s.fadd f i n).latch = s.latch ∧
    (s.fadd f i n).errSec = s.errSec ∧ (s.fadd f i n).wakeReq = s.wakeReq ∧ (s.fadd f i n).threads = s.threads ∧ (s.fadd f i n).cores = s.cores ∧
    (s.fadd f i n).chans = s.chans ∧ (s.fadd f i n).unitPtr = s.unitPtr ∧ (s.fadd f i n).parBusy = s.parBusy ∧ (s.fadd f i n).polarity = s.polarity ∧
    (s.fadd f i n).pegs = s.pegs ∧ (s.fadd f i n).ports = s.ports ∧ (s.fadd f i n).rr = s.rr ∧ (s.fadd f i n).frames = s.frames ∧
    (s.fadd f i n).handles = s.handles ∧ (s.fadd f i n).arrivals = s.arrivals ∧ (s.fadd f i n).fc = s.fc ∧ (s.fadd f i n).pend = s.pend ∧
    (s.fadd f i n).actFifo = s.actFifo ∧ (s.fadd f i n).tmIn = s.tmIn ∧ (s.fadd f i n).actLists = s.actLists ∧ (s.fadd f i n).pushId = s.pushId ∧
    (s.fadd f i n).mirrorCount = s.mirrorCount ∧ (s.fadd f i n).tmFifo = s.tmFifo ∧ (s.fadd f i n).tmAux = s.tmAux ∧
    (s.fadd f i n).polAux = s.polAux ∧ (s.fadd f i n).lookups = s.lookups ∧ (s.fadd f i n).overlay = s.overlay ∧
    (s.fadd f i n).draining = s.draining ∧ (s.fadd f i n).learnSeq = s.learnSeq ∧ (s.fadd f i n).parked = s.parked ∧
    (s.fadd f i n).emFresh = s.emFresh ∧ (s.fadd f i n).emCount = s.emCount ∧ (s.fadd f i n).extTaint = s.extTaint ∧
    (s.fadd f i n).tblDiffs = s.tblDiffs ∧ (s.fadd f i n).orderSeen = s.orderSeen ∧ (s.fadd f i n).keys = s.keys ∧ (s.fadd f i n).klwCmd = s.klwCmd ∧
    (s.fadd f i n).csubs = s.csubs ∧ (s.fadd f i n).anFail = s.anFail ∧ (s.fadd f i n).portPll = s.portPll ∧ (s.fadd f i n).tsFifo = s.tsFifo ∧
    (s.fadd f i n).cue = s.cue ∧ (s.fadd f i n).peerIn = s.peerIn ∧ (s.fadd f i n).cueReads = s.cueReads ∧ (s.fadd f i n).cueTags = s.cueTags ∧
    (s.fadd f i n).winCommit = s.winCommit ∧ (s.fadd f i n).strapBalls = s.strapBalls ∧ (s.fadd f i n).funcs = s.funcs ∧ (s.fadd f i n).rrs = s.rrs ∧
    (s.fadd f i n).msixTab = s.msixTab ∧ (s.fadd f i n).msixPba = s.msixPba ∧ (s.fadd f i n).hreads = s.hreads ∧
    (s.fadd f i n).hreadCount = s.hreadCount ∧ (s.fadd f i n).entries = s.entries ∧ (s.fadd f i n).entryCount = s.entryCount ∧
    (s.fadd f i n).hwq = s.hwq ∧ (s.fadd f i n).atsCache = s.atsCache ∧ (s.fadd f i n).atsInv = s.atsInv ∧ (s.fadd f i n).doe = s.doe ∧
    (s.fadd f i n).ideSecure = s.ideSecure ∧ (s.fadd f i n).dark = s.dark ∧ (s.fadd f i n).darkDb = s.darkDb ∧
    (s.fadd f i n).logFilter = s.logFilter ∧ (s.fadd f i n).logCons = s.logCons ∧ (s.fadd f i n).ringx = s.ringx ∧ (s.fadd f i n).txJobs = s.txJobs ∧
    (s.fadd f i n).txCount = s.txCount ∧ (s.fadd f i n).txGone = s.txGone ∧ (s.fadd f i n).held = s.held ∧ (s.fadd f i n).stalled = s.stalled ∧
    (s.fadd f i n).fullerT = s.fullerT ∧ (s.fadd f i n).hostOut = s.hostOut ∧ (s.fadd f i n).uc = s.uc ∧ (s.fadd f i n).ucScratch = s.ucScratch ∧
    (s.fadd f i n).ucLast = s.ucLast ∧ (s.fadd f i n).ucPatch = s.ucPatch ∧ (s.fadd f i n).ucBad = s.ucBad ∧ (s.fadd f i n).ucRegime = s.ucRegime ∧
    (s.fadd f i n).patchJob = s.patchJob ∧ (s.fadd f i n).ucDoorbells = s.ucDoorbells ∧ (s.fadd f i n).genCount = s.genCount ∧
    (s.fadd f i n).capoOff = s.capoOff ∧ (s.fadd f i n).ccReset = s.ccReset ∧ (s.fadd f i n).stoCmds = s.stoCmds ∧
    (s.fadd f i n).stoCount = s.stoCount ∧ (s.fadd f i n).connx = s.connx ∧ (s.fadd f i n).bow = s.bow ∧ (s.fadd f i n).bowPtr = s.bowPtr ∧
    (s.fadd f i n).icuHold = s.icuHold ∧ (s.fadd f i n).icuStack = s.icuStack ∧ (s.fadd f i n).pwrTarget = s.pwrTarget ∧
    (s.fadd f i n).pwrByReq = s.pwrByReq ∧ (s.fadd f i n).pwrRev = s.pwrRev ∧ (s.fadd f i n).pwrNs = s.pwrNs ∧ (s.fadd f i n).pwrSince = s.pwrSince ∧
    (s.fadd f i n).clkBase = s.clkBase ∧ (s.fadd f i n).pwrSelfRef = s.pwrSelfRef ∧ (s.fadd f i n).vddCore = s.vddCore ∧
    (s.fadd f i n).hold = s.hold ∧ (s.fadd f i n).resetNs = s.resetNs ∧ (s.fadd f i n).bootNs = s.bootNs ∧ (s.fadd f i n).warm = s.warm ∧
    (s.fadd f i n).warmSp = s.warmSp ∧ (s.fadd f i n).warmFlr = s.warmFlr ∧ (s.fadd f i n).diceKeys = s.diceKeys ∧
    (s.fadd f i n).diceSealed = s.diceSealed ∧ (s.fadd f i n).diceD = s.diceD ∧ (s.fadd f i n).diceSvn = s.diceSvn ∧
    (s.fadd f i n).diceSlot = s.diceSlot ∧ (s.fadd f i n).diceDebug = s.diceDebug ∧ (s.fadd f i n).measPatch = s.measPatch ∧
    (s.fadd f i n).tid = s.tid ∧ (s.fadd f i n).spdmBox = s.spdmBox ∧ (s.fadd f i n).wdogNs = s.wdogNs ∧ (s.fadd f i n).wdogHeld = s.wdogHeld ∧
    (s.fadd f i n).chalValid = s.chalValid ∧ (s.fadd f i n).jtagIr = s.jtagIr ∧ (s.fadd f i n).rngDead = s.rngDead ∧
    (s.fadd f i n).spTestFail = s.spTestFail ∧ (s.fadd f i n).drbgCount = s.drbgCount ∧ (s.fadd f i n).seqLeft = s.seqLeft ∧
    (s.fadd f i n).pending = s.pending :=
  ⟨rfl, rfl, rfl, rfl, rfl, rfl, rfl, rfl, rfl, rfl, rfl, rfl, rfl, rfl, rfl, rfl, rfl, rfl, rfl, rfl, rfl, rfl, rfl, rfl, rfl,
   rfl, rfl, rfl, rfl, rfl, rfl, rfl, rfl, rfl, rfl, rfl, rfl, rfl, rfl, rfl, rfl, rfl, rfl, rfl, rfl, rfl, rfl, rfl, rfl, rfl,
   rfl, rfl, rfl, rfl, rfl, rfl, rfl, rfl, rfl, rfl, rfl, rfl, rfl, rfl, rfl, rfl, rfl, rfl, rfl, rfl, rfl, rfl, rfl, rfl, rfl,
   rfl, rfl, rfl, rfl, rfl, rfl, rfl, rfl, rfl, rfl, rfl, rfl, rfl, rfl, rfl, rfl, rfl, rfl, rfl, rfl, rfl, rfl, rfl, rfl, rfl,
   rfl, rfl, rfl, rfl, rfl, rfl, rfl, rfl, rfl, rfl, rfl, rfl, rfl, rfl, rfl, rfl, rfl, rfl, rfl, rfl, rfl, rfl, rfl, rfl, rfl,
   rfl, rfl, rfl, rfl⟩

@[simp] theorem State.bump_fields (s : State) (f : Field) (i : Nat) :
    (s.bump f i).mem = s.mem ∧ (s.bump f i).lost = s.lost ∧ (s.bump f i).poison = s.poison ∧ (s.bump f i).ns = s.ns ∧ (s.bump f i).time = s.time ∧
    (s.bump f i).free = s.free ∧ (s.bump f i).out = s.out ∧ (s.bump f i).latch = s.latch ∧ (s.bump f i).errSec = s.errSec ∧
    (s.bump f i).wakeReq = s.wakeReq ∧ (s.bump f i).threads = s.threads ∧ (s.bump f i).cores = s.cores ∧ (s.bump f i).chans = s.chans ∧
    (s.bump f i).unitPtr = s.unitPtr ∧ (s.bump f i).parBusy = s.parBusy ∧ (s.bump f i).polarity = s.polarity ∧ (s.bump f i).pegs = s.pegs ∧
    (s.bump f i).ports = s.ports ∧ (s.bump f i).rr = s.rr ∧ (s.bump f i).frames = s.frames ∧ (s.bump f i).handles = s.handles ∧
    (s.bump f i).arrivals = s.arrivals ∧ (s.bump f i).fc = s.fc ∧ (s.bump f i).pend = s.pend ∧ (s.bump f i).actFifo = s.actFifo ∧
    (s.bump f i).tmIn = s.tmIn ∧ (s.bump f i).actLists = s.actLists ∧ (s.bump f i).pushId = s.pushId ∧ (s.bump f i).mirrorCount = s.mirrorCount ∧
    (s.bump f i).tmFifo = s.tmFifo ∧ (s.bump f i).tmAux = s.tmAux ∧ (s.bump f i).polAux = s.polAux ∧ (s.bump f i).lookups = s.lookups ∧
    (s.bump f i).overlay = s.overlay ∧ (s.bump f i).draining = s.draining ∧ (s.bump f i).learnSeq = s.learnSeq ∧ (s.bump f i).parked = s.parked ∧
    (s.bump f i).emFresh = s.emFresh ∧ (s.bump f i).emCount = s.emCount ∧ (s.bump f i).extTaint = s.extTaint ∧ (s.bump f i).tblDiffs = s.tblDiffs ∧
    (s.bump f i).orderSeen = s.orderSeen ∧ (s.bump f i).keys = s.keys ∧ (s.bump f i).klwCmd = s.klwCmd ∧ (s.bump f i).csubs = s.csubs ∧
    (s.bump f i).anFail = s.anFail ∧ (s.bump f i).portPll = s.portPll ∧ (s.bump f i).tsFifo = s.tsFifo ∧ (s.bump f i).cue = s.cue ∧
    (s.bump f i).peerIn = s.peerIn ∧ (s.bump f i).cueReads = s.cueReads ∧ (s.bump f i).cueTags = s.cueTags ∧ (s.bump f i).winCommit = s.winCommit ∧
    (s.bump f i).strapBalls = s.strapBalls ∧ (s.bump f i).funcs = s.funcs ∧ (s.bump f i).rrs = s.rrs ∧ (s.bump f i).msixTab = s.msixTab ∧
    (s.bump f i).msixPba = s.msixPba ∧ (s.bump f i).hreads = s.hreads ∧ (s.bump f i).hreadCount = s.hreadCount ∧ (s.bump f i).entries = s.entries ∧
    (s.bump f i).entryCount = s.entryCount ∧ (s.bump f i).hwq = s.hwq ∧ (s.bump f i).atsCache = s.atsCache ∧ (s.bump f i).atsInv = s.atsInv ∧
    (s.bump f i).doe = s.doe ∧ (s.bump f i).ideSecure = s.ideSecure ∧ (s.bump f i).dark = s.dark ∧ (s.bump f i).darkDb = s.darkDb ∧
    (s.bump f i).logFilter = s.logFilter ∧ (s.bump f i).logCons = s.logCons ∧ (s.bump f i).ringx = s.ringx ∧ (s.bump f i).txJobs = s.txJobs ∧
    (s.bump f i).txCount = s.txCount ∧ (s.bump f i).txGone = s.txGone ∧ (s.bump f i).held = s.held ∧ (s.bump f i).stalled = s.stalled ∧
    (s.bump f i).fullerT = s.fullerT ∧ (s.bump f i).hostOut = s.hostOut ∧ (s.bump f i).uc = s.uc ∧ (s.bump f i).ucScratch = s.ucScratch ∧
    (s.bump f i).ucLast = s.ucLast ∧ (s.bump f i).ucPatch = s.ucPatch ∧ (s.bump f i).ucBad = s.ucBad ∧ (s.bump f i).ucRegime = s.ucRegime ∧
    (s.bump f i).patchJob = s.patchJob ∧ (s.bump f i).ucDoorbells = s.ucDoorbells ∧ (s.bump f i).genCount = s.genCount ∧
    (s.bump f i).capoOff = s.capoOff ∧ (s.bump f i).ccReset = s.ccReset ∧ (s.bump f i).stoCmds = s.stoCmds ∧ (s.bump f i).stoCount = s.stoCount ∧
    (s.bump f i).connx = s.connx ∧ (s.bump f i).bow = s.bow ∧ (s.bump f i).bowPtr = s.bowPtr ∧ (s.bump f i).icuHold = s.icuHold ∧
    (s.bump f i).icuStack = s.icuStack ∧ (s.bump f i).pwrTarget = s.pwrTarget ∧ (s.bump f i).pwrByReq = s.pwrByReq ∧ (s.bump f i).pwrRev = s.pwrRev ∧
    (s.bump f i).pwrNs = s.pwrNs ∧ (s.bump f i).pwrSince = s.pwrSince ∧ (s.bump f i).clkBase = s.clkBase ∧ (s.bump f i).pwrSelfRef = s.pwrSelfRef ∧
    (s.bump f i).vddCore = s.vddCore ∧ (s.bump f i).hold = s.hold ∧ (s.bump f i).resetNs = s.resetNs ∧ (s.bump f i).bootNs = s.bootNs ∧
    (s.bump f i).warm = s.warm ∧ (s.bump f i).warmSp = s.warmSp ∧ (s.bump f i).warmFlr = s.warmFlr ∧ (s.bump f i).diceKeys = s.diceKeys ∧
    (s.bump f i).diceSealed = s.diceSealed ∧ (s.bump f i).diceD = s.diceD ∧ (s.bump f i).diceSvn = s.diceSvn ∧ (s.bump f i).diceSlot = s.diceSlot ∧
    (s.bump f i).diceDebug = s.diceDebug ∧ (s.bump f i).measPatch = s.measPatch ∧ (s.bump f i).tid = s.tid ∧ (s.bump f i).spdmBox = s.spdmBox ∧
    (s.bump f i).wdogNs = s.wdogNs ∧ (s.bump f i).wdogHeld = s.wdogHeld ∧ (s.bump f i).chalValid = s.chalValid ∧ (s.bump f i).jtagIr = s.jtagIr ∧
    (s.bump f i).rngDead = s.rngDead ∧ (s.bump f i).spTestFail = s.spTestFail ∧ (s.bump f i).drbgCount = s.drbgCount ∧
    (s.bump f i).seqLeft = s.seqLeft ∧ (s.bump f i).pending = s.pending :=
  ⟨rfl, rfl, rfl, rfl, rfl, rfl, rfl, rfl, rfl, rfl, rfl, rfl, rfl, rfl, rfl, rfl, rfl, rfl, rfl, rfl, rfl, rfl, rfl, rfl, rfl,
   rfl, rfl, rfl, rfl, rfl, rfl, rfl, rfl, rfl, rfl, rfl, rfl, rfl, rfl, rfl, rfl, rfl, rfl, rfl, rfl, rfl, rfl, rfl, rfl, rfl,
   rfl, rfl, rfl, rfl, rfl, rfl, rfl, rfl, rfl, rfl, rfl, rfl, rfl, rfl, rfl, rfl, rfl, rfl, rfl, rfl, rfl, rfl, rfl, rfl, rfl,
   rfl, rfl, rfl, rfl, rfl, rfl, rfl, rfl, rfl, rfl, rfl, rfl, rfl, rfl, rfl, rfl, rfl, rfl, rfl, rfl, rfl, rfl, rfl, rfl, rfl,
   rfl, rfl, rfl, rfl, rfl, rfl, rfl, rfl, rfl, rfl, rfl, rfl, rfl, rfl, rfl, rfl, rfl, rfl, rfl, rfl, rfl, rfl, rfl, rfl, rfl,
   rfl, rfl, rfl, rfl⟩

@[simp] theorem State.finc_fields (s : State) (f : Field) (i : Nat) :
    (s.finc f i).mem = s.mem ∧ (s.finc f i).lost = s.lost ∧ (s.finc f i).poison = s.poison ∧ (s.finc f i).ns = s.ns ∧ (s.finc f i).time = s.time ∧
    (s.finc f i).free = s.free ∧ (s.finc f i).out = s.out ∧ (s.finc f i).latch = s.latch ∧ (s.finc f i).errSec = s.errSec ∧
    (s.finc f i).wakeReq = s.wakeReq ∧ (s.finc f i).threads = s.threads ∧ (s.finc f i).cores = s.cores ∧ (s.finc f i).chans = s.chans ∧
    (s.finc f i).unitPtr = s.unitPtr ∧ (s.finc f i).parBusy = s.parBusy ∧ (s.finc f i).polarity = s.polarity ∧ (s.finc f i).pegs = s.pegs ∧
    (s.finc f i).ports = s.ports ∧ (s.finc f i).rr = s.rr ∧ (s.finc f i).frames = s.frames ∧ (s.finc f i).handles = s.handles ∧
    (s.finc f i).arrivals = s.arrivals ∧ (s.finc f i).fc = s.fc ∧ (s.finc f i).pend = s.pend ∧ (s.finc f i).actFifo = s.actFifo ∧
    (s.finc f i).tmIn = s.tmIn ∧ (s.finc f i).actLists = s.actLists ∧ (s.finc f i).pushId = s.pushId ∧ (s.finc f i).mirrorCount = s.mirrorCount ∧
    (s.finc f i).tmFifo = s.tmFifo ∧ (s.finc f i).tmAux = s.tmAux ∧ (s.finc f i).polAux = s.polAux ∧ (s.finc f i).lookups = s.lookups ∧
    (s.finc f i).overlay = s.overlay ∧ (s.finc f i).draining = s.draining ∧ (s.finc f i).learnSeq = s.learnSeq ∧ (s.finc f i).parked = s.parked ∧
    (s.finc f i).emFresh = s.emFresh ∧ (s.finc f i).emCount = s.emCount ∧ (s.finc f i).extTaint = s.extTaint ∧ (s.finc f i).tblDiffs = s.tblDiffs ∧
    (s.finc f i).orderSeen = s.orderSeen ∧ (s.finc f i).keys = s.keys ∧ (s.finc f i).klwCmd = s.klwCmd ∧ (s.finc f i).csubs = s.csubs ∧
    (s.finc f i).anFail = s.anFail ∧ (s.finc f i).portPll = s.portPll ∧ (s.finc f i).tsFifo = s.tsFifo ∧ (s.finc f i).cue = s.cue ∧
    (s.finc f i).peerIn = s.peerIn ∧ (s.finc f i).cueReads = s.cueReads ∧ (s.finc f i).cueTags = s.cueTags ∧ (s.finc f i).winCommit = s.winCommit ∧
    (s.finc f i).strapBalls = s.strapBalls ∧ (s.finc f i).funcs = s.funcs ∧ (s.finc f i).rrs = s.rrs ∧ (s.finc f i).msixTab = s.msixTab ∧
    (s.finc f i).msixPba = s.msixPba ∧ (s.finc f i).hreads = s.hreads ∧ (s.finc f i).hreadCount = s.hreadCount ∧ (s.finc f i).entries = s.entries ∧
    (s.finc f i).entryCount = s.entryCount ∧ (s.finc f i).hwq = s.hwq ∧ (s.finc f i).atsCache = s.atsCache ∧ (s.finc f i).atsInv = s.atsInv ∧
    (s.finc f i).doe = s.doe ∧ (s.finc f i).ideSecure = s.ideSecure ∧ (s.finc f i).dark = s.dark ∧ (s.finc f i).darkDb = s.darkDb ∧
    (s.finc f i).logFilter = s.logFilter ∧ (s.finc f i).logCons = s.logCons ∧ (s.finc f i).ringx = s.ringx ∧ (s.finc f i).txJobs = s.txJobs ∧
    (s.finc f i).txCount = s.txCount ∧ (s.finc f i).txGone = s.txGone ∧ (s.finc f i).held = s.held ∧ (s.finc f i).stalled = s.stalled ∧
    (s.finc f i).fullerT = s.fullerT ∧ (s.finc f i).hostOut = s.hostOut ∧ (s.finc f i).uc = s.uc ∧ (s.finc f i).ucScratch = s.ucScratch ∧
    (s.finc f i).ucLast = s.ucLast ∧ (s.finc f i).ucPatch = s.ucPatch ∧ (s.finc f i).ucBad = s.ucBad ∧ (s.finc f i).ucRegime = s.ucRegime ∧
    (s.finc f i).patchJob = s.patchJob ∧ (s.finc f i).ucDoorbells = s.ucDoorbells ∧ (s.finc f i).genCount = s.genCount ∧
    (s.finc f i).capoOff = s.capoOff ∧ (s.finc f i).ccReset = s.ccReset ∧ (s.finc f i).stoCmds = s.stoCmds ∧ (s.finc f i).stoCount = s.stoCount ∧
    (s.finc f i).connx = s.connx ∧ (s.finc f i).bow = s.bow ∧ (s.finc f i).bowPtr = s.bowPtr ∧ (s.finc f i).icuHold = s.icuHold ∧
    (s.finc f i).icuStack = s.icuStack ∧ (s.finc f i).pwrTarget = s.pwrTarget ∧ (s.finc f i).pwrByReq = s.pwrByReq ∧ (s.finc f i).pwrRev = s.pwrRev ∧
    (s.finc f i).pwrNs = s.pwrNs ∧ (s.finc f i).pwrSince = s.pwrSince ∧ (s.finc f i).clkBase = s.clkBase ∧ (s.finc f i).pwrSelfRef = s.pwrSelfRef ∧
    (s.finc f i).vddCore = s.vddCore ∧ (s.finc f i).hold = s.hold ∧ (s.finc f i).resetNs = s.resetNs ∧ (s.finc f i).bootNs = s.bootNs ∧
    (s.finc f i).warm = s.warm ∧ (s.finc f i).warmSp = s.warmSp ∧ (s.finc f i).warmFlr = s.warmFlr ∧ (s.finc f i).diceKeys = s.diceKeys ∧
    (s.finc f i).diceSealed = s.diceSealed ∧ (s.finc f i).diceD = s.diceD ∧ (s.finc f i).diceSvn = s.diceSvn ∧ (s.finc f i).diceSlot = s.diceSlot ∧
    (s.finc f i).diceDebug = s.diceDebug ∧ (s.finc f i).measPatch = s.measPatch ∧ (s.finc f i).tid = s.tid ∧ (s.finc f i).spdmBox = s.spdmBox ∧
    (s.finc f i).wdogNs = s.wdogNs ∧ (s.finc f i).wdogHeld = s.wdogHeld ∧ (s.finc f i).chalValid = s.chalValid ∧ (s.finc f i).jtagIr = s.jtagIr ∧
    (s.finc f i).rngDead = s.rngDead ∧ (s.finc f i).spTestFail = s.spTestFail ∧ (s.finc f i).drbgCount = s.drbgCount ∧
    (s.finc f i).seqLeft = s.seqLeft ∧ (s.finc f i).pending = s.pending :=
  ⟨rfl, rfl, rfl, rfl, rfl, rfl, rfl, rfl, rfl, rfl, rfl, rfl, rfl, rfl, rfl, rfl, rfl, rfl, rfl, rfl, rfl, rfl, rfl, rfl, rfl,
   rfl, rfl, rfl, rfl, rfl, rfl, rfl, rfl, rfl, rfl, rfl, rfl, rfl, rfl, rfl, rfl, rfl, rfl, rfl, rfl, rfl, rfl, rfl, rfl, rfl,
   rfl, rfl, rfl, rfl, rfl, rfl, rfl, rfl, rfl, rfl, rfl, rfl, rfl, rfl, rfl, rfl, rfl, rfl, rfl, rfl, rfl, rfl, rfl, rfl, rfl,
   rfl, rfl, rfl, rfl, rfl, rfl, rfl, rfl, rfl, rfl, rfl, rfl, rfl, rfl, rfl, rfl, rfl, rfl, rfl, rfl, rfl, rfl, rfl, rfl, rfl,
   rfl, rfl, rfl, rfl, rfl, rfl, rfl, rfl, rfl, rfl, rfl, rfl, rfl, rfl, rfl, rfl, rfl, rfl, rfl, rfl, rfl, rfl, rfl, rfl, rfl,
   rfl, rfl, rfl, rfl⟩

@[simp] theorem State.fsub_fields (s : State) (f : Field) (i n : Nat) :
    (s.fsub f i n).mem = s.mem ∧ (s.fsub f i n).lost = s.lost ∧ (s.fsub f i n).poison = s.poison ∧ (s.fsub f i n).ns = s.ns ∧
    (s.fsub f i n).time = s.time ∧ (s.fsub f i n).free = s.free ∧ (s.fsub f i n).out = s.out ∧ (s.fsub f i n).latch = s.latch ∧
    (s.fsub f i n).errSec = s.errSec ∧ (s.fsub f i n).wakeReq = s.wakeReq ∧ (s.fsub f i n).threads = s.threads ∧ (s.fsub f i n).cores = s.cores ∧
    (s.fsub f i n).chans = s.chans ∧ (s.fsub f i n).unitPtr = s.unitPtr ∧ (s.fsub f i n).parBusy = s.parBusy ∧ (s.fsub f i n).polarity = s.polarity ∧
    (s.fsub f i n).pegs = s.pegs ∧ (s.fsub f i n).ports = s.ports ∧ (s.fsub f i n).rr = s.rr ∧ (s.fsub f i n).frames = s.frames ∧
    (s.fsub f i n).handles = s.handles ∧ (s.fsub f i n).arrivals = s.arrivals ∧ (s.fsub f i n).fc = s.fc ∧ (s.fsub f i n).pend = s.pend ∧
    (s.fsub f i n).actFifo = s.actFifo ∧ (s.fsub f i n).tmIn = s.tmIn ∧ (s.fsub f i n).actLists = s.actLists ∧ (s.fsub f i n).pushId = s.pushId ∧
    (s.fsub f i n).mirrorCount = s.mirrorCount ∧ (s.fsub f i n).tmFifo = s.tmFifo ∧ (s.fsub f i n).tmAux = s.tmAux ∧
    (s.fsub f i n).polAux = s.polAux ∧ (s.fsub f i n).lookups = s.lookups ∧ (s.fsub f i n).overlay = s.overlay ∧
    (s.fsub f i n).draining = s.draining ∧ (s.fsub f i n).learnSeq = s.learnSeq ∧ (s.fsub f i n).parked = s.parked ∧
    (s.fsub f i n).emFresh = s.emFresh ∧ (s.fsub f i n).emCount = s.emCount ∧ (s.fsub f i n).extTaint = s.extTaint ∧
    (s.fsub f i n).tblDiffs = s.tblDiffs ∧ (s.fsub f i n).orderSeen = s.orderSeen ∧ (s.fsub f i n).keys = s.keys ∧ (s.fsub f i n).klwCmd = s.klwCmd ∧
    (s.fsub f i n).csubs = s.csubs ∧ (s.fsub f i n).anFail = s.anFail ∧ (s.fsub f i n).portPll = s.portPll ∧ (s.fsub f i n).tsFifo = s.tsFifo ∧
    (s.fsub f i n).cue = s.cue ∧ (s.fsub f i n).peerIn = s.peerIn ∧ (s.fsub f i n).cueReads = s.cueReads ∧ (s.fsub f i n).cueTags = s.cueTags ∧
    (s.fsub f i n).winCommit = s.winCommit ∧ (s.fsub f i n).strapBalls = s.strapBalls ∧ (s.fsub f i n).funcs = s.funcs ∧ (s.fsub f i n).rrs = s.rrs ∧
    (s.fsub f i n).msixTab = s.msixTab ∧ (s.fsub f i n).msixPba = s.msixPba ∧ (s.fsub f i n).hreads = s.hreads ∧
    (s.fsub f i n).hreadCount = s.hreadCount ∧ (s.fsub f i n).entries = s.entries ∧ (s.fsub f i n).entryCount = s.entryCount ∧
    (s.fsub f i n).hwq = s.hwq ∧ (s.fsub f i n).atsCache = s.atsCache ∧ (s.fsub f i n).atsInv = s.atsInv ∧ (s.fsub f i n).doe = s.doe ∧
    (s.fsub f i n).ideSecure = s.ideSecure ∧ (s.fsub f i n).dark = s.dark ∧ (s.fsub f i n).darkDb = s.darkDb ∧
    (s.fsub f i n).logFilter = s.logFilter ∧ (s.fsub f i n).logCons = s.logCons ∧ (s.fsub f i n).ringx = s.ringx ∧ (s.fsub f i n).txJobs = s.txJobs ∧
    (s.fsub f i n).txCount = s.txCount ∧ (s.fsub f i n).txGone = s.txGone ∧ (s.fsub f i n).held = s.held ∧ (s.fsub f i n).stalled = s.stalled ∧
    (s.fsub f i n).fullerT = s.fullerT ∧ (s.fsub f i n).hostOut = s.hostOut ∧ (s.fsub f i n).uc = s.uc ∧ (s.fsub f i n).ucScratch = s.ucScratch ∧
    (s.fsub f i n).ucLast = s.ucLast ∧ (s.fsub f i n).ucPatch = s.ucPatch ∧ (s.fsub f i n).ucBad = s.ucBad ∧ (s.fsub f i n).ucRegime = s.ucRegime ∧
    (s.fsub f i n).patchJob = s.patchJob ∧ (s.fsub f i n).ucDoorbells = s.ucDoorbells ∧ (s.fsub f i n).genCount = s.genCount ∧
    (s.fsub f i n).capoOff = s.capoOff ∧ (s.fsub f i n).ccReset = s.ccReset ∧ (s.fsub f i n).stoCmds = s.stoCmds ∧
    (s.fsub f i n).stoCount = s.stoCount ∧ (s.fsub f i n).connx = s.connx ∧ (s.fsub f i n).bow = s.bow ∧ (s.fsub f i n).bowPtr = s.bowPtr ∧
    (s.fsub f i n).icuHold = s.icuHold ∧ (s.fsub f i n).icuStack = s.icuStack ∧ (s.fsub f i n).pwrTarget = s.pwrTarget ∧
    (s.fsub f i n).pwrByReq = s.pwrByReq ∧ (s.fsub f i n).pwrRev = s.pwrRev ∧ (s.fsub f i n).pwrNs = s.pwrNs ∧ (s.fsub f i n).pwrSince = s.pwrSince ∧
    (s.fsub f i n).clkBase = s.clkBase ∧ (s.fsub f i n).pwrSelfRef = s.pwrSelfRef ∧ (s.fsub f i n).vddCore = s.vddCore ∧
    (s.fsub f i n).hold = s.hold ∧ (s.fsub f i n).resetNs = s.resetNs ∧ (s.fsub f i n).bootNs = s.bootNs ∧ (s.fsub f i n).warm = s.warm ∧
    (s.fsub f i n).warmSp = s.warmSp ∧ (s.fsub f i n).warmFlr = s.warmFlr ∧ (s.fsub f i n).diceKeys = s.diceKeys ∧
    (s.fsub f i n).diceSealed = s.diceSealed ∧ (s.fsub f i n).diceD = s.diceD ∧ (s.fsub f i n).diceSvn = s.diceSvn ∧
    (s.fsub f i n).diceSlot = s.diceSlot ∧ (s.fsub f i n).diceDebug = s.diceDebug ∧ (s.fsub f i n).measPatch = s.measPatch ∧
    (s.fsub f i n).tid = s.tid ∧ (s.fsub f i n).spdmBox = s.spdmBox ∧ (s.fsub f i n).wdogNs = s.wdogNs ∧ (s.fsub f i n).wdogHeld = s.wdogHeld ∧
    (s.fsub f i n).chalValid = s.chalValid ∧ (s.fsub f i n).jtagIr = s.jtagIr ∧ (s.fsub f i n).rngDead = s.rngDead ∧
    (s.fsub f i n).spTestFail = s.spTestFail ∧ (s.fsub f i n).drbgCount = s.drbgCount ∧ (s.fsub f i n).seqLeft = s.seqLeft ∧
    (s.fsub f i n).pending = s.pending :=
  ⟨rfl, rfl, rfl, rfl, rfl, rfl, rfl, rfl, rfl, rfl, rfl, rfl, rfl, rfl, rfl, rfl, rfl, rfl, rfl, rfl, rfl, rfl, rfl, rfl, rfl,
   rfl, rfl, rfl, rfl, rfl, rfl, rfl, rfl, rfl, rfl, rfl, rfl, rfl, rfl, rfl, rfl, rfl, rfl, rfl, rfl, rfl, rfl, rfl, rfl, rfl,
   rfl, rfl, rfl, rfl, rfl, rfl, rfl, rfl, rfl, rfl, rfl, rfl, rfl, rfl, rfl, rfl, rfl, rfl, rfl, rfl, rfl, rfl, rfl, rfl, rfl,
   rfl, rfl, rfl, rfl, rfl, rfl, rfl, rfl, rfl, rfl, rfl, rfl, rfl, rfl, rfl, rfl, rfl, rfl, rfl, rfl, rfl, rfl, rfl, rfl, rfl,
   rfl, rfl, rfl, rfl, rfl, rfl, rfl, rfl, rfl, rfl, rfl, rfl, rfl, rfl, rfl, rfl, rfl, rfl, rfl, rfl, rfl, rfl, rfl, rfl, rfl,
   rfl, rfl, rfl, rfl⟩

@[simp] theorem State.drawWord_fields (s : State) :
    (s.drawWord.2).regs = s.regs ∧ (s.drawWord.2).mem = s.mem ∧ (s.drawWord.2).lost = s.lost ∧ (s.drawWord.2).poison = s.poison ∧
    (s.drawWord.2).ns = s.ns ∧ (s.drawWord.2).time = s.time ∧ (s.drawWord.2).out = s.out ∧ (s.drawWord.2).latch = s.latch ∧
    (s.drawWord.2).errSec = s.errSec ∧ (s.drawWord.2).wakeReq = s.wakeReq ∧ (s.drawWord.2).threads = s.threads ∧ (s.drawWord.2).cores = s.cores ∧
    (s.drawWord.2).chans = s.chans ∧ (s.drawWord.2).unitPtr = s.unitPtr ∧ (s.drawWord.2).parBusy = s.parBusy ∧ (s.drawWord.2).polarity = s.polarity ∧
    (s.drawWord.2).pegs = s.pegs ∧ (s.drawWord.2).ports = s.ports ∧ (s.drawWord.2).rr = s.rr ∧ (s.drawWord.2).frames = s.frames ∧
    (s.drawWord.2).handles = s.handles ∧ (s.drawWord.2).arrivals = s.arrivals ∧ (s.drawWord.2).fc = s.fc ∧ (s.drawWord.2).pend = s.pend ∧
    (s.drawWord.2).actFifo = s.actFifo ∧ (s.drawWord.2).tmIn = s.tmIn ∧ (s.drawWord.2).actLists = s.actLists ∧ (s.drawWord.2).pushId = s.pushId ∧
    (s.drawWord.2).mirrorCount = s.mirrorCount ∧ (s.drawWord.2).tmFifo = s.tmFifo ∧ (s.drawWord.2).tmAux = s.tmAux ∧
    (s.drawWord.2).polAux = s.polAux ∧ (s.drawWord.2).lookups = s.lookups ∧ (s.drawWord.2).overlay = s.overlay ∧
    (s.drawWord.2).draining = s.draining ∧ (s.drawWord.2).learnSeq = s.learnSeq ∧ (s.drawWord.2).parked = s.parked ∧
    (s.drawWord.2).emFresh = s.emFresh ∧ (s.drawWord.2).emCount = s.emCount ∧ (s.drawWord.2).extTaint = s.extTaint ∧
    (s.drawWord.2).tblDiffs = s.tblDiffs ∧ (s.drawWord.2).orderSeen = s.orderSeen ∧ (s.drawWord.2).keys = s.keys ∧ (s.drawWord.2).klwCmd = s.klwCmd ∧
    (s.drawWord.2).csubs = s.csubs ∧ (s.drawWord.2).anFail = s.anFail ∧ (s.drawWord.2).portPll = s.portPll ∧ (s.drawWord.2).tsFifo = s.tsFifo ∧
    (s.drawWord.2).cue = s.cue ∧ (s.drawWord.2).peerIn = s.peerIn ∧ (s.drawWord.2).cueReads = s.cueReads ∧ (s.drawWord.2).cueTags = s.cueTags ∧
    (s.drawWord.2).winCommit = s.winCommit ∧ (s.drawWord.2).strapBalls = s.strapBalls ∧ (s.drawWord.2).funcs = s.funcs ∧ (s.drawWord.2).rrs = s.rrs ∧
    (s.drawWord.2).msixTab = s.msixTab ∧ (s.drawWord.2).msixPba = s.msixPba ∧ (s.drawWord.2).hreads = s.hreads ∧
    (s.drawWord.2).hreadCount = s.hreadCount ∧ (s.drawWord.2).entries = s.entries ∧ (s.drawWord.2).entryCount = s.entryCount ∧
    (s.drawWord.2).hwq = s.hwq ∧ (s.drawWord.2).atsCache = s.atsCache ∧ (s.drawWord.2).atsInv = s.atsInv ∧ (s.drawWord.2).doe = s.doe ∧
    (s.drawWord.2).ideSecure = s.ideSecure ∧ (s.drawWord.2).dark = s.dark ∧ (s.drawWord.2).darkDb = s.darkDb ∧
    (s.drawWord.2).logFilter = s.logFilter ∧ (s.drawWord.2).logCons = s.logCons ∧ (s.drawWord.2).ringx = s.ringx ∧ (s.drawWord.2).txJobs = s.txJobs ∧
    (s.drawWord.2).txCount = s.txCount ∧ (s.drawWord.2).txGone = s.txGone ∧ (s.drawWord.2).held = s.held ∧ (s.drawWord.2).stalled = s.stalled ∧
    (s.drawWord.2).fullerT = s.fullerT ∧ (s.drawWord.2).hostOut = s.hostOut ∧ (s.drawWord.2).uc = s.uc ∧ (s.drawWord.2).ucScratch = s.ucScratch ∧
    (s.drawWord.2).ucLast = s.ucLast ∧ (s.drawWord.2).ucPatch = s.ucPatch ∧ (s.drawWord.2).ucBad = s.ucBad ∧ (s.drawWord.2).ucRegime = s.ucRegime ∧
    (s.drawWord.2).patchJob = s.patchJob ∧ (s.drawWord.2).ucDoorbells = s.ucDoorbells ∧ (s.drawWord.2).genCount = s.genCount ∧
    (s.drawWord.2).capoOff = s.capoOff ∧ (s.drawWord.2).ccReset = s.ccReset ∧ (s.drawWord.2).stoCmds = s.stoCmds ∧
    (s.drawWord.2).stoCount = s.stoCount ∧ (s.drawWord.2).connx = s.connx ∧ (s.drawWord.2).bow = s.bow ∧ (s.drawWord.2).bowPtr = s.bowPtr ∧
    (s.drawWord.2).icuHold = s.icuHold ∧ (s.drawWord.2).icuStack = s.icuStack ∧ (s.drawWord.2).pwrTarget = s.pwrTarget ∧
    (s.drawWord.2).pwrByReq = s.pwrByReq ∧ (s.drawWord.2).pwrRev = s.pwrRev ∧ (s.drawWord.2).pwrNs = s.pwrNs ∧ (s.drawWord.2).pwrSince = s.pwrSince ∧
    (s.drawWord.2).clkBase = s.clkBase ∧ (s.drawWord.2).pwrSelfRef = s.pwrSelfRef ∧ (s.drawWord.2).vddCore = s.vddCore ∧
    (s.drawWord.2).hold = s.hold ∧ (s.drawWord.2).resetNs = s.resetNs ∧ (s.drawWord.2).bootNs = s.bootNs ∧ (s.drawWord.2).warm = s.warm ∧
    (s.drawWord.2).warmSp = s.warmSp ∧ (s.drawWord.2).warmFlr = s.warmFlr ∧ (s.drawWord.2).diceKeys = s.diceKeys ∧
    (s.drawWord.2).diceSealed = s.diceSealed ∧ (s.drawWord.2).diceD = s.diceD ∧ (s.drawWord.2).diceSvn = s.diceSvn ∧
    (s.drawWord.2).diceSlot = s.diceSlot ∧ (s.drawWord.2).diceDebug = s.diceDebug ∧ (s.drawWord.2).measPatch = s.measPatch ∧
    (s.drawWord.2).tid = s.tid ∧ (s.drawWord.2).spdmBox = s.spdmBox ∧ (s.drawWord.2).wdogNs = s.wdogNs ∧ (s.drawWord.2).wdogHeld = s.wdogHeld ∧
    (s.drawWord.2).chalValid = s.chalValid ∧ (s.drawWord.2).jtagIr = s.jtagIr ∧ (s.drawWord.2).rngDead = s.rngDead ∧
    (s.drawWord.2).spTestFail = s.spTestFail ∧ (s.drawWord.2).drbgCount = s.drbgCount ∧ (s.drawWord.2).seqLeft = s.seqLeft ∧
    (s.drawWord.2).pending = s.pending :=
  ⟨rfl, rfl, rfl, rfl, rfl, rfl, rfl, rfl, rfl, rfl, rfl, rfl, rfl, rfl, rfl, rfl, rfl, rfl, rfl, rfl, rfl, rfl, rfl, rfl, rfl,
   rfl, rfl, rfl, rfl, rfl, rfl, rfl, rfl, rfl, rfl, rfl, rfl, rfl, rfl, rfl, rfl, rfl, rfl, rfl, rfl, rfl, rfl, rfl, rfl, rfl,
   rfl, rfl, rfl, rfl, rfl, rfl, rfl, rfl, rfl, rfl, rfl, rfl, rfl, rfl, rfl, rfl, rfl, rfl, rfl, rfl, rfl, rfl, rfl, rfl, rfl,
   rfl, rfl, rfl, rfl, rfl, rfl, rfl, rfl, rfl, rfl, rfl, rfl, rfl, rfl, rfl, rfl, rfl, rfl, rfl, rfl, rfl, rfl, rfl, rfl, rfl,
   rfl, rfl, rfl, rfl, rfl, rfl, rfl, rfl, rfl, rfl, rfl, rfl, rfl, rfl, rfl, rfl, rfl, rfl, rfl, rfl, rfl, rfl, rfl, rfl, rfl,
   rfl, rfl, rfl, rfl⟩

@[simp] theorem State.drawBool_fields (s : State) :
    (s.drawBool.2).regs = s.regs ∧ (s.drawBool.2).mem = s.mem ∧ (s.drawBool.2).lost = s.lost ∧ (s.drawBool.2).poison = s.poison ∧
    (s.drawBool.2).ns = s.ns ∧ (s.drawBool.2).time = s.time ∧ (s.drawBool.2).out = s.out ∧ (s.drawBool.2).latch = s.latch ∧
    (s.drawBool.2).errSec = s.errSec ∧ (s.drawBool.2).wakeReq = s.wakeReq ∧ (s.drawBool.2).threads = s.threads ∧ (s.drawBool.2).cores = s.cores ∧
    (s.drawBool.2).chans = s.chans ∧ (s.drawBool.2).unitPtr = s.unitPtr ∧ (s.drawBool.2).parBusy = s.parBusy ∧ (s.drawBool.2).polarity = s.polarity ∧
    (s.drawBool.2).pegs = s.pegs ∧ (s.drawBool.2).ports = s.ports ∧ (s.drawBool.2).rr = s.rr ∧ (s.drawBool.2).frames = s.frames ∧
    (s.drawBool.2).handles = s.handles ∧ (s.drawBool.2).arrivals = s.arrivals ∧ (s.drawBool.2).fc = s.fc ∧ (s.drawBool.2).pend = s.pend ∧
    (s.drawBool.2).actFifo = s.actFifo ∧ (s.drawBool.2).tmIn = s.tmIn ∧ (s.drawBool.2).actLists = s.actLists ∧ (s.drawBool.2).pushId = s.pushId ∧
    (s.drawBool.2).mirrorCount = s.mirrorCount ∧ (s.drawBool.2).tmFifo = s.tmFifo ∧ (s.drawBool.2).tmAux = s.tmAux ∧
    (s.drawBool.2).polAux = s.polAux ∧ (s.drawBool.2).lookups = s.lookups ∧ (s.drawBool.2).overlay = s.overlay ∧
    (s.drawBool.2).draining = s.draining ∧ (s.drawBool.2).learnSeq = s.learnSeq ∧ (s.drawBool.2).parked = s.parked ∧
    (s.drawBool.2).emFresh = s.emFresh ∧ (s.drawBool.2).emCount = s.emCount ∧ (s.drawBool.2).extTaint = s.extTaint ∧
    (s.drawBool.2).tblDiffs = s.tblDiffs ∧ (s.drawBool.2).orderSeen = s.orderSeen ∧ (s.drawBool.2).keys = s.keys ∧ (s.drawBool.2).klwCmd = s.klwCmd ∧
    (s.drawBool.2).csubs = s.csubs ∧ (s.drawBool.2).anFail = s.anFail ∧ (s.drawBool.2).portPll = s.portPll ∧ (s.drawBool.2).tsFifo = s.tsFifo ∧
    (s.drawBool.2).cue = s.cue ∧ (s.drawBool.2).peerIn = s.peerIn ∧ (s.drawBool.2).cueReads = s.cueReads ∧ (s.drawBool.2).cueTags = s.cueTags ∧
    (s.drawBool.2).winCommit = s.winCommit ∧ (s.drawBool.2).strapBalls = s.strapBalls ∧ (s.drawBool.2).funcs = s.funcs ∧ (s.drawBool.2).rrs = s.rrs ∧
    (s.drawBool.2).msixTab = s.msixTab ∧ (s.drawBool.2).msixPba = s.msixPba ∧ (s.drawBool.2).hreads = s.hreads ∧
    (s.drawBool.2).hreadCount = s.hreadCount ∧ (s.drawBool.2).entries = s.entries ∧ (s.drawBool.2).entryCount = s.entryCount ∧
    (s.drawBool.2).hwq = s.hwq ∧ (s.drawBool.2).atsCache = s.atsCache ∧ (s.drawBool.2).atsInv = s.atsInv ∧ (s.drawBool.2).doe = s.doe ∧
    (s.drawBool.2).ideSecure = s.ideSecure ∧ (s.drawBool.2).dark = s.dark ∧ (s.drawBool.2).darkDb = s.darkDb ∧
    (s.drawBool.2).logFilter = s.logFilter ∧ (s.drawBool.2).logCons = s.logCons ∧ (s.drawBool.2).ringx = s.ringx ∧ (s.drawBool.2).txJobs = s.txJobs ∧
    (s.drawBool.2).txCount = s.txCount ∧ (s.drawBool.2).txGone = s.txGone ∧ (s.drawBool.2).held = s.held ∧ (s.drawBool.2).stalled = s.stalled ∧
    (s.drawBool.2).fullerT = s.fullerT ∧ (s.drawBool.2).hostOut = s.hostOut ∧ (s.drawBool.2).uc = s.uc ∧ (s.drawBool.2).ucScratch = s.ucScratch ∧
    (s.drawBool.2).ucLast = s.ucLast ∧ (s.drawBool.2).ucPatch = s.ucPatch ∧ (s.drawBool.2).ucBad = s.ucBad ∧ (s.drawBool.2).ucRegime = s.ucRegime ∧
    (s.drawBool.2).patchJob = s.patchJob ∧ (s.drawBool.2).ucDoorbells = s.ucDoorbells ∧ (s.drawBool.2).genCount = s.genCount ∧
    (s.drawBool.2).capoOff = s.capoOff ∧ (s.drawBool.2).ccReset = s.ccReset ∧ (s.drawBool.2).stoCmds = s.stoCmds ∧
    (s.drawBool.2).stoCount = s.stoCount ∧ (s.drawBool.2).connx = s.connx ∧ (s.drawBool.2).bow = s.bow ∧ (s.drawBool.2).bowPtr = s.bowPtr ∧
    (s.drawBool.2).icuHold = s.icuHold ∧ (s.drawBool.2).icuStack = s.icuStack ∧ (s.drawBool.2).pwrTarget = s.pwrTarget ∧
    (s.drawBool.2).pwrByReq = s.pwrByReq ∧ (s.drawBool.2).pwrRev = s.pwrRev ∧ (s.drawBool.2).pwrNs = s.pwrNs ∧ (s.drawBool.2).pwrSince = s.pwrSince ∧
    (s.drawBool.2).clkBase = s.clkBase ∧ (s.drawBool.2).pwrSelfRef = s.pwrSelfRef ∧ (s.drawBool.2).vddCore = s.vddCore ∧
    (s.drawBool.2).hold = s.hold ∧ (s.drawBool.2).resetNs = s.resetNs ∧ (s.drawBool.2).bootNs = s.bootNs ∧ (s.drawBool.2).warm = s.warm ∧
    (s.drawBool.2).warmSp = s.warmSp ∧ (s.drawBool.2).warmFlr = s.warmFlr ∧ (s.drawBool.2).diceKeys = s.diceKeys ∧
    (s.drawBool.2).diceSealed = s.diceSealed ∧ (s.drawBool.2).diceD = s.diceD ∧ (s.drawBool.2).diceSvn = s.diceSvn ∧
    (s.drawBool.2).diceSlot = s.diceSlot ∧ (s.drawBool.2).diceDebug = s.diceDebug ∧ (s.drawBool.2).measPatch = s.measPatch ∧
    (s.drawBool.2).tid = s.tid ∧ (s.drawBool.2).spdmBox = s.spdmBox ∧ (s.drawBool.2).wdogNs = s.wdogNs ∧ (s.drawBool.2).wdogHeld = s.wdogHeld ∧
    (s.drawBool.2).chalValid = s.chalValid ∧ (s.drawBool.2).jtagIr = s.jtagIr ∧ (s.drawBool.2).rngDead = s.rngDead ∧
    (s.drawBool.2).spTestFail = s.spTestFail ∧ (s.drawBool.2).drbgCount = s.drbgCount ∧ (s.drawBool.2).seqLeft = s.seqLeft ∧
    (s.drawBool.2).pending = s.pending :=
  ⟨rfl, rfl, rfl, rfl, rfl, rfl, rfl, rfl, rfl, rfl, rfl, rfl, rfl, rfl, rfl, rfl, rfl, rfl, rfl, rfl, rfl, rfl, rfl, rfl, rfl,
   rfl, rfl, rfl, rfl, rfl, rfl, rfl, rfl, rfl, rfl, rfl, rfl, rfl, rfl, rfl, rfl, rfl, rfl, rfl, rfl, rfl, rfl, rfl, rfl, rfl,
   rfl, rfl, rfl, rfl, rfl, rfl, rfl, rfl, rfl, rfl, rfl, rfl, rfl, rfl, rfl, rfl, rfl, rfl, rfl, rfl, rfl, rfl, rfl, rfl, rfl,
   rfl, rfl, rfl, rfl, rfl, rfl, rfl, rfl, rfl, rfl, rfl, rfl, rfl, rfl, rfl, rfl, rfl, rfl, rfl, rfl, rfl, rfl, rfl, rfl, rfl,
   rfl, rfl, rfl, rfl, rfl, rfl, rfl, rfl, rfl, rfl, rfl, rfl, rfl, rfl, rfl, rfl, rfl, rfl, rfl, rfl, rfl, rfl, rfl, rfl, rfl,
   rfl, rfl, rfl, rfl⟩

@[simp] theorem State.drawNat_fields (s : State) :
    (s.drawNat.2).regs = s.regs ∧ (s.drawNat.2).mem = s.mem ∧ (s.drawNat.2).lost = s.lost ∧ (s.drawNat.2).poison = s.poison ∧
    (s.drawNat.2).ns = s.ns ∧ (s.drawNat.2).time = s.time ∧ (s.drawNat.2).out = s.out ∧ (s.drawNat.2).latch = s.latch ∧
    (s.drawNat.2).errSec = s.errSec ∧ (s.drawNat.2).wakeReq = s.wakeReq ∧ (s.drawNat.2).threads = s.threads ∧ (s.drawNat.2).cores = s.cores ∧
    (s.drawNat.2).chans = s.chans ∧ (s.drawNat.2).unitPtr = s.unitPtr ∧ (s.drawNat.2).parBusy = s.parBusy ∧ (s.drawNat.2).polarity = s.polarity ∧
    (s.drawNat.2).pegs = s.pegs ∧ (s.drawNat.2).ports = s.ports ∧ (s.drawNat.2).rr = s.rr ∧ (s.drawNat.2).frames = s.frames ∧
    (s.drawNat.2).handles = s.handles ∧ (s.drawNat.2).arrivals = s.arrivals ∧ (s.drawNat.2).fc = s.fc ∧ (s.drawNat.2).pend = s.pend ∧
    (s.drawNat.2).actFifo = s.actFifo ∧ (s.drawNat.2).tmIn = s.tmIn ∧ (s.drawNat.2).actLists = s.actLists ∧ (s.drawNat.2).pushId = s.pushId ∧
    (s.drawNat.2).mirrorCount = s.mirrorCount ∧ (s.drawNat.2).tmFifo = s.tmFifo ∧ (s.drawNat.2).tmAux = s.tmAux ∧ (s.drawNat.2).polAux = s.polAux ∧
    (s.drawNat.2).lookups = s.lookups ∧ (s.drawNat.2).overlay = s.overlay ∧ (s.drawNat.2).draining = s.draining ∧
    (s.drawNat.2).learnSeq = s.learnSeq ∧ (s.drawNat.2).parked = s.parked ∧ (s.drawNat.2).emFresh = s.emFresh ∧ (s.drawNat.2).emCount = s.emCount ∧
    (s.drawNat.2).extTaint = s.extTaint ∧ (s.drawNat.2).tblDiffs = s.tblDiffs ∧ (s.drawNat.2).orderSeen = s.orderSeen ∧ (s.drawNat.2).keys = s.keys ∧
    (s.drawNat.2).klwCmd = s.klwCmd ∧ (s.drawNat.2).csubs = s.csubs ∧ (s.drawNat.2).anFail = s.anFail ∧ (s.drawNat.2).portPll = s.portPll ∧
    (s.drawNat.2).tsFifo = s.tsFifo ∧ (s.drawNat.2).cue = s.cue ∧ (s.drawNat.2).peerIn = s.peerIn ∧ (s.drawNat.2).cueReads = s.cueReads ∧
    (s.drawNat.2).cueTags = s.cueTags ∧ (s.drawNat.2).winCommit = s.winCommit ∧ (s.drawNat.2).strapBalls = s.strapBalls ∧
    (s.drawNat.2).funcs = s.funcs ∧ (s.drawNat.2).rrs = s.rrs ∧ (s.drawNat.2).msixTab = s.msixTab ∧ (s.drawNat.2).msixPba = s.msixPba ∧
    (s.drawNat.2).hreads = s.hreads ∧ (s.drawNat.2).hreadCount = s.hreadCount ∧ (s.drawNat.2).entries = s.entries ∧
    (s.drawNat.2).entryCount = s.entryCount ∧ (s.drawNat.2).hwq = s.hwq ∧ (s.drawNat.2).atsCache = s.atsCache ∧ (s.drawNat.2).atsInv = s.atsInv ∧
    (s.drawNat.2).doe = s.doe ∧ (s.drawNat.2).ideSecure = s.ideSecure ∧ (s.drawNat.2).dark = s.dark ∧ (s.drawNat.2).darkDb = s.darkDb ∧
    (s.drawNat.2).logFilter = s.logFilter ∧ (s.drawNat.2).logCons = s.logCons ∧ (s.drawNat.2).ringx = s.ringx ∧ (s.drawNat.2).txJobs = s.txJobs ∧
    (s.drawNat.2).txCount = s.txCount ∧ (s.drawNat.2).txGone = s.txGone ∧ (s.drawNat.2).held = s.held ∧ (s.drawNat.2).stalled = s.stalled ∧
    (s.drawNat.2).fullerT = s.fullerT ∧ (s.drawNat.2).hostOut = s.hostOut ∧ (s.drawNat.2).uc = s.uc ∧ (s.drawNat.2).ucScratch = s.ucScratch ∧
    (s.drawNat.2).ucLast = s.ucLast ∧ (s.drawNat.2).ucPatch = s.ucPatch ∧ (s.drawNat.2).ucBad = s.ucBad ∧ (s.drawNat.2).ucRegime = s.ucRegime ∧
    (s.drawNat.2).patchJob = s.patchJob ∧ (s.drawNat.2).ucDoorbells = s.ucDoorbells ∧ (s.drawNat.2).genCount = s.genCount ∧
    (s.drawNat.2).capoOff = s.capoOff ∧ (s.drawNat.2).ccReset = s.ccReset ∧ (s.drawNat.2).stoCmds = s.stoCmds ∧ (s.drawNat.2).stoCount = s.stoCount ∧
    (s.drawNat.2).connx = s.connx ∧ (s.drawNat.2).bow = s.bow ∧ (s.drawNat.2).bowPtr = s.bowPtr ∧ (s.drawNat.2).icuHold = s.icuHold ∧
    (s.drawNat.2).icuStack = s.icuStack ∧ (s.drawNat.2).pwrTarget = s.pwrTarget ∧ (s.drawNat.2).pwrByReq = s.pwrByReq ∧
    (s.drawNat.2).pwrRev = s.pwrRev ∧ (s.drawNat.2).pwrNs = s.pwrNs ∧ (s.drawNat.2).pwrSince = s.pwrSince ∧ (s.drawNat.2).clkBase = s.clkBase ∧
    (s.drawNat.2).pwrSelfRef = s.pwrSelfRef ∧ (s.drawNat.2).vddCore = s.vddCore ∧ (s.drawNat.2).hold = s.hold ∧ (s.drawNat.2).resetNs = s.resetNs ∧
    (s.drawNat.2).bootNs = s.bootNs ∧ (s.drawNat.2).warm = s.warm ∧ (s.drawNat.2).warmSp = s.warmSp ∧ (s.drawNat.2).warmFlr = s.warmFlr ∧
    (s.drawNat.2).diceKeys = s.diceKeys ∧ (s.drawNat.2).diceSealed = s.diceSealed ∧ (s.drawNat.2).diceD = s.diceD ∧
    (s.drawNat.2).diceSvn = s.diceSvn ∧ (s.drawNat.2).diceSlot = s.diceSlot ∧ (s.drawNat.2).diceDebug = s.diceDebug ∧
    (s.drawNat.2).measPatch = s.measPatch ∧ (s.drawNat.2).tid = s.tid ∧ (s.drawNat.2).spdmBox = s.spdmBox ∧ (s.drawNat.2).wdogNs = s.wdogNs ∧
    (s.drawNat.2).wdogHeld = s.wdogHeld ∧ (s.drawNat.2).chalValid = s.chalValid ∧ (s.drawNat.2).jtagIr = s.jtagIr ∧
    (s.drawNat.2).rngDead = s.rngDead ∧ (s.drawNat.2).spTestFail = s.spTestFail ∧ (s.drawNat.2).drbgCount = s.drbgCount ∧
    (s.drawNat.2).seqLeft = s.seqLeft ∧ (s.drawNat.2).pending = s.pending :=
  ⟨rfl, rfl, rfl, rfl, rfl, rfl, rfl, rfl, rfl, rfl, rfl, rfl, rfl, rfl, rfl, rfl, rfl, rfl, rfl, rfl, rfl, rfl, rfl, rfl, rfl,
   rfl, rfl, rfl, rfl, rfl, rfl, rfl, rfl, rfl, rfl, rfl, rfl, rfl, rfl, rfl, rfl, rfl, rfl, rfl, rfl, rfl, rfl, rfl, rfl, rfl,
   rfl, rfl, rfl, rfl, rfl, rfl, rfl, rfl, rfl, rfl, rfl, rfl, rfl, rfl, rfl, rfl, rfl, rfl, rfl, rfl, rfl, rfl, rfl, rfl, rfl,
   rfl, rfl, rfl, rfl, rfl, rfl, rfl, rfl, rfl, rfl, rfl, rfl, rfl, rfl, rfl, rfl, rfl, rfl, rfl, rfl, rfl, rfl, rfl, rfl, rfl,
   rfl, rfl, rfl, rfl, rfl, rfl, rfl, rfl, rfl, rfl, rfl, rfl, rfl, rfl, rfl, rfl, rfl, rfl, rfl, rfl, rfl, rfl, rfl, rfl, rfl,
   rfl, rfl, rfl, rfl⟩

@[simp] theorem State.irq_fields (s : State) (src : Nat) :
    (s.irq src).regs = s.regs ∧ (s.irq src).mem = s.mem ∧ (s.irq src).lost = s.lost ∧ (s.irq src).poison = s.poison ∧ (s.irq src).ns = s.ns ∧
    (s.irq src).time = s.time ∧ (s.irq src).free = s.free ∧ (s.irq src).out = s.out ∧ (s.irq src).errSec = s.errSec ∧
    (s.irq src).wakeReq = s.wakeReq ∧ (s.irq src).threads = s.threads ∧ (s.irq src).cores = s.cores ∧ (s.irq src).chans = s.chans ∧
    (s.irq src).unitPtr = s.unitPtr ∧ (s.irq src).parBusy = s.parBusy ∧ (s.irq src).polarity = s.polarity ∧ (s.irq src).pegs = s.pegs ∧
    (s.irq src).ports = s.ports ∧ (s.irq src).rr = s.rr ∧ (s.irq src).frames = s.frames ∧ (s.irq src).handles = s.handles ∧
    (s.irq src).arrivals = s.arrivals ∧ (s.irq src).fc = s.fc ∧ (s.irq src).pend = s.pend ∧ (s.irq src).actFifo = s.actFifo ∧
    (s.irq src).tmIn = s.tmIn ∧ (s.irq src).actLists = s.actLists ∧ (s.irq src).pushId = s.pushId ∧ (s.irq src).mirrorCount = s.mirrorCount ∧
    (s.irq src).tmFifo = s.tmFifo ∧ (s.irq src).tmAux = s.tmAux ∧ (s.irq src).polAux = s.polAux ∧ (s.irq src).lookups = s.lookups ∧
    (s.irq src).overlay = s.overlay ∧ (s.irq src).draining = s.draining ∧ (s.irq src).learnSeq = s.learnSeq ∧ (s.irq src).parked = s.parked ∧
    (s.irq src).emFresh = s.emFresh ∧ (s.irq src).emCount = s.emCount ∧ (s.irq src).extTaint = s.extTaint ∧ (s.irq src).tblDiffs = s.tblDiffs ∧
    (s.irq src).orderSeen = s.orderSeen ∧ (s.irq src).keys = s.keys ∧ (s.irq src).klwCmd = s.klwCmd ∧ (s.irq src).csubs = s.csubs ∧
    (s.irq src).anFail = s.anFail ∧ (s.irq src).portPll = s.portPll ∧ (s.irq src).tsFifo = s.tsFifo ∧ (s.irq src).cue = s.cue ∧
    (s.irq src).peerIn = s.peerIn ∧ (s.irq src).cueReads = s.cueReads ∧ (s.irq src).cueTags = s.cueTags ∧ (s.irq src).winCommit = s.winCommit ∧
    (s.irq src).strapBalls = s.strapBalls ∧ (s.irq src).funcs = s.funcs ∧ (s.irq src).rrs = s.rrs ∧ (s.irq src).msixTab = s.msixTab ∧
    (s.irq src).msixPba = s.msixPba ∧ (s.irq src).hreads = s.hreads ∧ (s.irq src).hreadCount = s.hreadCount ∧ (s.irq src).entries = s.entries ∧
    (s.irq src).entryCount = s.entryCount ∧ (s.irq src).hwq = s.hwq ∧ (s.irq src).atsCache = s.atsCache ∧ (s.irq src).atsInv = s.atsInv ∧
    (s.irq src).doe = s.doe ∧ (s.irq src).ideSecure = s.ideSecure ∧ (s.irq src).dark = s.dark ∧ (s.irq src).darkDb = s.darkDb ∧
    (s.irq src).logFilter = s.logFilter ∧ (s.irq src).logCons = s.logCons ∧ (s.irq src).ringx = s.ringx ∧ (s.irq src).txJobs = s.txJobs ∧
    (s.irq src).txCount = s.txCount ∧ (s.irq src).txGone = s.txGone ∧ (s.irq src).held = s.held ∧ (s.irq src).stalled = s.stalled ∧
    (s.irq src).fullerT = s.fullerT ∧ (s.irq src).hostOut = s.hostOut ∧ (s.irq src).uc = s.uc ∧ (s.irq src).ucScratch = s.ucScratch ∧
    (s.irq src).ucLast = s.ucLast ∧ (s.irq src).ucPatch = s.ucPatch ∧ (s.irq src).ucBad = s.ucBad ∧ (s.irq src).ucRegime = s.ucRegime ∧
    (s.irq src).patchJob = s.patchJob ∧ (s.irq src).ucDoorbells = s.ucDoorbells ∧ (s.irq src).genCount = s.genCount ∧
    (s.irq src).capoOff = s.capoOff ∧ (s.irq src).ccReset = s.ccReset ∧ (s.irq src).stoCmds = s.stoCmds ∧ (s.irq src).stoCount = s.stoCount ∧
    (s.irq src).connx = s.connx ∧ (s.irq src).bow = s.bow ∧ (s.irq src).bowPtr = s.bowPtr ∧ (s.irq src).icuHold = s.icuHold ∧
    (s.irq src).icuStack = s.icuStack ∧ (s.irq src).pwrTarget = s.pwrTarget ∧ (s.irq src).pwrByReq = s.pwrByReq ∧ (s.irq src).pwrRev = s.pwrRev ∧
    (s.irq src).pwrNs = s.pwrNs ∧ (s.irq src).pwrSince = s.pwrSince ∧ (s.irq src).clkBase = s.clkBase ∧ (s.irq src).pwrSelfRef = s.pwrSelfRef ∧
    (s.irq src).vddCore = s.vddCore ∧ (s.irq src).hold = s.hold ∧ (s.irq src).resetNs = s.resetNs ∧ (s.irq src).bootNs = s.bootNs ∧
    (s.irq src).warm = s.warm ∧ (s.irq src).warmSp = s.warmSp ∧ (s.irq src).warmFlr = s.warmFlr ∧ (s.irq src).diceKeys = s.diceKeys ∧
    (s.irq src).diceSealed = s.diceSealed ∧ (s.irq src).diceD = s.diceD ∧ (s.irq src).diceSvn = s.diceSvn ∧ (s.irq src).diceSlot = s.diceSlot ∧
    (s.irq src).diceDebug = s.diceDebug ∧ (s.irq src).measPatch = s.measPatch ∧ (s.irq src).tid = s.tid ∧ (s.irq src).spdmBox = s.spdmBox ∧
    (s.irq src).wdogNs = s.wdogNs ∧ (s.irq src).wdogHeld = s.wdogHeld ∧ (s.irq src).chalValid = s.chalValid ∧ (s.irq src).jtagIr = s.jtagIr ∧
    (s.irq src).rngDead = s.rngDead ∧ (s.irq src).spTestFail = s.spTestFail ∧ (s.irq src).drbgCount = s.drbgCount ∧ (s.irq src).seqLeft = s.seqLeft ∧
    (s.irq src).pending = s.pending :=
  ⟨rfl, rfl, rfl, rfl, rfl, rfl, rfl, rfl, rfl, rfl, rfl, rfl, rfl, rfl, rfl, rfl, rfl, rfl, rfl, rfl, rfl, rfl, rfl, rfl, rfl,
   rfl, rfl, rfl, rfl, rfl, rfl, rfl, rfl, rfl, rfl, rfl, rfl, rfl, rfl, rfl, rfl, rfl, rfl, rfl, rfl, rfl, rfl, rfl, rfl, rfl,
   rfl, rfl, rfl, rfl, rfl, rfl, rfl, rfl, rfl, rfl, rfl, rfl, rfl, rfl, rfl, rfl, rfl, rfl, rfl, rfl, rfl, rfl, rfl, rfl, rfl,
   rfl, rfl, rfl, rfl, rfl, rfl, rfl, rfl, rfl, rfl, rfl, rfl, rfl, rfl, rfl, rfl, rfl, rfl, rfl, rfl, rfl, rfl, rfl, rfl, rfl,
   rfl, rfl, rfl, rfl, rfl, rfl, rfl, rfl, rfl, rfl, rfl, rfl, rfl, rfl, rfl, rfl, rfl, rfl, rfl, rfl, rfl, rfl, rfl, rfl, rfl,
   rfl, rfl, rfl, rfl⟩

@[simp] theorem State.emit_fields (s : State) (e : Event) :
    (s.emit e).regs = s.regs ∧ (s.emit e).mem = s.mem ∧ (s.emit e).lost = s.lost ∧ (s.emit e).poison = s.poison ∧ (s.emit e).ns = s.ns ∧
    (s.emit e).time = s.time ∧ (s.emit e).free = s.free ∧ (s.emit e).latch = s.latch ∧ (s.emit e).errSec = s.errSec ∧ (s.emit e).wakeReq = s.wakeReq ∧
    (s.emit e).threads = s.threads ∧ (s.emit e).cores = s.cores ∧ (s.emit e).chans = s.chans ∧ (s.emit e).unitPtr = s.unitPtr ∧
    (s.emit e).parBusy = s.parBusy ∧ (s.emit e).polarity = s.polarity ∧ (s.emit e).pegs = s.pegs ∧ (s.emit e).ports = s.ports ∧ (s.emit e).rr = s.rr ∧
    (s.emit e).frames = s.frames ∧ (s.emit e).handles = s.handles ∧ (s.emit e).arrivals = s.arrivals ∧ (s.emit e).fc = s.fc ∧
    (s.emit e).pend = s.pend ∧ (s.emit e).actFifo = s.actFifo ∧ (s.emit e).tmIn = s.tmIn ∧ (s.emit e).actLists = s.actLists ∧
    (s.emit e).pushId = s.pushId ∧ (s.emit e).mirrorCount = s.mirrorCount ∧ (s.emit e).tmFifo = s.tmFifo ∧ (s.emit e).tmAux = s.tmAux ∧
    (s.emit e).polAux = s.polAux ∧ (s.emit e).lookups = s.lookups ∧ (s.emit e).overlay = s.overlay ∧ (s.emit e).draining = s.draining ∧
    (s.emit e).learnSeq = s.learnSeq ∧ (s.emit e).parked = s.parked ∧ (s.emit e).emFresh = s.emFresh ∧ (s.emit e).emCount = s.emCount ∧
    (s.emit e).extTaint = s.extTaint ∧ (s.emit e).tblDiffs = s.tblDiffs ∧ (s.emit e).orderSeen = s.orderSeen ∧ (s.emit e).keys = s.keys ∧
    (s.emit e).klwCmd = s.klwCmd ∧ (s.emit e).csubs = s.csubs ∧ (s.emit e).anFail = s.anFail ∧ (s.emit e).portPll = s.portPll ∧
    (s.emit e).tsFifo = s.tsFifo ∧ (s.emit e).cue = s.cue ∧ (s.emit e).peerIn = s.peerIn ∧ (s.emit e).cueReads = s.cueReads ∧
    (s.emit e).cueTags = s.cueTags ∧ (s.emit e).winCommit = s.winCommit ∧ (s.emit e).strapBalls = s.strapBalls ∧ (s.emit e).funcs = s.funcs ∧
    (s.emit e).rrs = s.rrs ∧ (s.emit e).msixTab = s.msixTab ∧ (s.emit e).msixPba = s.msixPba ∧ (s.emit e).hreads = s.hreads ∧
    (s.emit e).hreadCount = s.hreadCount ∧ (s.emit e).entries = s.entries ∧ (s.emit e).entryCount = s.entryCount ∧ (s.emit e).hwq = s.hwq ∧
    (s.emit e).atsCache = s.atsCache ∧ (s.emit e).atsInv = s.atsInv ∧ (s.emit e).doe = s.doe ∧ (s.emit e).ideSecure = s.ideSecure ∧
    (s.emit e).dark = s.dark ∧ (s.emit e).darkDb = s.darkDb ∧ (s.emit e).logFilter = s.logFilter ∧ (s.emit e).logCons = s.logCons ∧
    (s.emit e).ringx = s.ringx ∧ (s.emit e).txJobs = s.txJobs ∧ (s.emit e).txCount = s.txCount ∧ (s.emit e).txGone = s.txGone ∧
    (s.emit e).held = s.held ∧ (s.emit e).stalled = s.stalled ∧ (s.emit e).fullerT = s.fullerT ∧ (s.emit e).hostOut = s.hostOut ∧
    (s.emit e).uc = s.uc ∧ (s.emit e).ucScratch = s.ucScratch ∧ (s.emit e).ucLast = s.ucLast ∧ (s.emit e).ucPatch = s.ucPatch ∧
    (s.emit e).ucBad = s.ucBad ∧ (s.emit e).ucRegime = s.ucRegime ∧ (s.emit e).patchJob = s.patchJob ∧ (s.emit e).ucDoorbells = s.ucDoorbells ∧
    (s.emit e).genCount = s.genCount ∧ (s.emit e).capoOff = s.capoOff ∧ (s.emit e).ccReset = s.ccReset ∧ (s.emit e).stoCmds = s.stoCmds ∧
    (s.emit e).stoCount = s.stoCount ∧ (s.emit e).connx = s.connx ∧ (s.emit e).bow = s.bow ∧ (s.emit e).bowPtr = s.bowPtr ∧
    (s.emit e).icuHold = s.icuHold ∧ (s.emit e).icuStack = s.icuStack ∧ (s.emit e).pwrTarget = s.pwrTarget ∧ (s.emit e).pwrByReq = s.pwrByReq ∧
    (s.emit e).pwrRev = s.pwrRev ∧ (s.emit e).pwrNs = s.pwrNs ∧ (s.emit e).pwrSince = s.pwrSince ∧ (s.emit e).clkBase = s.clkBase ∧
    (s.emit e).pwrSelfRef = s.pwrSelfRef ∧ (s.emit e).vddCore = s.vddCore ∧ (s.emit e).hold = s.hold ∧ (s.emit e).resetNs = s.resetNs ∧
    (s.emit e).bootNs = s.bootNs ∧ (s.emit e).warm = s.warm ∧ (s.emit e).warmSp = s.warmSp ∧ (s.emit e).warmFlr = s.warmFlr ∧
    (s.emit e).diceKeys = s.diceKeys ∧ (s.emit e).diceSealed = s.diceSealed ∧ (s.emit e).diceD = s.diceD ∧ (s.emit e).diceSvn = s.diceSvn ∧
    (s.emit e).diceSlot = s.diceSlot ∧ (s.emit e).diceDebug = s.diceDebug ∧ (s.emit e).measPatch = s.measPatch ∧ (s.emit e).tid = s.tid ∧
    (s.emit e).spdmBox = s.spdmBox ∧ (s.emit e).wdogNs = s.wdogNs ∧ (s.emit e).wdogHeld = s.wdogHeld ∧ (s.emit e).chalValid = s.chalValid ∧
    (s.emit e).jtagIr = s.jtagIr ∧ (s.emit e).rngDead = s.rngDead ∧ (s.emit e).spTestFail = s.spTestFail ∧ (s.emit e).drbgCount = s.drbgCount ∧
    (s.emit e).seqLeft = s.seqLeft ∧ (s.emit e).pending = s.pending :=
  ⟨rfl, rfl, rfl, rfl, rfl, rfl, rfl, rfl, rfl, rfl, rfl, rfl, rfl, rfl, rfl, rfl, rfl, rfl, rfl, rfl, rfl, rfl, rfl, rfl, rfl,
   rfl, rfl, rfl, rfl, rfl, rfl, rfl, rfl, rfl, rfl, rfl, rfl, rfl, rfl, rfl, rfl, rfl, rfl, rfl, rfl, rfl, rfl, rfl, rfl, rfl,
   rfl, rfl, rfl, rfl, rfl, rfl, rfl, rfl, rfl, rfl, rfl, rfl, rfl, rfl, rfl, rfl, rfl, rfl, rfl, rfl, rfl, rfl, rfl, rfl, rfl,
   rfl, rfl, rfl, rfl, rfl, rfl, rfl, rfl, rfl, rfl, rfl, rfl, rfl, rfl, rfl, rfl, rfl, rfl, rfl, rfl, rfl, rfl, rfl, rfl, rfl,
   rfl, rfl, rfl, rfl, rfl, rfl, rfl, rfl, rfl, rfl, rfl, rfl, rfl, rfl, rfl, rfl, rfl, rfl, rfl, rfl, rfl, rfl, rfl, rfl, rfl,
   rfl, rfl, rfl, rfl⟩

@[simp] theorem State.requestWake_fields (s : State) (d : Nat) :
    (s.requestWake d).regs = s.regs ∧ (s.requestWake d).mem = s.mem ∧ (s.requestWake d).lost = s.lost ∧ (s.requestWake d).poison = s.poison ∧
    (s.requestWake d).ns = s.ns ∧ (s.requestWake d).time = s.time ∧ (s.requestWake d).free = s.free ∧ (s.requestWake d).out = s.out ∧
    (s.requestWake d).latch = s.latch ∧ (s.requestWake d).errSec = s.errSec ∧ (s.requestWake d).threads = s.threads ∧
    (s.requestWake d).cores = s.cores ∧ (s.requestWake d).chans = s.chans ∧ (s.requestWake d).unitPtr = s.unitPtr ∧
    (s.requestWake d).parBusy = s.parBusy ∧ (s.requestWake d).polarity = s.polarity ∧ (s.requestWake d).pegs = s.pegs ∧
    (s.requestWake d).ports = s.ports ∧ (s.requestWake d).rr = s.rr ∧ (s.requestWake d).frames = s.frames ∧ (s.requestWake d).handles = s.handles ∧
    (s.requestWake d).arrivals = s.arrivals ∧ (s.requestWake d).fc = s.fc ∧ (s.requestWake d).pend = s.pend ∧ (s.requestWake d).actFifo = s.actFifo ∧
    (s.requestWake d).tmIn = s.tmIn ∧ (s.requestWake d).actLists = s.actLists ∧ (s.requestWake d).pushId = s.pushId ∧
    (s.requestWake d).mirrorCount = s.mirrorCount ∧ (s.requestWake d).tmFifo = s.tmFifo ∧ (s.requestWake d).tmAux = s.tmAux ∧
    (s.requestWake d).polAux = s.polAux ∧ (s.requestWake d).lookups = s.lookups ∧ (s.requestWake d).overlay = s.overlay ∧
    (s.requestWake d).draining = s.draining ∧ (s.requestWake d).learnSeq = s.learnSeq ∧ (s.requestWake d).parked = s.parked ∧
    (s.requestWake d).emFresh = s.emFresh ∧ (s.requestWake d).emCount = s.emCount ∧ (s.requestWake d).extTaint = s.extTaint ∧
    (s.requestWake d).tblDiffs = s.tblDiffs ∧ (s.requestWake d).orderSeen = s.orderSeen ∧ (s.requestWake d).keys = s.keys ∧
    (s.requestWake d).klwCmd = s.klwCmd ∧ (s.requestWake d).csubs = s.csubs ∧ (s.requestWake d).anFail = s.anFail ∧
    (s.requestWake d).portPll = s.portPll ∧ (s.requestWake d).tsFifo = s.tsFifo ∧ (s.requestWake d).cue = s.cue ∧
    (s.requestWake d).peerIn = s.peerIn ∧ (s.requestWake d).cueReads = s.cueReads ∧ (s.requestWake d).cueTags = s.cueTags ∧
    (s.requestWake d).winCommit = s.winCommit ∧ (s.requestWake d).strapBalls = s.strapBalls ∧ (s.requestWake d).funcs = s.funcs ∧
    (s.requestWake d).rrs = s.rrs ∧ (s.requestWake d).msixTab = s.msixTab ∧ (s.requestWake d).msixPba = s.msixPba ∧
    (s.requestWake d).hreads = s.hreads ∧ (s.requestWake d).hreadCount = s.hreadCount ∧ (s.requestWake d).entries = s.entries ∧
    (s.requestWake d).entryCount = s.entryCount ∧ (s.requestWake d).hwq = s.hwq ∧ (s.requestWake d).atsCache = s.atsCache ∧
    (s.requestWake d).atsInv = s.atsInv ∧ (s.requestWake d).doe = s.doe ∧ (s.requestWake d).ideSecure = s.ideSecure ∧
    (s.requestWake d).dark = s.dark ∧ (s.requestWake d).darkDb = s.darkDb ∧ (s.requestWake d).logFilter = s.logFilter ∧
    (s.requestWake d).logCons = s.logCons ∧ (s.requestWake d).ringx = s.ringx ∧ (s.requestWake d).txJobs = s.txJobs ∧
    (s.requestWake d).txCount = s.txCount ∧ (s.requestWake d).txGone = s.txGone ∧ (s.requestWake d).held = s.held ∧
    (s.requestWake d).stalled = s.stalled ∧ (s.requestWake d).fullerT = s.fullerT ∧ (s.requestWake d).hostOut = s.hostOut ∧
    (s.requestWake d).uc = s.uc ∧ (s.requestWake d).ucScratch = s.ucScratch ∧ (s.requestWake d).ucLast = s.ucLast ∧
    (s.requestWake d).ucPatch = s.ucPatch ∧ (s.requestWake d).ucBad = s.ucBad ∧ (s.requestWake d).ucRegime = s.ucRegime ∧
    (s.requestWake d).patchJob = s.patchJob ∧ (s.requestWake d).ucDoorbells = s.ucDoorbells ∧ (s.requestWake d).genCount = s.genCount ∧
    (s.requestWake d).capoOff = s.capoOff ∧ (s.requestWake d).ccReset = s.ccReset ∧ (s.requestWake d).stoCmds = s.stoCmds ∧
    (s.requestWake d).stoCount = s.stoCount ∧ (s.requestWake d).connx = s.connx ∧ (s.requestWake d).bow = s.bow ∧
    (s.requestWake d).bowPtr = s.bowPtr ∧ (s.requestWake d).icuHold = s.icuHold ∧ (s.requestWake d).icuStack = s.icuStack ∧
    (s.requestWake d).pwrTarget = s.pwrTarget ∧ (s.requestWake d).pwrByReq = s.pwrByReq ∧ (s.requestWake d).pwrRev = s.pwrRev ∧
    (s.requestWake d).pwrNs = s.pwrNs ∧ (s.requestWake d).pwrSince = s.pwrSince ∧ (s.requestWake d).clkBase = s.clkBase ∧
    (s.requestWake d).pwrSelfRef = s.pwrSelfRef ∧ (s.requestWake d).vddCore = s.vddCore ∧ (s.requestWake d).hold = s.hold ∧
    (s.requestWake d).resetNs = s.resetNs ∧ (s.requestWake d).bootNs = s.bootNs ∧ (s.requestWake d).warm = s.warm ∧
    (s.requestWake d).warmSp = s.warmSp ∧ (s.requestWake d).warmFlr = s.warmFlr ∧ (s.requestWake d).diceKeys = s.diceKeys ∧
    (s.requestWake d).diceSealed = s.diceSealed ∧ (s.requestWake d).diceD = s.diceD ∧ (s.requestWake d).diceSvn = s.diceSvn ∧
    (s.requestWake d).diceSlot = s.diceSlot ∧ (s.requestWake d).diceDebug = s.diceDebug ∧ (s.requestWake d).measPatch = s.measPatch ∧
    (s.requestWake d).tid = s.tid ∧ (s.requestWake d).spdmBox = s.spdmBox ∧ (s.requestWake d).wdogNs = s.wdogNs ∧
    (s.requestWake d).wdogHeld = s.wdogHeld ∧ (s.requestWake d).chalValid = s.chalValid ∧ (s.requestWake d).jtagIr = s.jtagIr ∧
    (s.requestWake d).rngDead = s.rngDead ∧ (s.requestWake d).spTestFail = s.spTestFail ∧ (s.requestWake d).drbgCount = s.drbgCount ∧
    (s.requestWake d).seqLeft = s.seqLeft ∧ (s.requestWake d).pending = s.pending :=
  ⟨rfl, rfl, rfl, rfl, rfl, rfl, rfl, rfl, rfl, rfl, rfl, rfl, rfl, rfl, rfl, rfl, rfl, rfl, rfl, rfl, rfl, rfl, rfl, rfl, rfl,
   rfl, rfl, rfl, rfl, rfl, rfl, rfl, rfl, rfl, rfl, rfl, rfl, rfl, rfl, rfl, rfl, rfl, rfl, rfl, rfl, rfl, rfl, rfl, rfl, rfl,
   rfl, rfl, rfl, rfl, rfl, rfl, rfl, rfl, rfl, rfl, rfl, rfl, rfl, rfl, rfl, rfl, rfl, rfl, rfl, rfl, rfl, rfl, rfl, rfl, rfl,
   rfl, rfl, rfl, rfl, rfl, rfl, rfl, rfl, rfl, rfl, rfl, rfl, rfl, rfl, rfl, rfl, rfl, rfl, rfl, rfl, rfl, rfl, rfl, rfl, rfl,
   rfl, rfl, rfl, rfl, rfl, rfl, rfl, rfl, rfl, rfl, rfl, rfl, rfl, rfl, rfl, rfl, rfl, rfl, rfl, rfl, rfl, rfl, rfl, rfl, rfl,
   rfl, rfl, rfl, rfl⟩

theorem State.crashPut_eq (s : State) (k u c : Nat) (a b : Word) :
    s.crashPut k u c a b = { s with regs := (s.crashPut k u c a b).regs } := by
  unfold State.crashPut; dsimp only; split <;> rfl

@[simp] theorem State.crashPut_fields (s : State) (k u c : Nat) (a b : Word) :
    (s.crashPut k u c a b).mem = s.mem ∧ (s.crashPut k u c a b).lost = s.lost ∧ (s.crashPut k u c a b).poison = s.poison ∧
    (s.crashPut k u c a b).ns = s.ns ∧ (s.crashPut k u c a b).time = s.time ∧ (s.crashPut k u c a b).free = s.free ∧
    (s.crashPut k u c a b).out = s.out ∧ (s.crashPut k u c a b).latch = s.latch ∧ (s.crashPut k u c a b).errSec = s.errSec ∧
    (s.crashPut k u c a b).wakeReq = s.wakeReq ∧ (s.crashPut k u c a b).threads = s.threads ∧ (s.crashPut k u c a b).cores = s.cores ∧
    (s.crashPut k u c a b).chans = s.chans ∧ (s.crashPut k u c a b).unitPtr = s.unitPtr ∧ (s.crashPut k u c a b).parBusy = s.parBusy ∧
    (s.crashPut k u c a b).polarity = s.polarity ∧ (s.crashPut k u c a b).pegs = s.pegs ∧ (s.crashPut k u c a b).ports = s.ports ∧
    (s.crashPut k u c a b).rr = s.rr ∧ (s.crashPut k u c a b).frames = s.frames ∧ (s.crashPut k u c a b).handles = s.handles ∧
    (s.crashPut k u c a b).arrivals = s.arrivals ∧ (s.crashPut k u c a b).fc = s.fc ∧ (s.crashPut k u c a b).pend = s.pend ∧
    (s.crashPut k u c a b).actFifo = s.actFifo ∧ (s.crashPut k u c a b).tmIn = s.tmIn ∧ (s.crashPut k u c a b).actLists = s.actLists ∧
    (s.crashPut k u c a b).pushId = s.pushId ∧ (s.crashPut k u c a b).mirrorCount = s.mirrorCount ∧ (s.crashPut k u c a b).tmFifo = s.tmFifo ∧
    (s.crashPut k u c a b).tmAux = s.tmAux ∧ (s.crashPut k u c a b).polAux = s.polAux ∧ (s.crashPut k u c a b).lookups = s.lookups ∧
    (s.crashPut k u c a b).overlay = s.overlay ∧ (s.crashPut k u c a b).draining = s.draining ∧ (s.crashPut k u c a b).learnSeq = s.learnSeq ∧
    (s.crashPut k u c a b).parked = s.parked ∧ (s.crashPut k u c a b).emFresh = s.emFresh ∧ (s.crashPut k u c a b).emCount = s.emCount ∧
    (s.crashPut k u c a b).extTaint = s.extTaint ∧ (s.crashPut k u c a b).tblDiffs = s.tblDiffs ∧ (s.crashPut k u c a b).orderSeen = s.orderSeen ∧
    (s.crashPut k u c a b).keys = s.keys ∧ (s.crashPut k u c a b).klwCmd = s.klwCmd ∧ (s.crashPut k u c a b).csubs = s.csubs ∧
    (s.crashPut k u c a b).anFail = s.anFail ∧ (s.crashPut k u c a b).portPll = s.portPll ∧ (s.crashPut k u c a b).tsFifo = s.tsFifo ∧
    (s.crashPut k u c a b).cue = s.cue ∧ (s.crashPut k u c a b).peerIn = s.peerIn ∧ (s.crashPut k u c a b).cueReads = s.cueReads ∧
    (s.crashPut k u c a b).cueTags = s.cueTags ∧ (s.crashPut k u c a b).winCommit = s.winCommit ∧ (s.crashPut k u c a b).strapBalls = s.strapBalls ∧
    (s.crashPut k u c a b).funcs = s.funcs ∧ (s.crashPut k u c a b).rrs = s.rrs ∧ (s.crashPut k u c a b).msixTab = s.msixTab ∧
    (s.crashPut k u c a b).msixPba = s.msixPba ∧ (s.crashPut k u c a b).hreads = s.hreads ∧ (s.crashPut k u c a b).hreadCount = s.hreadCount ∧
    (s.crashPut k u c a b).entries = s.entries ∧ (s.crashPut k u c a b).entryCount = s.entryCount ∧ (s.crashPut k u c a b).hwq = s.hwq ∧
    (s.crashPut k u c a b).atsCache = s.atsCache ∧ (s.crashPut k u c a b).atsInv = s.atsInv ∧ (s.crashPut k u c a b).doe = s.doe ∧
    (s.crashPut k u c a b).ideSecure = s.ideSecure ∧ (s.crashPut k u c a b).dark = s.dark ∧ (s.crashPut k u c a b).darkDb = s.darkDb ∧
    (s.crashPut k u c a b).logFilter = s.logFilter ∧ (s.crashPut k u c a b).logCons = s.logCons ∧ (s.crashPut k u c a b).ringx = s.ringx ∧
    (s.crashPut k u c a b).txJobs = s.txJobs ∧ (s.crashPut k u c a b).txCount = s.txCount ∧ (s.crashPut k u c a b).txGone = s.txGone ∧
    (s.crashPut k u c a b).held = s.held ∧ (s.crashPut k u c a b).stalled = s.stalled ∧ (s.crashPut k u c a b).fullerT = s.fullerT ∧
    (s.crashPut k u c a b).hostOut = s.hostOut ∧ (s.crashPut k u c a b).uc = s.uc ∧ (s.crashPut k u c a b).ucScratch = s.ucScratch ∧
    (s.crashPut k u c a b).ucLast = s.ucLast ∧ (s.crashPut k u c a b).ucPatch = s.ucPatch ∧ (s.crashPut k u c a b).ucBad = s.ucBad ∧
    (s.crashPut k u c a b).ucRegime = s.ucRegime ∧ (s.crashPut k u c a b).patchJob = s.patchJob ∧ (s.crashPut k u c a b).ucDoorbells = s.ucDoorbells ∧
    (s.crashPut k u c a b).genCount = s.genCount ∧ (s.crashPut k u c a b).capoOff = s.capoOff ∧ (s.crashPut k u c a b).ccReset = s.ccReset ∧
    (s.crashPut k u c a b).stoCmds = s.stoCmds ∧ (s.crashPut k u c a b).stoCount = s.stoCount ∧ (s.crashPut k u c a b).connx = s.connx ∧
    (s.crashPut k u c a b).bow = s.bow ∧ (s.crashPut k u c a b).bowPtr = s.bowPtr ∧ (s.crashPut k u c a b).icuHold = s.icuHold ∧
    (s.crashPut k u c a b).icuStack = s.icuStack ∧ (s.crashPut k u c a b).pwrTarget = s.pwrTarget ∧ (s.crashPut k u c a b).pwrByReq = s.pwrByReq ∧
    (s.crashPut k u c a b).pwrRev = s.pwrRev ∧ (s.crashPut k u c a b).pwrNs = s.pwrNs ∧ (s.crashPut k u c a b).pwrSince = s.pwrSince ∧
    (s.crashPut k u c a b).clkBase = s.clkBase ∧ (s.crashPut k u c a b).pwrSelfRef = s.pwrSelfRef ∧ (s.crashPut k u c a b).vddCore = s.vddCore ∧
    (s.crashPut k u c a b).hold = s.hold ∧ (s.crashPut k u c a b).resetNs = s.resetNs ∧ (s.crashPut k u c a b).bootNs = s.bootNs ∧
    (s.crashPut k u c a b).warm = s.warm ∧ (s.crashPut k u c a b).warmSp = s.warmSp ∧ (s.crashPut k u c a b).warmFlr = s.warmFlr ∧
    (s.crashPut k u c a b).diceKeys = s.diceKeys ∧ (s.crashPut k u c a b).diceSealed = s.diceSealed ∧ (s.crashPut k u c a b).diceD = s.diceD ∧
    (s.crashPut k u c a b).diceSvn = s.diceSvn ∧ (s.crashPut k u c a b).diceSlot = s.diceSlot ∧ (s.crashPut k u c a b).diceDebug = s.diceDebug ∧
    (s.crashPut k u c a b).measPatch = s.measPatch ∧ (s.crashPut k u c a b).tid = s.tid ∧ (s.crashPut k u c a b).spdmBox = s.spdmBox ∧
    (s.crashPut k u c a b).wdogNs = s.wdogNs ∧ (s.crashPut k u c a b).wdogHeld = s.wdogHeld ∧ (s.crashPut k u c a b).chalValid = s.chalValid ∧
    (s.crashPut k u c a b).jtagIr = s.jtagIr ∧ (s.crashPut k u c a b).rngDead = s.rngDead ∧ (s.crashPut k u c a b).spTestFail = s.spTestFail ∧
    (s.crashPut k u c a b).drbgCount = s.drbgCount ∧ (s.crashPut k u c a b).seqLeft = s.seqLeft ∧ (s.crashPut k u c a b).pending = s.pending := by
  rw [State.crashPut_eq]; exact ⟨rfl, rfl, rfl, rfl, rfl, rfl, rfl, rfl, rfl, rfl, rfl, rfl, rfl, rfl, rfl, rfl, rfl, rfl, rfl, rfl, rfl, rfl, rfl, rfl, rfl,
   rfl, rfl, rfl, rfl, rfl, rfl, rfl, rfl, rfl, rfl, rfl, rfl, rfl, rfl, rfl, rfl, rfl, rfl, rfl, rfl, rfl, rfl, rfl, rfl, rfl,
   rfl, rfl, rfl, rfl, rfl, rfl, rfl, rfl, rfl, rfl, rfl, rfl, rfl, rfl, rfl, rfl, rfl, rfl, rfl, rfl, rfl, rfl, rfl, rfl, rfl,
   rfl, rfl, rfl, rfl, rfl, rfl, rfl, rfl, rfl, rfl, rfl, rfl, rfl, rfl, rfl, rfl, rfl, rfl, rfl, rfl, rfl, rfl, rfl, rfl, rfl,
   rfl, rfl, rfl, rfl, rfl, rfl, rfl, rfl, rfl, rfl, rfl, rfl, rfl, rfl, rfl, rfl, rfl, rfl, rfl, rfl, rfl, rfl, rfl, rfl, rfl,
   rfl, rfl, rfl, rfl⟩

theorem State.crashLog_eq (s : State) (k u c : Nat) (a b : Word) :
    s.crashLog k u c a b = { s with regs := (s.crashLog k u c a b).regs, errSec := (s.crashLog k u c a b).errSec } := by
  unfold State.crashLog
  dsimp only
  repeat' split
  all_goals first | rfl | (rw [State.crashPut_eq])

@[simp] theorem State.crashLog_fields (s : State) (k u c : Nat) (a b : Word) :
    (s.crashLog k u c a b).mem = s.mem ∧ (s.crashLog k u c a b).lost = s.lost ∧ (s.crashLog k u c a b).poison = s.poison ∧
    (s.crashLog k u c a b).ns = s.ns ∧ (s.crashLog k u c a b).time = s.time ∧ (s.crashLog k u c a b).free = s.free ∧
    (s.crashLog k u c a b).out = s.out ∧ (s.crashLog k u c a b).latch = s.latch ∧ (s.crashLog k u c a b).wakeReq = s.wakeReq ∧
    (s.crashLog k u c a b).threads = s.threads ∧ (s.crashLog k u c a b).cores = s.cores ∧ (s.crashLog k u c a b).chans = s.chans ∧
    (s.crashLog k u c a b).unitPtr = s.unitPtr ∧ (s.crashLog k u c a b).parBusy = s.parBusy ∧ (s.crashLog k u c a b).polarity = s.polarity ∧
    (s.crashLog k u c a b).pegs = s.pegs ∧ (s.crashLog k u c a b).ports = s.ports ∧ (s.crashLog k u c a b).rr = s.rr ∧
    (s.crashLog k u c a b).frames = s.frames ∧ (s.crashLog k u c a b).handles = s.handles ∧ (s.crashLog k u c a b).arrivals = s.arrivals ∧
    (s.crashLog k u c a b).fc = s.fc ∧ (s.crashLog k u c a b).pend = s.pend ∧ (s.crashLog k u c a b).actFifo = s.actFifo ∧
    (s.crashLog k u c a b).tmIn = s.tmIn ∧ (s.crashLog k u c a b).actLists = s.actLists ∧ (s.crashLog k u c a b).pushId = s.pushId ∧
    (s.crashLog k u c a b).mirrorCount = s.mirrorCount ∧ (s.crashLog k u c a b).tmFifo = s.tmFifo ∧ (s.crashLog k u c a b).tmAux = s.tmAux ∧
    (s.crashLog k u c a b).polAux = s.polAux ∧ (s.crashLog k u c a b).lookups = s.lookups ∧ (s.crashLog k u c a b).overlay = s.overlay ∧
    (s.crashLog k u c a b).draining = s.draining ∧ (s.crashLog k u c a b).learnSeq = s.learnSeq ∧ (s.crashLog k u c a b).parked = s.parked ∧
    (s.crashLog k u c a b).emFresh = s.emFresh ∧ (s.crashLog k u c a b).emCount = s.emCount ∧ (s.crashLog k u c a b).extTaint = s.extTaint ∧
    (s.crashLog k u c a b).tblDiffs = s.tblDiffs ∧ (s.crashLog k u c a b).orderSeen = s.orderSeen ∧ (s.crashLog k u c a b).keys = s.keys ∧
    (s.crashLog k u c a b).klwCmd = s.klwCmd ∧ (s.crashLog k u c a b).csubs = s.csubs ∧ (s.crashLog k u c a b).anFail = s.anFail ∧
    (s.crashLog k u c a b).portPll = s.portPll ∧ (s.crashLog k u c a b).tsFifo = s.tsFifo ∧ (s.crashLog k u c a b).cue = s.cue ∧
    (s.crashLog k u c a b).peerIn = s.peerIn ∧ (s.crashLog k u c a b).cueReads = s.cueReads ∧ (s.crashLog k u c a b).cueTags = s.cueTags ∧
    (s.crashLog k u c a b).winCommit = s.winCommit ∧ (s.crashLog k u c a b).strapBalls = s.strapBalls ∧ (s.crashLog k u c a b).funcs = s.funcs ∧
    (s.crashLog k u c a b).rrs = s.rrs ∧ (s.crashLog k u c a b).msixTab = s.msixTab ∧ (s.crashLog k u c a b).msixPba = s.msixPba ∧
    (s.crashLog k u c a b).hreads = s.hreads ∧ (s.crashLog k u c a b).hreadCount = s.hreadCount ∧ (s.crashLog k u c a b).entries = s.entries ∧
    (s.crashLog k u c a b).entryCount = s.entryCount ∧ (s.crashLog k u c a b).hwq = s.hwq ∧ (s.crashLog k u c a b).atsCache = s.atsCache ∧
    (s.crashLog k u c a b).atsInv = s.atsInv ∧ (s.crashLog k u c a b).doe = s.doe ∧ (s.crashLog k u c a b).ideSecure = s.ideSecure ∧
    (s.crashLog k u c a b).dark = s.dark ∧ (s.crashLog k u c a b).darkDb = s.darkDb ∧ (s.crashLog k u c a b).logFilter = s.logFilter ∧
    (s.crashLog k u c a b).logCons = s.logCons ∧ (s.crashLog k u c a b).ringx = s.ringx ∧ (s.crashLog k u c a b).txJobs = s.txJobs ∧
    (s.crashLog k u c a b).txCount = s.txCount ∧ (s.crashLog k u c a b).txGone = s.txGone ∧ (s.crashLog k u c a b).held = s.held ∧
    (s.crashLog k u c a b).stalled = s.stalled ∧ (s.crashLog k u c a b).fullerT = s.fullerT ∧ (s.crashLog k u c a b).hostOut = s.hostOut ∧
    (s.crashLog k u c a b).uc = s.uc ∧ (s.crashLog k u c a b).ucScratch = s.ucScratch ∧ (s.crashLog k u c a b).ucLast = s.ucLast ∧
    (s.crashLog k u c a b).ucPatch = s.ucPatch ∧ (s.crashLog k u c a b).ucBad = s.ucBad ∧ (s.crashLog k u c a b).ucRegime = s.ucRegime ∧
    (s.crashLog k u c a b).patchJob = s.patchJob ∧ (s.crashLog k u c a b).ucDoorbells = s.ucDoorbells ∧ (s.crashLog k u c a b).genCount = s.genCount ∧
    (s.crashLog k u c a b).capoOff = s.capoOff ∧ (s.crashLog k u c a b).ccReset = s.ccReset ∧ (s.crashLog k u c a b).stoCmds = s.stoCmds ∧
    (s.crashLog k u c a b).stoCount = s.stoCount ∧ (s.crashLog k u c a b).connx = s.connx ∧ (s.crashLog k u c a b).bow = s.bow ∧
    (s.crashLog k u c a b).bowPtr = s.bowPtr ∧ (s.crashLog k u c a b).icuHold = s.icuHold ∧ (s.crashLog k u c a b).icuStack = s.icuStack ∧
    (s.crashLog k u c a b).pwrTarget = s.pwrTarget ∧ (s.crashLog k u c a b).pwrByReq = s.pwrByReq ∧ (s.crashLog k u c a b).pwrRev = s.pwrRev ∧
    (s.crashLog k u c a b).pwrNs = s.pwrNs ∧ (s.crashLog k u c a b).pwrSince = s.pwrSince ∧ (s.crashLog k u c a b).clkBase = s.clkBase ∧
    (s.crashLog k u c a b).pwrSelfRef = s.pwrSelfRef ∧ (s.crashLog k u c a b).vddCore = s.vddCore ∧ (s.crashLog k u c a b).hold = s.hold ∧
    (s.crashLog k u c a b).resetNs = s.resetNs ∧ (s.crashLog k u c a b).bootNs = s.bootNs ∧ (s.crashLog k u c a b).warm = s.warm ∧
    (s.crashLog k u c a b).warmSp = s.warmSp ∧ (s.crashLog k u c a b).warmFlr = s.warmFlr ∧ (s.crashLog k u c a b).diceKeys = s.diceKeys ∧
    (s.crashLog k u c a b).diceSealed = s.diceSealed ∧ (s.crashLog k u c a b).diceD = s.diceD ∧ (s.crashLog k u c a b).diceSvn = s.diceSvn ∧
    (s.crashLog k u c a b).diceSlot = s.diceSlot ∧ (s.crashLog k u c a b).diceDebug = s.diceDebug ∧ (s.crashLog k u c a b).measPatch = s.measPatch ∧
    (s.crashLog k u c a b).tid = s.tid ∧ (s.crashLog k u c a b).spdmBox = s.spdmBox ∧ (s.crashLog k u c a b).wdogNs = s.wdogNs ∧
    (s.crashLog k u c a b).wdogHeld = s.wdogHeld ∧ (s.crashLog k u c a b).chalValid = s.chalValid ∧ (s.crashLog k u c a b).jtagIr = s.jtagIr ∧
    (s.crashLog k u c a b).rngDead = s.rngDead ∧ (s.crashLog k u c a b).spTestFail = s.spTestFail ∧ (s.crashLog k u c a b).drbgCount = s.drbgCount ∧
    (s.crashLog k u c a b).seqLeft = s.seqLeft ∧ (s.crashLog k u c a b).pending = s.pending := by
  rw [State.crashLog_eq]; exact ⟨rfl, rfl, rfl, rfl, rfl, rfl, rfl, rfl, rfl, rfl, rfl, rfl, rfl, rfl, rfl, rfl, rfl, rfl, rfl, rfl, rfl, rfl, rfl, rfl, rfl,
   rfl, rfl, rfl, rfl, rfl, rfl, rfl, rfl, rfl, rfl, rfl, rfl, rfl, rfl, rfl, rfl, rfl, rfl, rfl, rfl, rfl, rfl, rfl, rfl, rfl,
   rfl, rfl, rfl, rfl, rfl, rfl, rfl, rfl, rfl, rfl, rfl, rfl, rfl, rfl, rfl, rfl, rfl, rfl, rfl, rfl, rfl, rfl, rfl, rfl, rfl,
   rfl, rfl, rfl, rfl, rfl, rfl, rfl, rfl, rfl, rfl, rfl, rfl, rfl, rfl, rfl, rfl, rfl, rfl, rfl, rfl, rfl, rfl, rfl, rfl, rfl,
   rfl, rfl, rfl, rfl, rfl, rfl, rfl, rfl, rfl, rfl, rfl, rfl, rfl, rfl, rfl, rfl, rfl, rfl, rfl, rfl, rfl, rfl, rfl, rfl, rfl,
   rfl, rfl, rfl⟩

theorem State.errReport_eq (s : State) (k u c : Nat) (a : Word) :
    s.errReport k u c a = { s with regs := (s.errReport k u c a).regs, errSec := (s.errReport k u c a).errSec } := by
  unfold State.errReport
  dsimp only
  split
  · rfl
  · rw [State.crashLog_eq]; rfl

@[simp] theorem State.errReport_fields (s : State) (k u c : Nat) (a : Word) :
    (s.errReport k u c a).mem = s.mem ∧ (s.errReport k u c a).lost = s.lost ∧ (s.errReport k u c a).poison = s.poison ∧
    (s.errReport k u c a).ns = s.ns ∧ (s.errReport k u c a).time = s.time ∧ (s.errReport k u c a).free = s.free ∧ (s.errReport k u c a).out = s.out ∧
    (s.errReport k u c a).latch = s.latch ∧ (s.errReport k u c a).wakeReq = s.wakeReq ∧ (s.errReport k u c a).threads = s.threads ∧
    (s.errReport k u c a).cores = s.cores ∧ (s.errReport k u c a).chans = s.chans ∧ (s.errReport k u c a).unitPtr = s.unitPtr ∧
    (s.errReport k u c a).parBusy = s.parBusy ∧ (s.errReport k u c a).polarity = s.polarity ∧ (s.errReport k u c a).pegs = s.pegs ∧
    (s.errReport k u c a).ports = s.ports ∧ (s.errReport k u c a).rr = s.rr ∧ (s.errReport k u c a).frames = s.frames ∧
    (s.errReport k u c a).handles = s.handles ∧ (s.errReport k u c a).arrivals = s.arrivals ∧ (s.errReport k u c a).fc = s.fc ∧
    (s.errReport k u c a).pend = s.pend ∧ (s.errReport k u c a).actFifo = s.actFifo ∧ (s.errReport k u c a).tmIn = s.tmIn ∧
    (s.errReport k u c a).actLists = s.actLists ∧ (s.errReport k u c a).pushId = s.pushId ∧ (s.errReport k u c a).mirrorCount = s.mirrorCount ∧
    (s.errReport k u c a).tmFifo = s.tmFifo ∧ (s.errReport k u c a).tmAux = s.tmAux ∧ (s.errReport k u c a).polAux = s.polAux ∧
    (s.errReport k u c a).lookups = s.lookups ∧ (s.errReport k u c a).overlay = s.overlay ∧ (s.errReport k u c a).draining = s.draining ∧
    (s.errReport k u c a).learnSeq = s.learnSeq ∧ (s.errReport k u c a).parked = s.parked ∧ (s.errReport k u c a).emFresh = s.emFresh ∧
    (s.errReport k u c a).emCount = s.emCount ∧ (s.errReport k u c a).extTaint = s.extTaint ∧ (s.errReport k u c a).tblDiffs = s.tblDiffs ∧
    (s.errReport k u c a).orderSeen = s.orderSeen ∧ (s.errReport k u c a).keys = s.keys ∧ (s.errReport k u c a).klwCmd = s.klwCmd ∧
    (s.errReport k u c a).csubs = s.csubs ∧ (s.errReport k u c a).anFail = s.anFail ∧ (s.errReport k u c a).portPll = s.portPll ∧
    (s.errReport k u c a).tsFifo = s.tsFifo ∧ (s.errReport k u c a).cue = s.cue ∧ (s.errReport k u c a).peerIn = s.peerIn ∧
    (s.errReport k u c a).cueReads = s.cueReads ∧ (s.errReport k u c a).cueTags = s.cueTags ∧ (s.errReport k u c a).winCommit = s.winCommit ∧
    (s.errReport k u c a).strapBalls = s.strapBalls ∧ (s.errReport k u c a).funcs = s.funcs ∧ (s.errReport k u c a).rrs = s.rrs ∧
    (s.errReport k u c a).msixTab = s.msixTab ∧ (s.errReport k u c a).msixPba = s.msixPba ∧ (s.errReport k u c a).hreads = s.hreads ∧
    (s.errReport k u c a).hreadCount = s.hreadCount ∧ (s.errReport k u c a).entries = s.entries ∧ (s.errReport k u c a).entryCount = s.entryCount ∧
    (s.errReport k u c a).hwq = s.hwq ∧ (s.errReport k u c a).atsCache = s.atsCache ∧ (s.errReport k u c a).atsInv = s.atsInv ∧
    (s.errReport k u c a).doe = s.doe ∧ (s.errReport k u c a).ideSecure = s.ideSecure ∧ (s.errReport k u c a).dark = s.dark ∧
    (s.errReport k u c a).darkDb = s.darkDb ∧ (s.errReport k u c a).logFilter = s.logFilter ∧ (s.errReport k u c a).logCons = s.logCons ∧
    (s.errReport k u c a).ringx = s.ringx ∧ (s.errReport k u c a).txJobs = s.txJobs ∧ (s.errReport k u c a).txCount = s.txCount ∧
    (s.errReport k u c a).txGone = s.txGone ∧ (s.errReport k u c a).held = s.held ∧ (s.errReport k u c a).stalled = s.stalled ∧
    (s.errReport k u c a).fullerT = s.fullerT ∧ (s.errReport k u c a).hostOut = s.hostOut ∧ (s.errReport k u c a).uc = s.uc ∧
    (s.errReport k u c a).ucScratch = s.ucScratch ∧ (s.errReport k u c a).ucLast = s.ucLast ∧ (s.errReport k u c a).ucPatch = s.ucPatch ∧
    (s.errReport k u c a).ucBad = s.ucBad ∧ (s.errReport k u c a).ucRegime = s.ucRegime ∧ (s.errReport k u c a).patchJob = s.patchJob ∧
    (s.errReport k u c a).ucDoorbells = s.ucDoorbells ∧ (s.errReport k u c a).genCount = s.genCount ∧ (s.errReport k u c a).capoOff = s.capoOff ∧
    (s.errReport k u c a).ccReset = s.ccReset ∧ (s.errReport k u c a).stoCmds = s.stoCmds ∧ (s.errReport k u c a).stoCount = s.stoCount ∧
    (s.errReport k u c a).connx = s.connx ∧ (s.errReport k u c a).bow = s.bow ∧ (s.errReport k u c a).bowPtr = s.bowPtr ∧
    (s.errReport k u c a).icuHold = s.icuHold ∧ (s.errReport k u c a).icuStack = s.icuStack ∧ (s.errReport k u c a).pwrTarget = s.pwrTarget ∧
    (s.errReport k u c a).pwrByReq = s.pwrByReq ∧ (s.errReport k u c a).pwrRev = s.pwrRev ∧ (s.errReport k u c a).pwrNs = s.pwrNs ∧
    (s.errReport k u c a).pwrSince = s.pwrSince ∧ (s.errReport k u c a).clkBase = s.clkBase ∧ (s.errReport k u c a).pwrSelfRef = s.pwrSelfRef ∧
    (s.errReport k u c a).vddCore = s.vddCore ∧ (s.errReport k u c a).hold = s.hold ∧ (s.errReport k u c a).resetNs = s.resetNs ∧
    (s.errReport k u c a).bootNs = s.bootNs ∧ (s.errReport k u c a).warm = s.warm ∧ (s.errReport k u c a).warmSp = s.warmSp ∧
    (s.errReport k u c a).warmFlr = s.warmFlr ∧ (s.errReport k u c a).diceKeys = s.diceKeys ∧ (s.errReport k u c a).diceSealed = s.diceSealed ∧
    (s.errReport k u c a).diceD = s.diceD ∧ (s.errReport k u c a).diceSvn = s.diceSvn ∧ (s.errReport k u c a).diceSlot = s.diceSlot ∧
    (s.errReport k u c a).diceDebug = s.diceDebug ∧ (s.errReport k u c a).measPatch = s.measPatch ∧ (s.errReport k u c a).tid = s.tid ∧
    (s.errReport k u c a).spdmBox = s.spdmBox ∧ (s.errReport k u c a).wdogNs = s.wdogNs ∧ (s.errReport k u c a).wdogHeld = s.wdogHeld ∧
    (s.errReport k u c a).chalValid = s.chalValid ∧ (s.errReport k u c a).jtagIr = s.jtagIr ∧ (s.errReport k u c a).rngDead = s.rngDead ∧
    (s.errReport k u c a).spTestFail = s.spTestFail ∧ (s.errReport k u c a).drbgCount = s.drbgCount ∧ (s.errReport k u c a).seqLeft = s.seqLeft ∧
    (s.errReport k u c a).pending = s.pending := by
  rw [State.errReport_eq]; exact ⟨rfl, rfl, rfl, rfl, rfl, rfl, rfl, rfl, rfl, rfl, rfl, rfl, rfl, rfl, rfl, rfl, rfl, rfl, rfl, rfl, rfl, rfl, rfl, rfl, rfl,
   rfl, rfl, rfl, rfl, rfl, rfl, rfl, rfl, rfl, rfl, rfl, rfl, rfl, rfl, rfl, rfl, rfl, rfl, rfl, rfl, rfl, rfl, rfl, rfl, rfl,
   rfl, rfl, rfl, rfl, rfl, rfl, rfl, rfl, rfl, rfl, rfl, rfl, rfl, rfl, rfl, rfl, rfl, rfl, rfl, rfl, rfl, rfl, rfl, rfl, rfl,
   rfl, rfl, rfl, rfl, rfl, rfl, rfl, rfl, rfl, rfl, rfl, rfl, rfl, rfl, rfl, rfl, rfl, rfl, rfl, rfl, rfl, rfl, rfl, rfl, rfl,
   rfl, rfl, rfl, rfl, rfl, rfl, rfl, rfl, rfl, rfl, rfl, rfl, rfl, rfl, rfl, rfl, rfl, rfl, rfl, rfl, rfl, rfl, rfl, rfl, rfl,
   rfl, rfl, rfl⟩

@[simp] theorem State.memPut_fields (s : State) (a : Nat) (b : Byte) :
    (s.memPut a b).regs = s.regs ∧ (s.memPut a b).lost = s.lost ∧ (s.memPut a b).poison = s.poison ∧ (s.memPut a b).ns = s.ns ∧
    (s.memPut a b).time = s.time ∧ (s.memPut a b).free = s.free ∧ (s.memPut a b).out = s.out ∧ (s.memPut a b).latch = s.latch ∧
    (s.memPut a b).errSec = s.errSec ∧ (s.memPut a b).wakeReq = s.wakeReq ∧ (s.memPut a b).threads = s.threads ∧ (s.memPut a b).cores = s.cores ∧
    (s.memPut a b).chans = s.chans ∧ (s.memPut a b).unitPtr = s.unitPtr ∧ (s.memPut a b).parBusy = s.parBusy ∧ (s.memPut a b).polarity = s.polarity ∧
    (s.memPut a b).pegs = s.pegs ∧ (s.memPut a b).ports = s.ports ∧ (s.memPut a b).rr = s.rr ∧ (s.memPut a b).frames = s.frames ∧
    (s.memPut a b).handles = s.handles ∧ (s.memPut a b).arrivals = s.arrivals ∧ (s.memPut a b).fc = s.fc ∧ (s.memPut a b).pend = s.pend ∧
    (s.memPut a b).actFifo = s.actFifo ∧ (s.memPut a b).tmIn = s.tmIn ∧ (s.memPut a b).actLists = s.actLists ∧ (s.memPut a b).pushId = s.pushId ∧
    (s.memPut a b).mirrorCount = s.mirrorCount ∧ (s.memPut a b).tmFifo = s.tmFifo ∧ (s.memPut a b).tmAux = s.tmAux ∧
    (s.memPut a b).polAux = s.polAux ∧ (s.memPut a b).lookups = s.lookups ∧ (s.memPut a b).overlay = s.overlay ∧
    (s.memPut a b).draining = s.draining ∧ (s.memPut a b).learnSeq = s.learnSeq ∧ (s.memPut a b).parked = s.parked ∧
    (s.memPut a b).emFresh = s.emFresh ∧ (s.memPut a b).emCount = s.emCount ∧ (s.memPut a b).extTaint = s.extTaint ∧
    (s.memPut a b).tblDiffs = s.tblDiffs ∧ (s.memPut a b).orderSeen = s.orderSeen ∧ (s.memPut a b).keys = s.keys ∧ (s.memPut a b).klwCmd = s.klwCmd ∧
    (s.memPut a b).csubs = s.csubs ∧ (s.memPut a b).anFail = s.anFail ∧ (s.memPut a b).portPll = s.portPll ∧ (s.memPut a b).tsFifo = s.tsFifo ∧
    (s.memPut a b).cue = s.cue ∧ (s.memPut a b).peerIn = s.peerIn ∧ (s.memPut a b).cueReads = s.cueReads ∧ (s.memPut a b).cueTags = s.cueTags ∧
    (s.memPut a b).winCommit = s.winCommit ∧ (s.memPut a b).strapBalls = s.strapBalls ∧ (s.memPut a b).funcs = s.funcs ∧ (s.memPut a b).rrs = s.rrs ∧
    (s.memPut a b).msixTab = s.msixTab ∧ (s.memPut a b).msixPba = s.msixPba ∧ (s.memPut a b).hreads = s.hreads ∧
    (s.memPut a b).hreadCount = s.hreadCount ∧ (s.memPut a b).entries = s.entries ∧ (s.memPut a b).entryCount = s.entryCount ∧
    (s.memPut a b).hwq = s.hwq ∧ (s.memPut a b).atsCache = s.atsCache ∧ (s.memPut a b).atsInv = s.atsInv ∧ (s.memPut a b).doe = s.doe ∧
    (s.memPut a b).ideSecure = s.ideSecure ∧ (s.memPut a b).dark = s.dark ∧ (s.memPut a b).darkDb = s.darkDb ∧
    (s.memPut a b).logFilter = s.logFilter ∧ (s.memPut a b).logCons = s.logCons ∧ (s.memPut a b).ringx = s.ringx ∧ (s.memPut a b).txJobs = s.txJobs ∧
    (s.memPut a b).txCount = s.txCount ∧ (s.memPut a b).txGone = s.txGone ∧ (s.memPut a b).held = s.held ∧ (s.memPut a b).stalled = s.stalled ∧
    (s.memPut a b).fullerT = s.fullerT ∧ (s.memPut a b).hostOut = s.hostOut ∧ (s.memPut a b).uc = s.uc ∧ (s.memPut a b).ucScratch = s.ucScratch ∧
    (s.memPut a b).ucLast = s.ucLast ∧ (s.memPut a b).ucPatch = s.ucPatch ∧ (s.memPut a b).ucBad = s.ucBad ∧ (s.memPut a b).ucRegime = s.ucRegime ∧
    (s.memPut a b).patchJob = s.patchJob ∧ (s.memPut a b).ucDoorbells = s.ucDoorbells ∧ (s.memPut a b).genCount = s.genCount ∧
    (s.memPut a b).capoOff = s.capoOff ∧ (s.memPut a b).ccReset = s.ccReset ∧ (s.memPut a b).stoCmds = s.stoCmds ∧
    (s.memPut a b).stoCount = s.stoCount ∧ (s.memPut a b).connx = s.connx ∧ (s.memPut a b).bow = s.bow ∧ (s.memPut a b).bowPtr = s.bowPtr ∧
    (s.memPut a b).icuHold = s.icuHold ∧ (s.memPut a b).icuStack = s.icuStack ∧ (s.memPut a b).pwrTarget = s.pwrTarget ∧
    (s.memPut a b).pwrByReq = s.pwrByReq ∧ (s.memPut a b).pwrRev = s.pwrRev ∧ (s.memPut a b).pwrNs = s.pwrNs ∧ (s.memPut a b).pwrSince = s.pwrSince ∧
    (s.memPut a b).clkBase = s.clkBase ∧ (s.memPut a b).pwrSelfRef = s.pwrSelfRef ∧ (s.memPut a b).vddCore = s.vddCore ∧
    (s.memPut a b).hold = s.hold ∧ (s.memPut a b).resetNs = s.resetNs ∧ (s.memPut a b).bootNs = s.bootNs ∧ (s.memPut a b).warm = s.warm ∧
    (s.memPut a b).warmSp = s.warmSp ∧ (s.memPut a b).warmFlr = s.warmFlr ∧ (s.memPut a b).diceKeys = s.diceKeys ∧
    (s.memPut a b).diceSealed = s.diceSealed ∧ (s.memPut a b).diceD = s.diceD ∧ (s.memPut a b).diceSvn = s.diceSvn ∧
    (s.memPut a b).diceSlot = s.diceSlot ∧ (s.memPut a b).diceDebug = s.diceDebug ∧ (s.memPut a b).measPatch = s.measPatch ∧
    (s.memPut a b).tid = s.tid ∧ (s.memPut a b).spdmBox = s.spdmBox ∧ (s.memPut a b).wdogNs = s.wdogNs ∧ (s.memPut a b).wdogHeld = s.wdogHeld ∧
    (s.memPut a b).chalValid = s.chalValid ∧ (s.memPut a b).jtagIr = s.jtagIr ∧ (s.memPut a b).rngDead = s.rngDead ∧
    (s.memPut a b).spTestFail = s.spTestFail ∧ (s.memPut a b).drbgCount = s.drbgCount ∧ (s.memPut a b).seqLeft = s.seqLeft ∧
    (s.memPut a b).pending = s.pending :=
  ⟨rfl, rfl, rfl, rfl, rfl, rfl, rfl, rfl, rfl, rfl, rfl, rfl, rfl, rfl, rfl, rfl, rfl, rfl, rfl, rfl, rfl, rfl, rfl, rfl, rfl,
   rfl, rfl, rfl, rfl, rfl, rfl, rfl, rfl, rfl, rfl, rfl, rfl, rfl, rfl, rfl, rfl, rfl, rfl, rfl, rfl, rfl, rfl, rfl, rfl, rfl,
   rfl, rfl, rfl, rfl, rfl, rfl, rfl, rfl, rfl, rfl, rfl, rfl, rfl, rfl, rfl, rfl, rfl, rfl, rfl, rfl, rfl, rfl, rfl, rfl, rfl,
   rfl, rfl, rfl, rfl, rfl, rfl, rfl, rfl, rfl, rfl, rfl, rfl, rfl, rfl, rfl, rfl, rfl, rfl, rfl, rfl, rfl, rfl, rfl, rfl, rfl,
   rfl, rfl, rfl, rfl, rfl, rfl, rfl, rfl, rfl, rfl, rfl, rfl, rfl, rfl, rfl, rfl, rfl, rfl, rfl, rfl, rfl, rfl, rfl, rfl, rfl,
   rfl, rfl, rfl, rfl⟩

@[simp] theorem State.setPoison_fields (s : State) (l : Nat) (b : Bool) :
    (s.setPoison l b).regs = s.regs ∧ (s.setPoison l b).mem = s.mem ∧ (s.setPoison l b).lost = s.lost ∧ (s.setPoison l b).ns = s.ns ∧
    (s.setPoison l b).time = s.time ∧ (s.setPoison l b).free = s.free ∧ (s.setPoison l b).out = s.out ∧ (s.setPoison l b).latch = s.latch ∧
    (s.setPoison l b).errSec = s.errSec ∧ (s.setPoison l b).wakeReq = s.wakeReq ∧ (s.setPoison l b).threads = s.threads ∧
    (s.setPoison l b).cores = s.cores ∧ (s.setPoison l b).chans = s.chans ∧ (s.setPoison l b).unitPtr = s.unitPtr ∧
    (s.setPoison l b).parBusy = s.parBusy ∧ (s.setPoison l b).polarity = s.polarity ∧ (s.setPoison l b).pegs = s.pegs ∧
    (s.setPoison l b).ports = s.ports ∧ (s.setPoison l b).rr = s.rr ∧ (s.setPoison l b).frames = s.frames ∧ (s.setPoison l b).handles = s.handles ∧
    (s.setPoison l b).arrivals = s.arrivals ∧ (s.setPoison l b).fc = s.fc ∧ (s.setPoison l b).pend = s.pend ∧ (s.setPoison l b).actFifo = s.actFifo ∧
    (s.setPoison l b).tmIn = s.tmIn ∧ (s.setPoison l b).actLists = s.actLists ∧ (s.setPoison l b).pushId = s.pushId ∧
    (s.setPoison l b).mirrorCount = s.mirrorCount ∧ (s.setPoison l b).tmFifo = s.tmFifo ∧ (s.setPoison l b).tmAux = s.tmAux ∧
    (s.setPoison l b).polAux = s.polAux ∧ (s.setPoison l b).lookups = s.lookups ∧ (s.setPoison l b).overlay = s.overlay ∧
    (s.setPoison l b).draining = s.draining ∧ (s.setPoison l b).learnSeq = s.learnSeq ∧ (s.setPoison l b).parked = s.parked ∧
    (s.setPoison l b).emFresh = s.emFresh ∧ (s.setPoison l b).emCount = s.emCount ∧ (s.setPoison l b).extTaint = s.extTaint ∧
    (s.setPoison l b).tblDiffs = s.tblDiffs ∧ (s.setPoison l b).orderSeen = s.orderSeen ∧ (s.setPoison l b).keys = s.keys ∧
    (s.setPoison l b).klwCmd = s.klwCmd ∧ (s.setPoison l b).csubs = s.csubs ∧ (s.setPoison l b).anFail = s.anFail ∧
    (s.setPoison l b).portPll = s.portPll ∧ (s.setPoison l b).tsFifo = s.tsFifo ∧ (s.setPoison l b).cue = s.cue ∧
    (s.setPoison l b).peerIn = s.peerIn ∧ (s.setPoison l b).cueReads = s.cueReads ∧ (s.setPoison l b).cueTags = s.cueTags ∧
    (s.setPoison l b).winCommit = s.winCommit ∧ (s.setPoison l b).strapBalls = s.strapBalls ∧ (s.setPoison l b).funcs = s.funcs ∧
    (s.setPoison l b).rrs = s.rrs ∧ (s.setPoison l b).msixTab = s.msixTab ∧ (s.setPoison l b).msixPba = s.msixPba ∧
    (s.setPoison l b).hreads = s.hreads ∧ (s.setPoison l b).hreadCount = s.hreadCount ∧ (s.setPoison l b).entries = s.entries ∧
    (s.setPoison l b).entryCount = s.entryCount ∧ (s.setPoison l b).hwq = s.hwq ∧ (s.setPoison l b).atsCache = s.atsCache ∧
    (s.setPoison l b).atsInv = s.atsInv ∧ (s.setPoison l b).doe = s.doe ∧ (s.setPoison l b).ideSecure = s.ideSecure ∧
    (s.setPoison l b).dark = s.dark ∧ (s.setPoison l b).darkDb = s.darkDb ∧ (s.setPoison l b).logFilter = s.logFilter ∧
    (s.setPoison l b).logCons = s.logCons ∧ (s.setPoison l b).ringx = s.ringx ∧ (s.setPoison l b).txJobs = s.txJobs ∧
    (s.setPoison l b).txCount = s.txCount ∧ (s.setPoison l b).txGone = s.txGone ∧ (s.setPoison l b).held = s.held ∧
    (s.setPoison l b).stalled = s.stalled ∧ (s.setPoison l b).fullerT = s.fullerT ∧ (s.setPoison l b).hostOut = s.hostOut ∧
    (s.setPoison l b).uc = s.uc ∧ (s.setPoison l b).ucScratch = s.ucScratch ∧ (s.setPoison l b).ucLast = s.ucLast ∧
    (s.setPoison l b).ucPatch = s.ucPatch ∧ (s.setPoison l b).ucBad = s.ucBad ∧ (s.setPoison l b).ucRegime = s.ucRegime ∧
    (s.setPoison l b).patchJob = s.patchJob ∧ (s.setPoison l b).ucDoorbells = s.ucDoorbells ∧ (s.setPoison l b).genCount = s.genCount ∧
    (s.setPoison l b).capoOff = s.capoOff ∧ (s.setPoison l b).ccReset = s.ccReset ∧ (s.setPoison l b).stoCmds = s.stoCmds ∧
    (s.setPoison l b).stoCount = s.stoCount ∧ (s.setPoison l b).connx = s.connx ∧ (s.setPoison l b).bow = s.bow ∧
    (s.setPoison l b).bowPtr = s.bowPtr ∧ (s.setPoison l b).icuHold = s.icuHold ∧ (s.setPoison l b).icuStack = s.icuStack ∧
    (s.setPoison l b).pwrTarget = s.pwrTarget ∧ (s.setPoison l b).pwrByReq = s.pwrByReq ∧ (s.setPoison l b).pwrRev = s.pwrRev ∧
    (s.setPoison l b).pwrNs = s.pwrNs ∧ (s.setPoison l b).pwrSince = s.pwrSince ∧ (s.setPoison l b).clkBase = s.clkBase ∧
    (s.setPoison l b).pwrSelfRef = s.pwrSelfRef ∧ (s.setPoison l b).vddCore = s.vddCore ∧ (s.setPoison l b).hold = s.hold ∧
    (s.setPoison l b).resetNs = s.resetNs ∧ (s.setPoison l b).bootNs = s.bootNs ∧ (s.setPoison l b).warm = s.warm ∧
    (s.setPoison l b).warmSp = s.warmSp ∧ (s.setPoison l b).warmFlr = s.warmFlr ∧ (s.setPoison l b).diceKeys = s.diceKeys ∧
    (s.setPoison l b).diceSealed = s.diceSealed ∧ (s.setPoison l b).diceD = s.diceD ∧ (s.setPoison l b).diceSvn = s.diceSvn ∧
    (s.setPoison l b).diceSlot = s.diceSlot ∧ (s.setPoison l b).diceDebug = s.diceDebug ∧ (s.setPoison l b).measPatch = s.measPatch ∧
    (s.setPoison l b).tid = s.tid ∧ (s.setPoison l b).spdmBox = s.spdmBox ∧ (s.setPoison l b).wdogNs = s.wdogNs ∧
    (s.setPoison l b).wdogHeld = s.wdogHeld ∧ (s.setPoison l b).chalValid = s.chalValid ∧ (s.setPoison l b).jtagIr = s.jtagIr ∧
    (s.setPoison l b).rngDead = s.rngDead ∧ (s.setPoison l b).spTestFail = s.spTestFail ∧ (s.setPoison l b).drbgCount = s.drbgCount ∧
    (s.setPoison l b).seqLeft = s.seqLeft ∧ (s.setPoison l b).pending = s.pending :=
  ⟨rfl, rfl, rfl, rfl, rfl, rfl, rfl, rfl, rfl, rfl, rfl, rfl, rfl, rfl, rfl, rfl, rfl, rfl, rfl, rfl, rfl, rfl, rfl, rfl, rfl,
   rfl, rfl, rfl, rfl, rfl, rfl, rfl, rfl, rfl, rfl, rfl, rfl, rfl, rfl, rfl, rfl, rfl, rfl, rfl, rfl, rfl, rfl, rfl, rfl, rfl,
   rfl, rfl, rfl, rfl, rfl, rfl, rfl, rfl, rfl, rfl, rfl, rfl, rfl, rfl, rfl, rfl, rfl, rfl, rfl, rfl, rfl, rfl, rfl, rfl, rfl,
   rfl, rfl, rfl, rfl, rfl, rfl, rfl, rfl, rfl, rfl, rfl, rfl, rfl, rfl, rfl, rfl, rfl, rfl, rfl, rfl, rfl, rfl, rfl, rfl, rfl,
   rfl, rfl, rfl, rfl, rfl, rfl, rfl, rfl, rfl, rfl, rfl, rfl, rfl, rfl, rfl, rfl, rfl, rfl, rfl, rfl, rfl, rfl, rfl, rfl, rfl,
   rfl, rfl, rfl, rfl⟩

@[simp] theorem State.lose_fields (s : State) (r : LostRange) :
    (s.lose r).regs = s.regs ∧ (s.lose r).ns = s.ns ∧ (s.lose r).time = s.time ∧ (s.lose r).out = s.out ∧ (s.lose r).latch = s.latch ∧
    (s.lose r).errSec = s.errSec ∧ (s.lose r).wakeReq = s.wakeReq ∧ (s.lose r).threads = s.threads ∧ (s.lose r).cores = s.cores ∧
    (s.lose r).chans = s.chans ∧ (s.lose r).unitPtr = s.unitPtr ∧ (s.lose r).parBusy = s.parBusy ∧ (s.lose r).polarity = s.polarity ∧
    (s.lose r).pegs = s.pegs ∧ (s.lose r).ports = s.ports ∧ (s.lose r).rr = s.rr ∧ (s.lose r).frames = s.frames ∧ (s.lose r).handles = s.handles ∧
    (s.lose r).arrivals = s.arrivals ∧ (s.lose r).fc = s.fc ∧ (s.lose r).pend = s.pend ∧ (s.lose r).actFifo = s.actFifo ∧ (s.lose r).tmIn = s.tmIn ∧
    (s.lose r).actLists = s.actLists ∧ (s.lose r).pushId = s.pushId ∧ (s.lose r).mirrorCount = s.mirrorCount ∧ (s.lose r).tmFifo = s.tmFifo ∧
    (s.lose r).tmAux = s.tmAux ∧ (s.lose r).polAux = s.polAux ∧ (s.lose r).lookups = s.lookups ∧ (s.lose r).overlay = s.overlay ∧
    (s.lose r).draining = s.draining ∧ (s.lose r).learnSeq = s.learnSeq ∧ (s.lose r).parked = s.parked ∧ (s.lose r).emFresh = s.emFresh ∧
    (s.lose r).emCount = s.emCount ∧ (s.lose r).extTaint = s.extTaint ∧ (s.lose r).tblDiffs = s.tblDiffs ∧ (s.lose r).orderSeen = s.orderSeen ∧
    (s.lose r).keys = s.keys ∧ (s.lose r).klwCmd = s.klwCmd ∧ (s.lose r).csubs = s.csubs ∧ (s.lose r).anFail = s.anFail ∧
    (s.lose r).portPll = s.portPll ∧ (s.lose r).tsFifo = s.tsFifo ∧ (s.lose r).cue = s.cue ∧ (s.lose r).peerIn = s.peerIn ∧
    (s.lose r).cueReads = s.cueReads ∧ (s.lose r).cueTags = s.cueTags ∧ (s.lose r).winCommit = s.winCommit ∧ (s.lose r).strapBalls = s.strapBalls ∧
    (s.lose r).funcs = s.funcs ∧ (s.lose r).rrs = s.rrs ∧ (s.lose r).msixTab = s.msixTab ∧ (s.lose r).msixPba = s.msixPba ∧
    (s.lose r).hreads = s.hreads ∧ (s.lose r).hreadCount = s.hreadCount ∧ (s.lose r).entries = s.entries ∧ (s.lose r).entryCount = s.entryCount ∧
    (s.lose r).hwq = s.hwq ∧ (s.lose r).atsCache = s.atsCache ∧ (s.lose r).atsInv = s.atsInv ∧ (s.lose r).doe = s.doe ∧
    (s.lose r).ideSecure = s.ideSecure ∧ (s.lose r).dark = s.dark ∧ (s.lose r).darkDb = s.darkDb ∧ (s.lose r).logFilter = s.logFilter ∧
    (s.lose r).logCons = s.logCons ∧ (s.lose r).ringx = s.ringx ∧ (s.lose r).txJobs = s.txJobs ∧ (s.lose r).txCount = s.txCount ∧
    (s.lose r).txGone = s.txGone ∧ (s.lose r).held = s.held ∧ (s.lose r).stalled = s.stalled ∧ (s.lose r).fullerT = s.fullerT ∧
    (s.lose r).hostOut = s.hostOut ∧ (s.lose r).uc = s.uc ∧ (s.lose r).ucScratch = s.ucScratch ∧ (s.lose r).ucLast = s.ucLast ∧
    (s.lose r).ucPatch = s.ucPatch ∧ (s.lose r).ucBad = s.ucBad ∧ (s.lose r).ucRegime = s.ucRegime ∧ (s.lose r).patchJob = s.patchJob ∧
    (s.lose r).ucDoorbells = s.ucDoorbells ∧ (s.lose r).genCount = s.genCount ∧ (s.lose r).capoOff = s.capoOff ∧ (s.lose r).ccReset = s.ccReset ∧
    (s.lose r).stoCmds = s.stoCmds ∧ (s.lose r).stoCount = s.stoCount ∧ (s.lose r).connx = s.connx ∧ (s.lose r).bow = s.bow ∧
    (s.lose r).bowPtr = s.bowPtr ∧ (s.lose r).icuHold = s.icuHold ∧ (s.lose r).icuStack = s.icuStack ∧ (s.lose r).pwrTarget = s.pwrTarget ∧
    (s.lose r).pwrByReq = s.pwrByReq ∧ (s.lose r).pwrRev = s.pwrRev ∧ (s.lose r).pwrNs = s.pwrNs ∧ (s.lose r).pwrSince = s.pwrSince ∧
    (s.lose r).clkBase = s.clkBase ∧ (s.lose r).pwrSelfRef = s.pwrSelfRef ∧ (s.lose r).vddCore = s.vddCore ∧ (s.lose r).hold = s.hold ∧
    (s.lose r).resetNs = s.resetNs ∧ (s.lose r).bootNs = s.bootNs ∧ (s.lose r).warm = s.warm ∧ (s.lose r).warmSp = s.warmSp ∧
    (s.lose r).warmFlr = s.warmFlr ∧ (s.lose r).diceKeys = s.diceKeys ∧ (s.lose r).diceSealed = s.diceSealed ∧ (s.lose r).diceD = s.diceD ∧
    (s.lose r).diceSvn = s.diceSvn ∧ (s.lose r).diceSlot = s.diceSlot ∧ (s.lose r).diceDebug = s.diceDebug ∧ (s.lose r).measPatch = s.measPatch ∧
    (s.lose r).tid = s.tid ∧ (s.lose r).spdmBox = s.spdmBox ∧ (s.lose r).wdogNs = s.wdogNs ∧ (s.lose r).wdogHeld = s.wdogHeld ∧
    (s.lose r).chalValid = s.chalValid ∧ (s.lose r).jtagIr = s.jtagIr ∧ (s.lose r).rngDead = s.rngDead ∧ (s.lose r).spTestFail = s.spTestFail ∧
    (s.lose r).drbgCount = s.drbgCount ∧ (s.lose r).seqLeft = s.seqLeft ∧ (s.lose r).pending = s.pending :=
  ⟨rfl, rfl, rfl, rfl, rfl, rfl, rfl, rfl, rfl, rfl, rfl, rfl, rfl, rfl, rfl, rfl, rfl, rfl, rfl, rfl, rfl, rfl, rfl, rfl, rfl,
   rfl, rfl, rfl, rfl, rfl, rfl, rfl, rfl, rfl, rfl, rfl, rfl, rfl, rfl, rfl, rfl, rfl, rfl, rfl, rfl, rfl, rfl, rfl, rfl, rfl,
   rfl, rfl, rfl, rfl, rfl, rfl, rfl, rfl, rfl, rfl, rfl, rfl, rfl, rfl, rfl, rfl, rfl, rfl, rfl, rfl, rfl, rfl, rfl, rfl, rfl,
   rfl, rfl, rfl, rfl, rfl, rfl, rfl, rfl, rfl, rfl, rfl, rfl, rfl, rfl, rfl, rfl, rfl, rfl, rfl, rfl, rfl, rfl, rfl, rfl, rfl,
   rfl, rfl, rfl, rfl, rfl, rfl, rfl, rfl, rfl, rfl, rfl, rfl, rfl, rfl, rfl, rfl, rfl, rfl, rfl, rfl, rfl, rfl, rfl, rfl, rfl,
   rfl⟩

@[simp] theorem State.setThr_fields (s : State) (k : Nat) (x : Thread) :
    (s.setThr k x).regs = s.regs ∧ (s.setThr k x).mem = s.mem ∧ (s.setThr k x).lost = s.lost ∧ (s.setThr k x).poison = s.poison ∧
    (s.setThr k x).ns = s.ns ∧ (s.setThr k x).time = s.time ∧ (s.setThr k x).free = s.free ∧ (s.setThr k x).out = s.out ∧
    (s.setThr k x).latch = s.latch ∧ (s.setThr k x).errSec = s.errSec ∧ (s.setThr k x).wakeReq = s.wakeReq ∧ (s.setThr k x).cores = s.cores ∧
    (s.setThr k x).chans = s.chans ∧ (s.setThr k x).unitPtr = s.unitPtr ∧ (s.setThr k x).parBusy = s.parBusy ∧ (s.setThr k x).polarity = s.polarity ∧
    (s.setThr k x).pegs = s.pegs ∧ (s.setThr k x).ports = s.ports ∧ (s.setThr k x).rr = s.rr ∧ (s.setThr k x).frames = s.frames ∧
    (s.setThr k x).handles = s.handles ∧ (s.setThr k x).arrivals = s.arrivals ∧ (s.setThr k x).fc = s.fc ∧ (s.setThr k x).pend = s.pend ∧
    (s.setThr k x).actFifo = s.actFifo ∧ (s.setThr k x).tmIn = s.tmIn ∧ (s.setThr k x).actLists = s.actLists ∧ (s.setThr k x).pushId = s.pushId ∧
    (s.setThr k x).mirrorCount = s.mirrorCount ∧ (s.setThr k x).tmFifo = s.tmFifo ∧ (s.setThr k x).tmAux = s.tmAux ∧
    (s.setThr k x).polAux = s.polAux ∧ (s.setThr k x).lookups = s.lookups ∧ (s.setThr k x).overlay = s.overlay ∧
    (s.setThr k x).draining = s.draining ∧ (s.setThr k x).learnSeq = s.learnSeq ∧ (s.setThr k x).parked = s.parked ∧
    (s.setThr k x).emFresh = s.emFresh ∧ (s.setThr k x).emCount = s.emCount ∧ (s.setThr k x).extTaint = s.extTaint ∧
    (s.setThr k x).tblDiffs = s.tblDiffs ∧ (s.setThr k x).orderSeen = s.orderSeen ∧ (s.setThr k x).keys = s.keys ∧ (s.setThr k x).klwCmd = s.klwCmd ∧
    (s.setThr k x).csubs = s.csubs ∧ (s.setThr k x).anFail = s.anFail ∧ (s.setThr k x).portPll = s.portPll ∧ (s.setThr k x).tsFifo = s.tsFifo ∧
    (s.setThr k x).cue = s.cue ∧ (s.setThr k x).peerIn = s.peerIn ∧ (s.setThr k x).cueReads = s.cueReads ∧ (s.setThr k x).cueTags = s.cueTags ∧
    (s.setThr k x).winCommit = s.winCommit ∧ (s.setThr k x).strapBalls = s.strapBalls ∧ (s.setThr k x).funcs = s.funcs ∧ (s.setThr k x).rrs = s.rrs ∧
    (s.setThr k x).msixTab = s.msixTab ∧ (s.setThr k x).msixPba = s.msixPba ∧ (s.setThr k x).hreads = s.hreads ∧
    (s.setThr k x).hreadCount = s.hreadCount ∧ (s.setThr k x).entries = s.entries ∧ (s.setThr k x).entryCount = s.entryCount ∧
    (s.setThr k x).hwq = s.hwq ∧ (s.setThr k x).atsCache = s.atsCache ∧ (s.setThr k x).atsInv = s.atsInv ∧ (s.setThr k x).doe = s.doe ∧
    (s.setThr k x).ideSecure = s.ideSecure ∧ (s.setThr k x).dark = s.dark ∧ (s.setThr k x).darkDb = s.darkDb ∧
    (s.setThr k x).logFilter = s.logFilter ∧ (s.setThr k x).logCons = s.logCons ∧ (s.setThr k x).ringx = s.ringx ∧ (s.setThr k x).txJobs = s.txJobs ∧
    (s.setThr k x).txCount = s.txCount ∧ (s.setThr k x).txGone = s.txGone ∧ (s.setThr k x).held = s.held ∧ (s.setThr k x).stalled = s.stalled ∧
    (s.setThr k x).fullerT = s.fullerT ∧ (s.setThr k x).hostOut = s.hostOut ∧ (s.setThr k x).uc = s.uc ∧ (s.setThr k x).ucScratch = s.ucScratch ∧
    (s.setThr k x).ucLast = s.ucLast ∧ (s.setThr k x).ucPatch = s.ucPatch ∧ (s.setThr k x).ucBad = s.ucBad ∧ (s.setThr k x).ucRegime = s.ucRegime ∧
    (s.setThr k x).patchJob = s.patchJob ∧ (s.setThr k x).ucDoorbells = s.ucDoorbells ∧ (s.setThr k x).genCount = s.genCount ∧
    (s.setThr k x).capoOff = s.capoOff ∧ (s.setThr k x).ccReset = s.ccReset ∧ (s.setThr k x).stoCmds = s.stoCmds ∧
    (s.setThr k x).stoCount = s.stoCount ∧ (s.setThr k x).connx = s.connx ∧ (s.setThr k x).bow = s.bow ∧ (s.setThr k x).bowPtr = s.bowPtr ∧
    (s.setThr k x).icuHold = s.icuHold ∧ (s.setThr k x).icuStack = s.icuStack ∧ (s.setThr k x).pwrTarget = s.pwrTarget ∧
    (s.setThr k x).pwrByReq = s.pwrByReq ∧ (s.setThr k x).pwrRev = s.pwrRev ∧ (s.setThr k x).pwrNs = s.pwrNs ∧ (s.setThr k x).pwrSince = s.pwrSince ∧
    (s.setThr k x).clkBase = s.clkBase ∧ (s.setThr k x).pwrSelfRef = s.pwrSelfRef ∧ (s.setThr k x).vddCore = s.vddCore ∧
    (s.setThr k x).hold = s.hold ∧ (s.setThr k x).resetNs = s.resetNs ∧ (s.setThr k x).bootNs = s.bootNs ∧ (s.setThr k x).warm = s.warm ∧
    (s.setThr k x).warmSp = s.warmSp ∧ (s.setThr k x).warmFlr = s.warmFlr ∧ (s.setThr k x).diceKeys = s.diceKeys ∧
    (s.setThr k x).diceSealed = s.diceSealed ∧ (s.setThr k x).diceD = s.diceD ∧ (s.setThr k x).diceSvn = s.diceSvn ∧
    (s.setThr k x).diceSlot = s.diceSlot ∧ (s.setThr k x).diceDebug = s.diceDebug ∧ (s.setThr k x).measPatch = s.measPatch ∧
    (s.setThr k x).tid = s.tid ∧ (s.setThr k x).spdmBox = s.spdmBox ∧ (s.setThr k x).wdogNs = s.wdogNs ∧ (s.setThr k x).wdogHeld = s.wdogHeld ∧
    (s.setThr k x).chalValid = s.chalValid ∧ (s.setThr k x).jtagIr = s.jtagIr ∧ (s.setThr k x).rngDead = s.rngDead ∧
    (s.setThr k x).spTestFail = s.spTestFail ∧ (s.setThr k x).drbgCount = s.drbgCount ∧ (s.setThr k x).seqLeft = s.seqLeft ∧
    (s.setThr k x).pending = s.pending :=
  ⟨rfl, rfl, rfl, rfl, rfl, rfl, rfl, rfl, rfl, rfl, rfl, rfl, rfl, rfl, rfl, rfl, rfl, rfl, rfl, rfl, rfl, rfl, rfl, rfl, rfl,
   rfl, rfl, rfl, rfl, rfl, rfl, rfl, rfl, rfl, rfl, rfl, rfl, rfl, rfl, rfl, rfl, rfl, rfl, rfl, rfl, rfl, rfl, rfl, rfl, rfl,
   rfl, rfl, rfl, rfl, rfl, rfl, rfl, rfl, rfl, rfl, rfl, rfl, rfl, rfl, rfl, rfl, rfl, rfl, rfl, rfl, rfl, rfl, rfl, rfl, rfl,
   rfl, rfl, rfl, rfl, rfl, rfl, rfl, rfl, rfl, rfl, rfl, rfl, rfl, rfl, rfl, rfl, rfl, rfl, rfl, rfl, rfl, rfl, rfl, rfl, rfl,
   rfl, rfl, rfl, rfl, rfl, rfl, rfl, rfl, rfl, rfl, rfl, rfl, rfl, rfl, rfl, rfl, rfl, rfl, rfl, rfl, rfl, rfl, rfl, rfl, rfl,
   rfl, rfl, rfl, rfl⟩

@[simp] theorem State.setCore_fields (s : State) (k : Nat) (x : Core) :
    (s.setCore k x).regs = s.regs ∧ (s.setCore k x).mem = s.mem ∧ (s.setCore k x).lost = s.lost ∧ (s.setCore k x).poison = s.poison ∧
    (s.setCore k x).ns = s.ns ∧ (s.setCore k x).time = s.time ∧ (s.setCore k x).free = s.free ∧ (s.setCore k x).out = s.out ∧
    (s.setCore k x).latch = s.latch ∧ (s.setCore k x).errSec = s.errSec ∧ (s.setCore k x).wakeReq = s.wakeReq ∧ (s.setCore k x).threads = s.threads ∧
    (s.setCore k x).chans = s.chans ∧ (s.setCore k x).unitPtr = s.unitPtr ∧ (s.setCore k x).parBusy = s.parBusy ∧
    (s.setCore k x).polarity = s.polarity ∧ (s.setCore k x).pegs = s.pegs ∧ (s.setCore k x).ports = s.ports ∧ (s.setCore k x).rr = s.rr ∧
    (s.setCore k x).frames = s.frames ∧ (s.setCore k x).handles = s.handles ∧ (s.setCore k x).arrivals = s.arrivals ∧ (s.setCore k x).fc = s.fc ∧
    (s.setCore k x).pend = s.pend ∧ (s.setCore k x).actFifo = s.actFifo ∧ (s.setCore k x).tmIn = s.tmIn ∧ (s.setCore k x).actLists = s.actLists ∧
    (s.setCore k x).pushId = s.pushId ∧ (s.setCore k x).mirrorCount = s.mirrorCount ∧ (s.setCore k x).tmFifo = s.tmFifo ∧
    (s.setCore k x).tmAux = s.tmAux ∧ (s.setCore k x).polAux = s.polAux ∧ (s.setCore k x).lookups = s.lookups ∧ (s.setCore k x).overlay = s.overlay ∧
    (s.setCore k x).draining = s.draining ∧ (s.setCore k x).learnSeq = s.learnSeq ∧ (s.setCore k x).parked = s.parked ∧
    (s.setCore k x).emFresh = s.emFresh ∧ (s.setCore k x).emCount = s.emCount ∧ (s.setCore k x).extTaint = s.extTaint ∧
    (s.setCore k x).tblDiffs = s.tblDiffs ∧ (s.setCore k x).orderSeen = s.orderSeen ∧ (s.setCore k x).keys = s.keys ∧
    (s.setCore k x).klwCmd = s.klwCmd ∧ (s.setCore k x).csubs = s.csubs ∧ (s.setCore k x).anFail = s.anFail ∧ (s.setCore k x).portPll = s.portPll ∧
    (s.setCore k x).tsFifo = s.tsFifo ∧ (s.setCore k x).cue = s.cue ∧ (s.setCore k x).peerIn = s.peerIn ∧ (s.setCore k x).cueReads = s.cueReads ∧
    (s.setCore k x).cueTags = s.cueTags ∧ (s.setCore k x).winCommit = s.winCommit ∧ (s.setCore k x).strapBalls = s.strapBalls ∧
    (s.setCore k x).funcs = s.funcs ∧ (s.setCore k x).rrs = s.rrs ∧ (s.setCore k x).msixTab = s.msixTab ∧ (s.setCore k x).msixPba = s.msixPba ∧
    (s.setCore k x).hreads = s.hreads ∧ (s.setCore k x).hreadCount = s.hreadCount ∧ (s.setCore k x).entries = s.entries ∧
    (s.setCore k x).entryCount = s.entryCount ∧ (s.setCore k x).hwq = s.hwq ∧ (s.setCore k x).atsCache = s.atsCache ∧
    (s.setCore k x).atsInv = s.atsInv ∧ (s.setCore k x).doe = s.doe ∧ (s.setCore k x).ideSecure = s.ideSecure ∧ (s.setCore k x).dark = s.dark ∧
    (s.setCore k x).darkDb = s.darkDb ∧ (s.setCore k x).logFilter = s.logFilter ∧ (s.setCore k x).logCons = s.logCons ∧
    (s.setCore k x).ringx = s.ringx ∧ (s.setCore k x).txJobs = s.txJobs ∧ (s.setCore k x).txCount = s.txCount ∧ (s.setCore k x).txGone = s.txGone ∧
    (s.setCore k x).held = s.held ∧ (s.setCore k x).stalled = s.stalled ∧ (s.setCore k x).fullerT = s.fullerT ∧ (s.setCore k x).hostOut = s.hostOut ∧
    (s.setCore k x).uc = s.uc ∧ (s.setCore k x).ucScratch = s.ucScratch ∧ (s.setCore k x).ucLast = s.ucLast ∧ (s.setCore k x).ucPatch = s.ucPatch ∧
    (s.setCore k x).ucBad = s.ucBad ∧ (s.setCore k x).ucRegime = s.ucRegime ∧ (s.setCore k x).patchJob = s.patchJob ∧
    (s.setCore k x).ucDoorbells = s.ucDoorbells ∧ (s.setCore k x).genCount = s.genCount ∧ (s.setCore k x).capoOff = s.capoOff ∧
    (s.setCore k x).ccReset = s.ccReset ∧ (s.setCore k x).stoCmds = s.stoCmds ∧ (s.setCore k x).stoCount = s.stoCount ∧
    (s.setCore k x).connx = s.connx ∧ (s.setCore k x).bow = s.bow ∧ (s.setCore k x).bowPtr = s.bowPtr ∧ (s.setCore k x).icuHold = s.icuHold ∧
    (s.setCore k x).icuStack = s.icuStack ∧ (s.setCore k x).pwrTarget = s.pwrTarget ∧ (s.setCore k x).pwrByReq = s.pwrByReq ∧
    (s.setCore k x).pwrRev = s.pwrRev ∧ (s.setCore k x).pwrNs = s.pwrNs ∧ (s.setCore k x).pwrSince = s.pwrSince ∧
    (s.setCore k x).clkBase = s.clkBase ∧ (s.setCore k x).pwrSelfRef = s.pwrSelfRef ∧ (s.setCore k x).vddCore = s.vddCore ∧
    (s.setCore k x).hold = s.hold ∧ (s.setCore k x).resetNs = s.resetNs ∧ (s.setCore k x).bootNs = s.bootNs ∧ (s.setCore k x).warm = s.warm ∧
    (s.setCore k x).warmSp = s.warmSp ∧ (s.setCore k x).warmFlr = s.warmFlr ∧ (s.setCore k x).diceKeys = s.diceKeys ∧
    (s.setCore k x).diceSealed = s.diceSealed ∧ (s.setCore k x).diceD = s.diceD ∧ (s.setCore k x).diceSvn = s.diceSvn ∧
    (s.setCore k x).diceSlot = s.diceSlot ∧ (s.setCore k x).diceDebug = s.diceDebug ∧ (s.setCore k x).measPatch = s.measPatch ∧
    (s.setCore k x).tid = s.tid ∧ (s.setCore k x).spdmBox = s.spdmBox ∧ (s.setCore k x).wdogNs = s.wdogNs ∧ (s.setCore k x).wdogHeld = s.wdogHeld ∧
    (s.setCore k x).chalValid = s.chalValid ∧ (s.setCore k x).jtagIr = s.jtagIr ∧ (s.setCore k x).rngDead = s.rngDead ∧
    (s.setCore k x).spTestFail = s.spTestFail ∧ (s.setCore k x).drbgCount = s.drbgCount ∧ (s.setCore k x).seqLeft = s.seqLeft ∧
    (s.setCore k x).pending = s.pending :=
  ⟨rfl, rfl, rfl, rfl, rfl, rfl, rfl, rfl, rfl, rfl, rfl, rfl, rfl, rfl, rfl, rfl, rfl, rfl, rfl, rfl, rfl, rfl, rfl, rfl, rfl,
   rfl, rfl, rfl, rfl, rfl, rfl, rfl, rfl, rfl, rfl, rfl, rfl, rfl, rfl, rfl, rfl, rfl, rfl, rfl, rfl, rfl, rfl, rfl, rfl, rfl,
   rfl, rfl, rfl, rfl, rfl, rfl, rfl, rfl, rfl, rfl, rfl, rfl, rfl, rfl, rfl, rfl, rfl, rfl, rfl, rfl, rfl, rfl, rfl, rfl, rfl,
   rfl, rfl, rfl, rfl, rfl, rfl, rfl, rfl, rfl, rfl, rfl, rfl, rfl, rfl, rfl, rfl, rfl, rfl, rfl, rfl, rfl, rfl, rfl, rfl, rfl,
   rfl, rfl, rfl, rfl, rfl, rfl, rfl, rfl, rfl, rfl, rfl, rfl, rfl, rfl, rfl, rfl, rfl, rfl, rfl, rfl, rfl, rfl, rfl, rfl, rfl,
   rfl, rfl, rfl, rfl⟩

@[simp] theorem State.setChan_fields (s : State) (k : Nat) (x : Chan) :
    (s.setChan k x).regs = s.regs ∧ (s.setChan k x).mem = s.mem ∧ (s.setChan k x).lost = s.lost ∧ (s.setChan k x).poison = s.poison ∧
    (s.setChan k x).ns = s.ns ∧ (s.setChan k x).time = s.time ∧ (s.setChan k x).free = s.free ∧ (s.setChan k x).out = s.out ∧
    (s.setChan k x).latch = s.latch ∧ (s.setChan k x).errSec = s.errSec ∧ (s.setChan k x).wakeReq = s.wakeReq ∧ (s.setChan k x).threads = s.threads ∧
    (s.setChan k x).cores = s.cores ∧ (s.setChan k x).unitPtr = s.unitPtr ∧ (s.setChan k x).parBusy = s.parBusy ∧
    (s.setChan k x).polarity = s.polarity ∧ (s.setChan k x).pegs = s.pegs ∧ (s.setChan k x).ports = s.ports ∧ (s.setChan k x).rr = s.rr ∧
    (s.setChan k x).frames = s.frames ∧ (s.setChan k x).handles = s.handles ∧ (s.setChan k x).arrivals = s.arrivals ∧ (s.setChan k x).fc = s.fc ∧
    (s.setChan k x).pend = s.pend ∧ (s.setChan k x).actFifo = s.actFifo ∧ (s.setChan k x).tmIn = s.tmIn ∧ (s.setChan k x).actLists = s.actLists ∧
    (s.setChan k x).pushId = s.pushId ∧ (s.setChan k x).mirrorCount = s.mirrorCount ∧ (s.setChan k x).tmFifo = s.tmFifo ∧
    (s.setChan k x).tmAux = s.tmAux ∧ (s.setChan k x).polAux = s.polAux ∧ (s.setChan k x).lookups = s.lookups ∧ (s.setChan k x).overlay = s.overlay ∧
    (s.setChan k x).draining = s.draining ∧ (s.setChan k x).learnSeq = s.learnSeq ∧ (s.setChan k x).parked = s.parked ∧
    (s.setChan k x).emFresh = s.emFresh ∧ (s.setChan k x).emCount = s.emCount ∧ (s.setChan k x).extTaint = s.extTaint ∧
    (s.setChan k x).tblDiffs = s.tblDiffs ∧ (s.setChan k x).orderSeen = s.orderSeen ∧ (s.setChan k x).keys = s.keys ∧
    (s.setChan k x).klwCmd = s.klwCmd ∧ (s.setChan k x).csubs = s.csubs ∧ (s.setChan k x).anFail = s.anFail ∧ (s.setChan k x).portPll = s.portPll ∧
    (s.setChan k x).tsFifo = s.tsFifo ∧ (s.setChan k x).cue = s.cue ∧ (s.setChan k x).peerIn = s.peerIn ∧ (s.setChan k x).cueReads = s.cueReads ∧
    (s.setChan k x).cueTags = s.cueTags ∧ (s.setChan k x).winCommit = s.winCommit ∧ (s.setChan k x).strapBalls = s.strapBalls ∧
    (s.setChan k x).funcs = s.funcs ∧ (s.setChan k x).rrs = s.rrs ∧ (s.setChan k x).msixTab = s.msixTab ∧ (s.setChan k x).msixPba = s.msixPba ∧
    (s.setChan k x).hreads = s.hreads ∧ (s.setChan k x).hreadCount = s.hreadCount ∧ (s.setChan k x).entries = s.entries ∧
    (s.setChan k x).entryCount = s.entryCount ∧ (s.setChan k x).hwq = s.hwq ∧ (s.setChan k x).atsCache = s.atsCache ∧
    (s.setChan k x).atsInv = s.atsInv ∧ (s.setChan k x).doe = s.doe ∧ (s.setChan k x).ideSecure = s.ideSecure ∧ (s.setChan k x).dark = s.dark ∧
    (s.setChan k x).darkDb = s.darkDb ∧ (s.setChan k x).logFilter = s.logFilter ∧ (s.setChan k x).logCons = s.logCons ∧
    (s.setChan k x).ringx = s.ringx ∧ (s.setChan k x).txJobs = s.txJobs ∧ (s.setChan k x).txCount = s.txCount ∧ (s.setChan k x).txGone = s.txGone ∧
    (s.setChan k x).held = s.held ∧ (s.setChan k x).stalled = s.stalled ∧ (s.setChan k x).fullerT = s.fullerT ∧ (s.setChan k x).hostOut = s.hostOut ∧
    (s.setChan k x).uc = s.uc ∧ (s.setChan k x).ucScratch = s.ucScratch ∧ (s.setChan k x).ucLast = s.ucLast ∧ (s.setChan k x).ucPatch = s.ucPatch ∧
    (s.setChan k x).ucBad = s.ucBad ∧ (s.setChan k x).ucRegime = s.ucRegime ∧ (s.setChan k x).patchJob = s.patchJob ∧
    (s.setChan k x).ucDoorbells = s.ucDoorbells ∧ (s.setChan k x).genCount = s.genCount ∧ (s.setChan k x).capoOff = s.capoOff ∧
    (s.setChan k x).ccReset = s.ccReset ∧ (s.setChan k x).stoCmds = s.stoCmds ∧ (s.setChan k x).stoCount = s.stoCount ∧
    (s.setChan k x).connx = s.connx ∧ (s.setChan k x).bow = s.bow ∧ (s.setChan k x).bowPtr = s.bowPtr ∧ (s.setChan k x).icuHold = s.icuHold ∧
    (s.setChan k x).icuStack = s.icuStack ∧ (s.setChan k x).pwrTarget = s.pwrTarget ∧ (s.setChan k x).pwrByReq = s.pwrByReq ∧
    (s.setChan k x).pwrRev = s.pwrRev ∧ (s.setChan k x).pwrNs = s.pwrNs ∧ (s.setChan k x).pwrSince = s.pwrSince ∧
    (s.setChan k x).clkBase = s.clkBase ∧ (s.setChan k x).pwrSelfRef = s.pwrSelfRef ∧ (s.setChan k x).vddCore = s.vddCore ∧
    (s.setChan k x).hold = s.hold ∧ (s.setChan k x).resetNs = s.resetNs ∧ (s.setChan k x).bootNs = s.bootNs ∧ (s.setChan k x).warm = s.warm ∧
    (s.setChan k x).warmSp = s.warmSp ∧ (s.setChan k x).warmFlr = s.warmFlr ∧ (s.setChan k x).diceKeys = s.diceKeys ∧
    (s.setChan k x).diceSealed = s.diceSealed ∧ (s.setChan k x).diceD = s.diceD ∧ (s.setChan k x).diceSvn = s.diceSvn ∧
    (s.setChan k x).diceSlot = s.diceSlot ∧ (s.setChan k x).diceDebug = s.diceDebug ∧ (s.setChan k x).measPatch = s.measPatch ∧
    (s.setChan k x).tid = s.tid ∧ (s.setChan k x).spdmBox = s.spdmBox ∧ (s.setChan k x).wdogNs = s.wdogNs ∧ (s.setChan k x).wdogHeld = s.wdogHeld ∧
    (s.setChan k x).chalValid = s.chalValid ∧ (s.setChan k x).jtagIr = s.jtagIr ∧ (s.setChan k x).rngDead = s.rngDead ∧
    (s.setChan k x).spTestFail = s.spTestFail ∧ (s.setChan k x).drbgCount = s.drbgCount ∧ (s.setChan k x).seqLeft = s.seqLeft ∧
    (s.setChan k x).pending = s.pending :=
  ⟨rfl, rfl, rfl, rfl, rfl, rfl, rfl, rfl, rfl, rfl, rfl, rfl, rfl, rfl, rfl, rfl, rfl, rfl, rfl, rfl, rfl, rfl, rfl, rfl, rfl,
   rfl, rfl, rfl, rfl, rfl, rfl, rfl, rfl, rfl, rfl, rfl, rfl, rfl, rfl, rfl, rfl, rfl, rfl, rfl, rfl, rfl, rfl, rfl, rfl, rfl,
   rfl, rfl, rfl, rfl, rfl, rfl, rfl, rfl, rfl, rfl, rfl, rfl, rfl, rfl, rfl, rfl, rfl, rfl, rfl, rfl, rfl, rfl, rfl, rfl, rfl,
   rfl, rfl, rfl, rfl, rfl, rfl, rfl, rfl, rfl, rfl, rfl, rfl, rfl, rfl, rfl, rfl, rfl, rfl, rfl, rfl, rfl, rfl, rfl, rfl, rfl,
   rfl, rfl, rfl, rfl, rfl, rfl, rfl, rfl, rfl, rfl, rfl, rfl, rfl, rfl, rfl, rfl, rfl, rfl, rfl, rfl, rfl, rfl, rfl, rfl, rfl,
   rfl, rfl, rfl, rfl⟩

@[simp] theorem State.setPeg_fields (s : State) (k : Nat) (x : Peg) :
    (s.setPeg k x).regs = s.regs ∧ (s.setPeg k x).mem = s.mem ∧ (s.setPeg k x).lost = s.lost ∧ (s.setPeg k x).poison = s.poison ∧
    (s.setPeg k x).ns = s.ns ∧ (s.setPeg k x).time = s.time ∧ (s.setPeg k x).free = s.free ∧ (s.setPeg k x).out = s.out ∧
    (s.setPeg k x).latch = s.latch ∧ (s.setPeg k x).errSec = s.errSec ∧ (s.setPeg k x).wakeReq = s.wakeReq ∧ (s.setPeg k x).threads = s.threads ∧
    (s.setPeg k x).cores = s.cores ∧ (s.setPeg k x).chans = s.chans ∧ (s.setPeg k x).unitPtr = s.unitPtr ∧ (s.setPeg k x).parBusy = s.parBusy ∧
    (s.setPeg k x).polarity = s.polarity ∧ (s.setPeg k x).ports = s.ports ∧ (s.setPeg k x).rr = s.rr ∧ (s.setPeg k x).frames = s.frames ∧
    (s.setPeg k x).handles = s.handles ∧ (s.setPeg k x).arrivals = s.arrivals ∧ (s.setPeg k x).fc = s.fc ∧ (s.setPeg k x).pend = s.pend ∧
    (s.setPeg k x).actFifo = s.actFifo ∧ (s.setPeg k x).tmIn = s.tmIn ∧ (s.setPeg k x).actLists = s.actLists ∧ (s.setPeg k x).pushId = s.pushId ∧
    (s.setPeg k x).mirrorCount = s.mirrorCount ∧ (s.setPeg k x).tmFifo = s.tmFifo ∧ (s.setPeg k x).tmAux = s.tmAux ∧
    (s.setPeg k x).polAux = s.polAux ∧ (s.setPeg k x).lookups = s.lookups ∧ (s.setPeg k x).overlay = s.overlay ∧
    (s.setPeg k x).draining = s.draining ∧ (s.setPeg k x).learnSeq = s.learnSeq ∧ (s.setPeg k x).parked = s.parked ∧
    (s.setPeg k x).emFresh = s.emFresh ∧ (s.setPeg k x).emCount = s.emCount ∧ (s.setPeg k x).extTaint = s.extTaint ∧
    (s.setPeg k x).tblDiffs = s.tblDiffs ∧ (s.setPeg k x).orderSeen = s.orderSeen ∧ (s.setPeg k x).keys = s.keys ∧ (s.setPeg k x).klwCmd = s.klwCmd ∧
    (s.setPeg k x).csubs = s.csubs ∧ (s.setPeg k x).anFail = s.anFail ∧ (s.setPeg k x).portPll = s.portPll ∧ (s.setPeg k x).tsFifo = s.tsFifo ∧
    (s.setPeg k x).cue = s.cue ∧ (s.setPeg k x).peerIn = s.peerIn ∧ (s.setPeg k x).cueReads = s.cueReads ∧ (s.setPeg k x).cueTags = s.cueTags ∧
    (s.setPeg k x).winCommit = s.winCommit ∧ (s.setPeg k x).strapBalls = s.strapBalls ∧ (s.setPeg k x).funcs = s.funcs ∧ (s.setPeg k x).rrs = s.rrs ∧
    (s.setPeg k x).msixTab = s.msixTab ∧ (s.setPeg k x).msixPba = s.msixPba ∧ (s.setPeg k x).hreads = s.hreads ∧
    (s.setPeg k x).hreadCount = s.hreadCount ∧ (s.setPeg k x).entries = s.entries ∧ (s.setPeg k x).entryCount = s.entryCount ∧
    (s.setPeg k x).hwq = s.hwq ∧ (s.setPeg k x).atsCache = s.atsCache ∧ (s.setPeg k x).atsInv = s.atsInv ∧ (s.setPeg k x).doe = s.doe ∧
    (s.setPeg k x).ideSecure = s.ideSecure ∧ (s.setPeg k x).dark = s.dark ∧ (s.setPeg k x).darkDb = s.darkDb ∧
    (s.setPeg k x).logFilter = s.logFilter ∧ (s.setPeg k x).logCons = s.logCons ∧ (s.setPeg k x).ringx = s.ringx ∧ (s.setPeg k x).txJobs = s.txJobs ∧
    (s.setPeg k x).txCount = s.txCount ∧ (s.setPeg k x).txGone = s.txGone ∧ (s.setPeg k x).held = s.held ∧ (s.setPeg k x).stalled = s.stalled ∧
    (s.setPeg k x).fullerT = s.fullerT ∧ (s.setPeg k x).hostOut = s.hostOut ∧ (s.setPeg k x).uc = s.uc ∧ (s.setPeg k x).ucScratch = s.ucScratch ∧
    (s.setPeg k x).ucLast = s.ucLast ∧ (s.setPeg k x).ucPatch = s.ucPatch ∧ (s.setPeg k x).ucBad = s.ucBad ∧ (s.setPeg k x).ucRegime = s.ucRegime ∧
    (s.setPeg k x).patchJob = s.patchJob ∧ (s.setPeg k x).ucDoorbells = s.ucDoorbells ∧ (s.setPeg k x).genCount = s.genCount ∧
    (s.setPeg k x).capoOff = s.capoOff ∧ (s.setPeg k x).ccReset = s.ccReset ∧ (s.setPeg k x).stoCmds = s.stoCmds ∧
    (s.setPeg k x).stoCount = s.stoCount ∧ (s.setPeg k x).connx = s.connx ∧ (s.setPeg k x).bow = s.bow ∧ (s.setPeg k x).bowPtr = s.bowPtr ∧
    (s.setPeg k x).icuHold = s.icuHold ∧ (s.setPeg k x).icuStack = s.icuStack ∧ (s.setPeg k x).pwrTarget = s.pwrTarget ∧
    (s.setPeg k x).pwrByReq = s.pwrByReq ∧ (s.setPeg k x).pwrRev = s.pwrRev ∧ (s.setPeg k x).pwrNs = s.pwrNs ∧ (s.setPeg k x).pwrSince = s.pwrSince ∧
    (s.setPeg k x).clkBase = s.clkBase ∧ (s.setPeg k x).pwrSelfRef = s.pwrSelfRef ∧ (s.setPeg k x).vddCore = s.vddCore ∧
    (s.setPeg k x).hold = s.hold ∧ (s.setPeg k x).resetNs = s.resetNs ∧ (s.setPeg k x).bootNs = s.bootNs ∧ (s.setPeg k x).warm = s.warm ∧
    (s.setPeg k x).warmSp = s.warmSp ∧ (s.setPeg k x).warmFlr = s.warmFlr ∧ (s.setPeg k x).diceKeys = s.diceKeys ∧
    (s.setPeg k x).diceSealed = s.diceSealed ∧ (s.setPeg k x).diceD = s.diceD ∧ (s.setPeg k x).diceSvn = s.diceSvn ∧
    (s.setPeg k x).diceSlot = s.diceSlot ∧ (s.setPeg k x).diceDebug = s.diceDebug ∧ (s.setPeg k x).measPatch = s.measPatch ∧
    (s.setPeg k x).tid = s.tid ∧ (s.setPeg k x).spdmBox = s.spdmBox ∧ (s.setPeg k x).wdogNs = s.wdogNs ∧ (s.setPeg k x).wdogHeld = s.wdogHeld ∧
    (s.setPeg k x).chalValid = s.chalValid ∧ (s.setPeg k x).jtagIr = s.jtagIr ∧ (s.setPeg k x).rngDead = s.rngDead ∧
    (s.setPeg k x).spTestFail = s.spTestFail ∧ (s.setPeg k x).drbgCount = s.drbgCount ∧ (s.setPeg k x).seqLeft = s.seqLeft ∧
    (s.setPeg k x).pending = s.pending :=
  ⟨rfl, rfl, rfl, rfl, rfl, rfl, rfl, rfl, rfl, rfl, rfl, rfl, rfl, rfl, rfl, rfl, rfl, rfl, rfl, rfl, rfl, rfl, rfl, rfl, rfl,
   rfl, rfl, rfl, rfl, rfl, rfl, rfl, rfl, rfl, rfl, rfl, rfl, rfl, rfl, rfl, rfl, rfl, rfl, rfl, rfl, rfl, rfl, rfl, rfl, rfl,
   rfl, rfl, rfl, rfl, rfl, rfl, rfl, rfl, rfl, rfl, rfl, rfl, rfl, rfl, rfl, rfl, rfl, rfl, rfl, rfl, rfl, rfl, rfl, rfl, rfl,
   rfl, rfl, rfl, rfl, rfl, rfl, rfl, rfl, rfl, rfl, rfl, rfl, rfl, rfl, rfl, rfl, rfl, rfl, rfl, rfl, rfl, rfl, rfl, rfl, rfl,
   rfl, rfl, rfl, rfl, rfl, rfl, rfl, rfl, rfl, rfl, rfl, rfl, rfl, rfl, rfl, rfl, rfl, rfl, rfl, rfl, rfl, rfl, rfl, rfl, rfl,
   rfl, rfl, rfl, rfl⟩

@[simp] theorem State.setFrame_fields (s : State) (h : Nat) (f : Frame) :
    (s.setFrame h f).regs = s.regs ∧ (s.setFrame h f).mem = s.mem ∧ (s.setFrame h f).lost = s.lost ∧ (s.setFrame h f).poison = s.poison ∧
    (s.setFrame h f).ns = s.ns ∧ (s.setFrame h f).time = s.time ∧ (s.setFrame h f).free = s.free ∧ (s.setFrame h f).out = s.out ∧
    (s.setFrame h f).latch = s.latch ∧ (s.setFrame h f).errSec = s.errSec ∧ (s.setFrame h f).wakeReq = s.wakeReq ∧
    (s.setFrame h f).threads = s.threads ∧ (s.setFrame h f).cores = s.cores ∧ (s.setFrame h f).chans = s.chans ∧
    (s.setFrame h f).unitPtr = s.unitPtr ∧ (s.setFrame h f).parBusy = s.parBusy ∧ (s.setFrame h f).polarity = s.polarity ∧
    (s.setFrame h f).pegs = s.pegs ∧ (s.setFrame h f).ports = s.ports ∧ (s.setFrame h f).rr = s.rr ∧ (s.setFrame h f).handles = s.handles ∧
    (s.setFrame h f).arrivals = s.arrivals ∧ (s.setFrame h f).fc = s.fc ∧ (s.setFrame h f).pend = s.pend ∧ (s.setFrame h f).actFifo = s.actFifo ∧
    (s.setFrame h f).tmIn = s.tmIn ∧ (s.setFrame h f).actLists = s.actLists ∧ (s.setFrame h f).pushId = s.pushId ∧
    (s.setFrame h f).mirrorCount = s.mirrorCount ∧ (s.setFrame h f).tmFifo = s.tmFifo ∧ (s.setFrame h f).tmAux = s.tmAux ∧
    (s.setFrame h f).polAux = s.polAux ∧ (s.setFrame h f).lookups = s.lookups ∧ (s.setFrame h f).overlay = s.overlay ∧
    (s.setFrame h f).draining = s.draining ∧ (s.setFrame h f).learnSeq = s.learnSeq ∧ (s.setFrame h f).parked = s.parked ∧
    (s.setFrame h f).emFresh = s.emFresh ∧ (s.setFrame h f).emCount = s.emCount ∧ (s.setFrame h f).extTaint = s.extTaint ∧
    (s.setFrame h f).tblDiffs = s.tblDiffs ∧ (s.setFrame h f).orderSeen = s.orderSeen ∧ (s.setFrame h f).keys = s.keys ∧
    (s.setFrame h f).klwCmd = s.klwCmd ∧ (s.setFrame h f).csubs = s.csubs ∧ (s.setFrame h f).anFail = s.anFail ∧
    (s.setFrame h f).portPll = s.portPll ∧ (s.setFrame h f).tsFifo = s.tsFifo ∧ (s.setFrame h f).cue = s.cue ∧ (s.setFrame h f).peerIn = s.peerIn ∧
    (s.setFrame h f).cueReads = s.cueReads ∧ (s.setFrame h f).cueTags = s.cueTags ∧ (s.setFrame h f).winCommit = s.winCommit ∧
    (s.setFrame h f).strapBalls = s.strapBalls ∧ (s.setFrame h f).funcs = s.funcs ∧ (s.setFrame h f).rrs = s.rrs ∧
    (s.setFrame h f).msixTab = s.msixTab ∧ (s.setFrame h f).msixPba = s.msixPba ∧ (s.setFrame h f).hreads = s.hreads ∧
    (s.setFrame h f).hreadCount = s.hreadCount ∧ (s.setFrame h f).entries = s.entries ∧ (s.setFrame h f).entryCount = s.entryCount ∧
    (s.setFrame h f).hwq = s.hwq ∧ (s.setFrame h f).atsCache = s.atsCache ∧ (s.setFrame h f).atsInv = s.atsInv ∧ (s.setFrame h f).doe = s.doe ∧
    (s.setFrame h f).ideSecure = s.ideSecure ∧ (s.setFrame h f).dark = s.dark ∧ (s.setFrame h f).darkDb = s.darkDb ∧
    (s.setFrame h f).logFilter = s.logFilter ∧ (s.setFrame h f).logCons = s.logCons ∧ (s.setFrame h f).ringx = s.ringx ∧
    (s.setFrame h f).txJobs = s.txJobs ∧ (s.setFrame h f).txCount = s.txCount ∧ (s.setFrame h f).txGone = s.txGone ∧ (s.setFrame h f).held = s.held ∧
    (s.setFrame h f).stalled = s.stalled ∧ (s.setFrame h f).fullerT = s.fullerT ∧ (s.setFrame h f).hostOut = s.hostOut ∧ (s.setFrame h f).uc = s.uc ∧
    (s.setFrame h f).ucScratch = s.ucScratch ∧ (s.setFrame h f).ucLast = s.ucLast ∧ (s.setFrame h f).ucPatch = s.ucPatch ∧
    (s.setFrame h f).ucBad = s.ucBad ∧ (s.setFrame h f).ucRegime = s.ucRegime ∧ (s.setFrame h f).patchJob = s.patchJob ∧
    (s.setFrame h f).ucDoorbells = s.ucDoorbells ∧ (s.setFrame h f).genCount = s.genCount ∧ (s.setFrame h f).capoOff = s.capoOff ∧
    (s.setFrame h f).ccReset = s.ccReset ∧ (s.setFrame h f).stoCmds = s.stoCmds ∧ (s.setFrame h f).stoCount = s.stoCount ∧
    (s.setFrame h f).connx = s.connx ∧ (s.setFrame h f).bow = s.bow ∧ (s.setFrame h f).bowPtr = s.bowPtr ∧ (s.setFrame h f).icuHold = s.icuHold ∧
    (s.setFrame h f).icuStack = s.icuStack ∧ (s.setFrame h f).pwrTarget = s.pwrTarget ∧ (s.setFrame h f).pwrByReq = s.pwrByReq ∧
    (s.setFrame h f).pwrRev = s.pwrRev ∧ (s.setFrame h f).pwrNs = s.pwrNs ∧ (s.setFrame h f).pwrSince = s.pwrSince ∧
    (s.setFrame h f).clkBase = s.clkBase ∧ (s.setFrame h f).pwrSelfRef = s.pwrSelfRef ∧ (s.setFrame h f).vddCore = s.vddCore ∧
    (s.setFrame h f).hold = s.hold ∧ (s.setFrame h f).resetNs = s.resetNs ∧ (s.setFrame h f).bootNs = s.bootNs ∧ (s.setFrame h f).warm = s.warm ∧
    (s.setFrame h f).warmSp = s.warmSp ∧ (s.setFrame h f).warmFlr = s.warmFlr ∧ (s.setFrame h f).diceKeys = s.diceKeys ∧
    (s.setFrame h f).diceSealed = s.diceSealed ∧ (s.setFrame h f).diceD = s.diceD ∧ (s.setFrame h f).diceSvn = s.diceSvn ∧
    (s.setFrame h f).diceSlot = s.diceSlot ∧ (s.setFrame h f).diceDebug = s.diceDebug ∧ (s.setFrame h f).measPatch = s.measPatch ∧
    (s.setFrame h f).tid = s.tid ∧ (s.setFrame h f).spdmBox = s.spdmBox ∧ (s.setFrame h f).wdogNs = s.wdogNs ∧
    (s.setFrame h f).wdogHeld = s.wdogHeld ∧ (s.setFrame h f).chalValid = s.chalValid ∧ (s.setFrame h f).jtagIr = s.jtagIr ∧
    (s.setFrame h f).rngDead = s.rngDead ∧ (s.setFrame h f).spTestFail = s.spTestFail ∧ (s.setFrame h f).drbgCount = s.drbgCount ∧
    (s.setFrame h f).seqLeft = s.seqLeft ∧ (s.setFrame h f).pending = s.pending :=
  ⟨rfl, rfl, rfl, rfl, rfl, rfl, rfl, rfl, rfl, rfl, rfl, rfl, rfl, rfl, rfl, rfl, rfl, rfl, rfl, rfl, rfl, rfl, rfl, rfl, rfl,
   rfl, rfl, rfl, rfl, rfl, rfl, rfl, rfl, rfl, rfl, rfl, rfl, rfl, rfl, rfl, rfl, rfl, rfl, rfl, rfl, rfl, rfl, rfl, rfl, rfl,
   rfl, rfl, rfl, rfl, rfl, rfl, rfl, rfl, rfl, rfl, rfl, rfl, rfl, rfl, rfl, rfl, rfl, rfl, rfl, rfl, rfl, rfl, rfl, rfl, rfl,
   rfl, rfl, rfl, rfl, rfl, rfl, rfl, rfl, rfl, rfl, rfl, rfl, rfl, rfl, rfl, rfl, rfl, rfl, rfl, rfl, rfl, rfl, rfl, rfl, rfl,
   rfl, rfl, rfl, rfl, rfl, rfl, rfl, rfl, rfl, rfl, rfl, rfl, rfl, rfl, rfl, rfl, rfl, rfl, rfl, rfl, rfl, rfl, rfl, rfl, rfl,
   rfl, rfl, rfl, rfl⟩

@[simp] theorem State.setSlot_fields (s : State) (i : Nat) (c : FcSlot) :
    (s.setSlot i c).regs = s.regs ∧ (s.setSlot i c).mem = s.mem ∧ (s.setSlot i c).lost = s.lost ∧ (s.setSlot i c).poison = s.poison ∧
    (s.setSlot i c).ns = s.ns ∧ (s.setSlot i c).time = s.time ∧ (s.setSlot i c).free = s.free ∧ (s.setSlot i c).out = s.out ∧
    (s.setSlot i c).latch = s.latch ∧ (s.setSlot i c).errSec = s.errSec ∧ (s.setSlot i c).wakeReq = s.wakeReq ∧ (s.setSlot i c).threads = s.threads ∧
    (s.setSlot i c).cores = s.cores ∧ (s.setSlot i c).chans = s.chans ∧ (s.setSlot i c).unitPtr = s.unitPtr ∧ (s.setSlot i c).parBusy = s.parBusy ∧
    (s.setSlot i c).polarity = s.polarity ∧ (s.setSlot i c).pegs = s.pegs ∧ (s.setSlot i c).ports = s.ports ∧ (s.setSlot i c).rr = s.rr ∧
    (s.setSlot i c).frames = s.frames ∧ (s.setSlot i c).handles = s.handles ∧ (s.setSlot i c).arrivals = s.arrivals ∧ (s.setSlot i c).pend = s.pend ∧
    (s.setSlot i c).actFifo = s.actFifo ∧ (s.setSlot i c).tmIn = s.tmIn ∧ (s.setSlot i c).actLists = s.actLists ∧ (s.setSlot i c).pushId = s.pushId ∧
    (s.setSlot i c).mirrorCount = s.mirrorCount ∧ (s.setSlot i c).tmFifo = s.tmFifo ∧ (s.setSlot i c).tmAux = s.tmAux ∧
    (s.setSlot i c).polAux = s.polAux ∧ (s.setSlot i c).lookups = s.lookups ∧ (s.setSlot i c).overlay = s.overlay ∧
    (s.setSlot i c).draining = s.draining ∧ (s.setSlot i c).learnSeq = s.learnSeq ∧ (s.setSlot i c).parked = s.parked ∧
    (s.setSlot i c).emFresh = s.emFresh ∧ (s.setSlot i c).emCount = s.emCount ∧ (s.setSlot i c).extTaint = s.extTaint ∧
    (s.setSlot i c).tblDiffs = s.tblDiffs ∧ (s.setSlot i c).orderSeen = s.orderSeen ∧ (s.setSlot i c).keys = s.keys ∧
    (s.setSlot i c).klwCmd = s.klwCmd ∧ (s.setSlot i c).csubs = s.csubs ∧ (s.setSlot i c).anFail = s.anFail ∧ (s.setSlot i c).portPll = s.portPll ∧
    (s.setSlot i c).tsFifo = s.tsFifo ∧ (s.setSlot i c).cue = s.cue ∧ (s.setSlot i c).peerIn = s.peerIn ∧ (s.setSlot i c).cueReads = s.cueReads ∧
    (s.setSlot i c).cueTags = s.cueTags ∧ (s.setSlot i c).winCommit = s.winCommit ∧ (s.setSlot i c).strapBalls = s.strapBalls ∧
    (s.setSlot i c).funcs = s.funcs ∧ (s.setSlot i c).rrs = s.rrs ∧ (s.setSlot i c).msixTab = s.msixTab ∧ (s.setSlot i c).msixPba = s.msixPba ∧
    (s.setSlot i c).hreads = s.hreads ∧ (s.setSlot i c).hreadCount = s.hreadCount ∧ (s.setSlot i c).entries = s.entries ∧
    (s.setSlot i c).entryCount = s.entryCount ∧ (s.setSlot i c).hwq = s.hwq ∧ (s.setSlot i c).atsCache = s.atsCache ∧
    (s.setSlot i c).atsInv = s.atsInv ∧ (s.setSlot i c).doe = s.doe ∧ (s.setSlot i c).ideSecure = s.ideSecure ∧ (s.setSlot i c).dark = s.dark ∧
    (s.setSlot i c).darkDb = s.darkDb ∧ (s.setSlot i c).logFilter = s.logFilter ∧ (s.setSlot i c).logCons = s.logCons ∧
    (s.setSlot i c).ringx = s.ringx ∧ (s.setSlot i c).txJobs = s.txJobs ∧ (s.setSlot i c).txCount = s.txCount ∧ (s.setSlot i c).txGone = s.txGone ∧
    (s.setSlot i c).held = s.held ∧ (s.setSlot i c).stalled = s.stalled ∧ (s.setSlot i c).fullerT = s.fullerT ∧ (s.setSlot i c).hostOut = s.hostOut ∧
    (s.setSlot i c).uc = s.uc ∧ (s.setSlot i c).ucScratch = s.ucScratch ∧ (s.setSlot i c).ucLast = s.ucLast ∧ (s.setSlot i c).ucPatch = s.ucPatch ∧
    (s.setSlot i c).ucBad = s.ucBad ∧ (s.setSlot i c).ucRegime = s.ucRegime ∧ (s.setSlot i c).patchJob = s.patchJob ∧
    (s.setSlot i c).ucDoorbells = s.ucDoorbells ∧ (s.setSlot i c).genCount = s.genCount ∧ (s.setSlot i c).capoOff = s.capoOff ∧
    (s.setSlot i c).ccReset = s.ccReset ∧ (s.setSlot i c).stoCmds = s.stoCmds ∧ (s.setSlot i c).stoCount = s.stoCount ∧
    (s.setSlot i c).connx = s.connx ∧ (s.setSlot i c).bow = s.bow ∧ (s.setSlot i c).bowPtr = s.bowPtr ∧ (s.setSlot i c).icuHold = s.icuHold ∧
    (s.setSlot i c).icuStack = s.icuStack ∧ (s.setSlot i c).pwrTarget = s.pwrTarget ∧ (s.setSlot i c).pwrByReq = s.pwrByReq ∧
    (s.setSlot i c).pwrRev = s.pwrRev ∧ (s.setSlot i c).pwrNs = s.pwrNs ∧ (s.setSlot i c).pwrSince = s.pwrSince ∧
    (s.setSlot i c).clkBase = s.clkBase ∧ (s.setSlot i c).pwrSelfRef = s.pwrSelfRef ∧ (s.setSlot i c).vddCore = s.vddCore ∧
    (s.setSlot i c).hold = s.hold ∧ (s.setSlot i c).resetNs = s.resetNs ∧ (s.setSlot i c).bootNs = s.bootNs ∧ (s.setSlot i c).warm = s.warm ∧
    (s.setSlot i c).warmSp = s.warmSp ∧ (s.setSlot i c).warmFlr = s.warmFlr ∧ (s.setSlot i c).diceKeys = s.diceKeys ∧
    (s.setSlot i c).diceSealed = s.diceSealed ∧ (s.setSlot i c).diceD = s.diceD ∧ (s.setSlot i c).diceSvn = s.diceSvn ∧
    (s.setSlot i c).diceSlot = s.diceSlot ∧ (s.setSlot i c).diceDebug = s.diceDebug ∧ (s.setSlot i c).measPatch = s.measPatch ∧
    (s.setSlot i c).tid = s.tid ∧ (s.setSlot i c).spdmBox = s.spdmBox ∧ (s.setSlot i c).wdogNs = s.wdogNs ∧ (s.setSlot i c).wdogHeld = s.wdogHeld ∧
    (s.setSlot i c).chalValid = s.chalValid ∧ (s.setSlot i c).jtagIr = s.jtagIr ∧ (s.setSlot i c).rngDead = s.rngDead ∧
    (s.setSlot i c).spTestFail = s.spTestFail ∧ (s.setSlot i c).drbgCount = s.drbgCount ∧ (s.setSlot i c).seqLeft = s.seqLeft ∧
    (s.setSlot i c).pending = s.pending :=
  ⟨rfl, rfl, rfl, rfl, rfl, rfl, rfl, rfl, rfl, rfl, rfl, rfl, rfl, rfl, rfl, rfl, rfl, rfl, rfl, rfl, rfl, rfl, rfl, rfl, rfl,
   rfl, rfl, rfl, rfl, rfl, rfl, rfl, rfl, rfl, rfl, rfl, rfl, rfl, rfl, rfl, rfl, rfl, rfl, rfl, rfl, rfl, rfl, rfl, rfl, rfl,
   rfl, rfl, rfl, rfl, rfl, rfl, rfl, rfl, rfl, rfl, rfl, rfl, rfl, rfl, rfl, rfl, rfl, rfl, rfl, rfl, rfl, rfl, rfl, rfl, rfl,
   rfl, rfl, rfl, rfl, rfl, rfl, rfl, rfl, rfl, rfl, rfl, rfl, rfl, rfl, rfl, rfl, rfl, rfl, rfl, rfl, rfl, rfl, rfl, rfl, rfl,
   rfl, rfl, rfl, rfl, rfl, rfl, rfl, rfl, rfl, rfl, rfl, rfl, rfl, rfl, rfl, rfl, rfl, rfl, rfl, rfl, rfl, rfl, rfl, rfl, rfl,
   rfl, rfl, rfl, rfl⟩

@[simp] theorem State.setFifo_fields (s : State) (q : Nat) (l : List Nat) :
    (s.setFifo q l).regs = s.regs ∧ (s.setFifo q l).mem = s.mem ∧ (s.setFifo q l).lost = s.lost ∧ (s.setFifo q l).poison = s.poison ∧
    (s.setFifo q l).ns = s.ns ∧ (s.setFifo q l).time = s.time ∧ (s.setFifo q l).free = s.free ∧ (s.setFifo q l).out = s.out ∧
    (s.setFifo q l).latch = s.latch ∧ (s.setFifo q l).errSec = s.errSec ∧ (s.setFifo q l).wakeReq = s.wakeReq ∧ (s.setFifo q l).threads = s.threads ∧
    (s.setFifo q l).cores = s.cores ∧ (s.setFifo q l).chans = s.chans ∧ (s.setFifo q l).unitPtr = s.unitPtr ∧ (s.setFifo q l).parBusy = s.parBusy ∧
    (s.setFifo q l).polarity = s.polarity ∧ (s.setFifo q l).pegs = s.pegs ∧ (s.setFifo q l).ports = s.ports ∧ (s.setFifo q l).rr = s.rr ∧
    (s.setFifo q l).frames = s.frames ∧ (s.setFifo q l).handles = s.handles ∧ (s.setFifo q l).arrivals = s.arrivals ∧ (s.setFifo q l).fc = s.fc ∧
    (s.setFifo q l).pend = s.pend ∧ (s.setFifo q l).actFifo = s.actFifo ∧ (s.setFifo q l).tmIn = s.tmIn ∧ (s.setFifo q l).actLists = s.actLists ∧
    (s.setFifo q l).pushId = s.pushId ∧ (s.setFifo q l).mirrorCount = s.mirrorCount ∧ (s.setFifo q l).tmAux = s.tmAux ∧
    (s.setFifo q l).polAux = s.polAux ∧ (s.setFifo q l).lookups = s.lookups ∧ (s.setFifo q l).overlay = s.overlay ∧
    (s.setFifo q l).draining = s.draining ∧ (s.setFifo q l).learnSeq = s.learnSeq ∧ (s.setFifo q l).parked = s.parked ∧
    (s.setFifo q l).emFresh = s.emFresh ∧ (s.setFifo q l).emCount = s.emCount ∧ (s.setFifo q l).extTaint = s.extTaint ∧
    (s.setFifo q l).tblDiffs = s.tblDiffs ∧ (s.setFifo q l).orderSeen = s.orderSeen ∧ (s.setFifo q l).keys = s.keys ∧
    (s.setFifo q l).klwCmd = s.klwCmd ∧ (s.setFifo q l).csubs = s.csubs ∧ (s.setFifo q l).anFail = s.anFail ∧ (s.setFifo q l).portPll = s.portPll ∧
    (s.setFifo q l).tsFifo = s.tsFifo ∧ (s.setFifo q l).cue = s.cue ∧ (s.setFifo q l).peerIn = s.peerIn ∧ (s.setFifo q l).cueReads = s.cueReads ∧
    (s.setFifo q l).cueTags = s.cueTags ∧ (s.setFifo q l).winCommit = s.winCommit ∧ (s.setFifo q l).strapBalls = s.strapBalls ∧
    (s.setFifo q l).funcs = s.funcs ∧ (s.setFifo q l).rrs = s.rrs ∧ (s.setFifo q l).msixTab = s.msixTab ∧ (s.setFifo q l).msixPba = s.msixPba ∧
    (s.setFifo q l).hreads = s.hreads ∧ (s.setFifo q l).hreadCount = s.hreadCount ∧ (s.setFifo q l).entries = s.entries ∧
    (s.setFifo q l).entryCount = s.entryCount ∧ (s.setFifo q l).hwq = s.hwq ∧ (s.setFifo q l).atsCache = s.atsCache ∧
    (s.setFifo q l).atsInv = s.atsInv ∧ (s.setFifo q l).doe = s.doe ∧ (s.setFifo q l).ideSecure = s.ideSecure ∧ (s.setFifo q l).dark = s.dark ∧
    (s.setFifo q l).darkDb = s.darkDb ∧ (s.setFifo q l).logFilter = s.logFilter ∧ (s.setFifo q l).logCons = s.logCons ∧
    (s.setFifo q l).ringx = s.ringx ∧ (s.setFifo q l).txJobs = s.txJobs ∧ (s.setFifo q l).txCount = s.txCount ∧ (s.setFifo q l).txGone = s.txGone ∧
    (s.setFifo q l).held = s.held ∧ (s.setFifo q l).stalled = s.stalled ∧ (s.setFifo q l).fullerT = s.fullerT ∧ (s.setFifo q l).hostOut = s.hostOut ∧
    (s.setFifo q l).uc = s.uc ∧ (s.setFifo q l).ucScratch = s.ucScratch ∧ (s.setFifo q l).ucLast = s.ucLast ∧ (s.setFifo q l).ucPatch = s.ucPatch ∧
    (s.setFifo q l).ucBad = s.ucBad ∧ (s.setFifo q l).ucRegime = s.ucRegime ∧ (s.setFifo q l).patchJob = s.patchJob ∧
    (s.setFifo q l).ucDoorbells = s.ucDoorbells ∧ (s.setFifo q l).genCount = s.genCount ∧ (s.setFifo q l).capoOff = s.capoOff ∧
    (s.setFifo q l).ccReset = s.ccReset ∧ (s.setFifo q l).stoCmds = s.stoCmds ∧ (s.setFifo q l).stoCount = s.stoCount ∧
    (s.setFifo q l).connx = s.connx ∧ (s.setFifo q l).bow = s.bow ∧ (s.setFifo q l).bowPtr = s.bowPtr ∧ (s.setFifo q l).icuHold = s.icuHold ∧
    (s.setFifo q l).icuStack = s.icuStack ∧ (s.setFifo q l).pwrTarget = s.pwrTarget ∧ (s.setFifo q l).pwrByReq = s.pwrByReq ∧
    (s.setFifo q l).pwrRev = s.pwrRev ∧ (s.setFifo q l).pwrNs = s.pwrNs ∧ (s.setFifo q l).pwrSince = s.pwrSince ∧
    (s.setFifo q l).clkBase = s.clkBase ∧ (s.setFifo q l).pwrSelfRef = s.pwrSelfRef ∧ (s.setFifo q l).vddCore = s.vddCore ∧
    (s.setFifo q l).hold = s.hold ∧ (s.setFifo q l).resetNs = s.resetNs ∧ (s.setFifo q l).bootNs = s.bootNs ∧ (s.setFifo q l).warm = s.warm ∧
    (s.setFifo q l).warmSp = s.warmSp ∧ (s.setFifo q l).warmFlr = s.warmFlr ∧ (s.setFifo q l).diceKeys = s.diceKeys ∧
    (s.setFifo q l).diceSealed = s.diceSealed ∧ (s.setFifo q l).diceD = s.diceD ∧ (s.setFifo q l).diceSvn = s.diceSvn ∧
    (s.setFifo q l).diceSlot = s.diceSlot ∧ (s.setFifo q l).diceDebug = s.diceDebug ∧ (s.setFifo q l).measPatch = s.measPatch ∧
    (s.setFifo q l).tid = s.tid ∧ (s.setFifo q l).spdmBox = s.spdmBox ∧ (s.setFifo q l).wdogNs = s.wdogNs ∧ (s.setFifo q l).wdogHeld = s.wdogHeld ∧
    (s.setFifo q l).chalValid = s.chalValid ∧ (s.setFifo q l).jtagIr = s.jtagIr ∧ (s.setFifo q l).rngDead = s.rngDead ∧
    (s.setFifo q l).spTestFail = s.spTestFail ∧ (s.setFifo q l).drbgCount = s.drbgCount ∧ (s.setFifo q l).seqLeft = s.seqLeft ∧
    (s.setFifo q l).pending = s.pending :=
  ⟨rfl, rfl, rfl, rfl, rfl, rfl, rfl, rfl, rfl, rfl, rfl, rfl, rfl, rfl, rfl, rfl, rfl, rfl, rfl, rfl, rfl, rfl, rfl, rfl, rfl,
   rfl, rfl, rfl, rfl, rfl, rfl, rfl, rfl, rfl, rfl, rfl, rfl, rfl, rfl, rfl, rfl, rfl, rfl, rfl, rfl, rfl, rfl, rfl, rfl, rfl,
   rfl, rfl, rfl, rfl, rfl, rfl, rfl, rfl, rfl, rfl, rfl, rfl, rfl, rfl, rfl, rfl, rfl, rfl, rfl, rfl, rfl, rfl, rfl, rfl, rfl,
   rfl, rfl, rfl, rfl, rfl, rfl, rfl, rfl, rfl, rfl, rfl, rfl, rfl, rfl, rfl, rfl, rfl, rfl, rfl, rfl, rfl, rfl, rfl, rfl, rfl,
   rfl, rfl, rfl, rfl, rfl, rfl, rfl, rfl, rfl, rfl, rfl, rfl, rfl, rfl, rfl, rfl, rfl, rfl, rfl, rfl, rfl, rfl, rfl, rfl, rfl,
   rfl, rfl, rfl, rfl⟩

@[simp] theorem State.setCue_fields (s : State) (p : Nat) (c : CuePort) :
    (s.setCue p c).mem = s.mem ∧ (s.setCue p c).lost = s.lost ∧ (s.setCue p c).poison = s.poison ∧ (s.setCue p c).ns = s.ns ∧
    (s.setCue p c).time = s.time ∧ (s.setCue p c).free = s.free ∧ (s.setCue p c).out = s.out ∧ (s.setCue p c).latch = s.latch ∧
    (s.setCue p c).errSec = s.errSec ∧ (s.setCue p c).wakeReq = s.wakeReq ∧ (s.setCue p c).threads = s.threads ∧ (s.setCue p c).cores = s.cores ∧
    (s.setCue p c).chans = s.chans ∧ (s.setCue p c).unitPtr = s.unitPtr ∧ (s.setCue p c).parBusy = s.parBusy ∧ (s.setCue p c).polarity = s.polarity ∧
    (s.setCue p c).pegs = s.pegs ∧ (s.setCue p c).ports = s.ports ∧ (s.setCue p c).rr = s.rr ∧ (s.setCue p c).frames = s.frames ∧
    (s.setCue p c).handles = s.handles ∧ (s.setCue p c).arrivals = s.arrivals ∧ (s.setCue p c).fc = s.fc ∧ (s.setCue p c).pend = s.pend ∧
    (s.setCue p c).actFifo = s.actFifo ∧ (s.setCue p c).tmIn = s.tmIn ∧ (s.setCue p c).actLists = s.actLists ∧ (s.setCue p c).pushId = s.pushId ∧
    (s.setCue p c).mirrorCount = s.mirrorCount ∧ (s.setCue p c).tmFifo = s.tmFifo ∧ (s.setCue p c).tmAux = s.tmAux ∧
    (s.setCue p c).polAux = s.polAux ∧ (s.setCue p c).lookups = s.lookups ∧ (s.setCue p c).overlay = s.overlay ∧
    (s.setCue p c).draining = s.draining ∧ (s.setCue p c).learnSeq = s.learnSeq ∧ (s.setCue p c).parked = s.parked ∧
    (s.setCue p c).emFresh = s.emFresh ∧ (s.setCue p c).emCount = s.emCount ∧ (s.setCue p c).extTaint = s.extTaint ∧
    (s.setCue p c).tblDiffs = s.tblDiffs ∧ (s.setCue p c).orderSeen = s.orderSeen ∧ (s.setCue p c).keys = s.keys ∧ (s.setCue p c).klwCmd = s.klwCmd ∧
    (s.setCue p c).csubs = s.csubs ∧ (s.setCue p c).anFail = s.anFail ∧ (s.setCue p c).portPll = s.portPll ∧ (s.setCue p c).tsFifo = s.tsFifo ∧
    (s.setCue p c).peerIn = s.peerIn ∧ (s.setCue p c).cueReads = s.cueReads ∧ (s.setCue p c).cueTags = s.cueTags ∧
    (s.setCue p c).winCommit = s.winCommit ∧ (s.setCue p c).strapBalls = s.strapBalls ∧ (s.setCue p c).funcs = s.funcs ∧ (s.setCue p c).rrs = s.rrs ∧
    (s.setCue p c).msixTab = s.msixTab ∧ (s.setCue p c).msixPba = s.msixPba ∧ (s.setCue p c).hreads = s.hreads ∧
    (s.setCue p c).hreadCount = s.hreadCount ∧ (s.setCue p c).entries = s.entries ∧ (s.setCue p c).entryCount = s.entryCount ∧
    (s.setCue p c).hwq = s.hwq ∧ (s.setCue p c).atsCache = s.atsCache ∧ (s.setCue p c).atsInv = s.atsInv ∧ (s.setCue p c).doe = s.doe ∧
    (s.setCue p c).ideSecure = s.ideSecure ∧ (s.setCue p c).dark = s.dark ∧ (s.setCue p c).darkDb = s.darkDb ∧
    (s.setCue p c).logFilter = s.logFilter ∧ (s.setCue p c).logCons = s.logCons ∧ (s.setCue p c).ringx = s.ringx ∧ (s.setCue p c).txJobs = s.txJobs ∧
    (s.setCue p c).txCount = s.txCount ∧ (s.setCue p c).txGone = s.txGone ∧ (s.setCue p c).held = s.held ∧ (s.setCue p c).stalled = s.stalled ∧
    (s.setCue p c).fullerT = s.fullerT ∧ (s.setCue p c).hostOut = s.hostOut ∧ (s.setCue p c).uc = s.uc ∧ (s.setCue p c).ucScratch = s.ucScratch ∧
    (s.setCue p c).ucLast = s.ucLast ∧ (s.setCue p c).ucPatch = s.ucPatch ∧ (s.setCue p c).ucBad = s.ucBad ∧ (s.setCue p c).ucRegime = s.ucRegime ∧
    (s.setCue p c).patchJob = s.patchJob ∧ (s.setCue p c).ucDoorbells = s.ucDoorbells ∧ (s.setCue p c).genCount = s.genCount ∧
    (s.setCue p c).capoOff = s.capoOff ∧ (s.setCue p c).ccReset = s.ccReset ∧ (s.setCue p c).stoCmds = s.stoCmds ∧
    (s.setCue p c).stoCount = s.stoCount ∧ (s.setCue p c).connx = s.connx ∧ (s.setCue p c).bow = s.bow ∧ (s.setCue p c).bowPtr = s.bowPtr ∧
    (s.setCue p c).icuHold = s.icuHold ∧ (s.setCue p c).icuStack = s.icuStack ∧ (s.setCue p c).pwrTarget = s.pwrTarget ∧
    (s.setCue p c).pwrByReq = s.pwrByReq ∧ (s.setCue p c).pwrRev = s.pwrRev ∧ (s.setCue p c).pwrNs = s.pwrNs ∧ (s.setCue p c).pwrSince = s.pwrSince ∧
    (s.setCue p c).clkBase = s.clkBase ∧ (s.setCue p c).pwrSelfRef = s.pwrSelfRef ∧ (s.setCue p c).vddCore = s.vddCore ∧
    (s.setCue p c).hold = s.hold ∧ (s.setCue p c).resetNs = s.resetNs ∧ (s.setCue p c).bootNs = s.bootNs ∧ (s.setCue p c).warm = s.warm ∧
    (s.setCue p c).warmSp = s.warmSp ∧ (s.setCue p c).warmFlr = s.warmFlr ∧ (s.setCue p c).diceKeys = s.diceKeys ∧
    (s.setCue p c).diceSealed = s.diceSealed ∧ (s.setCue p c).diceD = s.diceD ∧ (s.setCue p c).diceSvn = s.diceSvn ∧
    (s.setCue p c).diceSlot = s.diceSlot ∧ (s.setCue p c).diceDebug = s.diceDebug ∧ (s.setCue p c).measPatch = s.measPatch ∧
    (s.setCue p c).tid = s.tid ∧ (s.setCue p c).spdmBox = s.spdmBox ∧ (s.setCue p c).wdogNs = s.wdogNs ∧ (s.setCue p c).wdogHeld = s.wdogHeld ∧
    (s.setCue p c).chalValid = s.chalValid ∧ (s.setCue p c).jtagIr = s.jtagIr ∧ (s.setCue p c).rngDead = s.rngDead ∧
    (s.setCue p c).spTestFail = s.spTestFail ∧ (s.setCue p c).drbgCount = s.drbgCount ∧ (s.setCue p c).seqLeft = s.seqLeft ∧
    (s.setCue p c).pending = s.pending :=
  ⟨rfl, rfl, rfl, rfl, rfl, rfl, rfl, rfl, rfl, rfl, rfl, rfl, rfl, rfl, rfl, rfl, rfl, rfl, rfl, rfl, rfl, rfl, rfl, rfl, rfl,
   rfl, rfl, rfl, rfl, rfl, rfl, rfl, rfl, rfl, rfl, rfl, rfl, rfl, rfl, rfl, rfl, rfl, rfl, rfl, rfl, rfl, rfl, rfl, rfl, rfl,
   rfl, rfl, rfl, rfl, rfl, rfl, rfl, rfl, rfl, rfl, rfl, rfl, rfl, rfl, rfl, rfl, rfl, rfl, rfl, rfl, rfl, rfl, rfl, rfl, rfl,
   rfl, rfl, rfl, rfl, rfl, rfl, rfl, rfl, rfl, rfl, rfl, rfl, rfl, rfl, rfl, rfl, rfl, rfl, rfl, rfl, rfl, rfl, rfl, rfl, rfl,
   rfl, rfl, rfl, rfl, rfl, rfl, rfl, rfl, rfl, rfl, rfl, rfl, rfl, rfl, rfl, rfl, rfl, rfl, rfl, rfl, rfl, rfl, rfl, rfl, rfl,
   rfl, rfl, rfl⟩

@[simp] theorem State.setFunc_fields (s : State) (i : Nat) (f : Func) :
    (s.setFunc i f).regs = s.regs ∧ (s.setFunc i f).mem = s.mem ∧ (s.setFunc i f).lost = s.lost ∧ (s.setFunc i f).poison = s.poison ∧
    (s.setFunc i f).ns = s.ns ∧ (s.setFunc i f).time = s.time ∧ (s.setFunc i f).free = s.free ∧ (s.setFunc i f).out = s.out ∧
    (s.setFunc i f).latch = s.latch ∧ (s.setFunc i f).errSec = s.errSec ∧ (s.setFunc i f).wakeReq = s.wakeReq ∧ (s.setFunc i f).threads = s.threads ∧
    (s.setFunc i f).cores = s.cores ∧ (s.setFunc i f).chans = s.chans ∧ (s.setFunc i f).unitPtr = s.unitPtr ∧ (s.setFunc i f).parBusy = s.parBusy ∧
    (s.setFunc i f).polarity = s.polarity ∧ (s.setFunc i f).pegs = s.pegs ∧ (s.setFunc i f).ports = s.ports ∧ (s.setFunc i f).rr = s.rr ∧
    (s.setFunc i f).frames = s.frames ∧ (s.setFunc i f).handles = s.handles ∧ (s.setFunc i f).arrivals = s.arrivals ∧ (s.setFunc i f).fc = s.fc ∧
    (s.setFunc i f).pend = s.pend ∧ (s.setFunc i f).actFifo = s.actFifo ∧ (s.setFunc i f).tmIn = s.tmIn ∧ (s.setFunc i f).actLists = s.actLists ∧
    (s.setFunc i f).pushId = s.pushId ∧ (s.setFunc i f).mirrorCount = s.mirrorCount ∧ (s.setFunc i f).tmFifo = s.tmFifo ∧
    (s.setFunc i f).tmAux = s.tmAux ∧ (s.setFunc i f).polAux = s.polAux ∧ (s.setFunc i f).lookups = s.lookups ∧ (s.setFunc i f).overlay = s.overlay ∧
    (s.setFunc i f).draining = s.draining ∧ (s.setFunc i f).learnSeq = s.learnSeq ∧ (s.setFunc i f).parked = s.parked ∧
    (s.setFunc i f).emFresh = s.emFresh ∧ (s.setFunc i f).emCount = s.emCount ∧ (s.setFunc i f).extTaint = s.extTaint ∧
    (s.setFunc i f).tblDiffs = s.tblDiffs ∧ (s.setFunc i f).orderSeen = s.orderSeen ∧ (s.setFunc i f).keys = s.keys ∧
    (s.setFunc i f).klwCmd = s.klwCmd ∧ (s.setFunc i f).csubs = s.csubs ∧ (s.setFunc i f).anFail = s.anFail ∧ (s.setFunc i f).portPll = s.portPll ∧
    (s.setFunc i f).tsFifo = s.tsFifo ∧ (s.setFunc i f).cue = s.cue ∧ (s.setFunc i f).peerIn = s.peerIn ∧ (s.setFunc i f).cueReads = s.cueReads ∧
    (s.setFunc i f).cueTags = s.cueTags ∧ (s.setFunc i f).winCommit = s.winCommit ∧ (s.setFunc i f).strapBalls = s.strapBalls ∧
    (s.setFunc i f).rrs = s.rrs ∧ (s.setFunc i f).msixTab = s.msixTab ∧ (s.setFunc i f).msixPba = s.msixPba ∧ (s.setFunc i f).hreads = s.hreads ∧
    (s.setFunc i f).hreadCount = s.hreadCount ∧ (s.setFunc i f).entries = s.entries ∧ (s.setFunc i f).entryCount = s.entryCount ∧
    (s.setFunc i f).hwq = s.hwq ∧ (s.setFunc i f).atsCache = s.atsCache ∧ (s.setFunc i f).atsInv = s.atsInv ∧ (s.setFunc i f).doe = s.doe ∧
    (s.setFunc i f).ideSecure = s.ideSecure ∧ (s.setFunc i f).dark = s.dark ∧ (s.setFunc i f).darkDb = s.darkDb ∧
    (s.setFunc i f).logFilter = s.logFilter ∧ (s.setFunc i f).logCons = s.logCons ∧ (s.setFunc i f).ringx = s.ringx ∧
    (s.setFunc i f).txJobs = s.txJobs ∧ (s.setFunc i f).txCount = s.txCount ∧ (s.setFunc i f).txGone = s.txGone ∧ (s.setFunc i f).held = s.held ∧
    (s.setFunc i f).stalled = s.stalled ∧ (s.setFunc i f).fullerT = s.fullerT ∧ (s.setFunc i f).hostOut = s.hostOut ∧ (s.setFunc i f).uc = s.uc ∧
    (s.setFunc i f).ucScratch = s.ucScratch ∧ (s.setFunc i f).ucLast = s.ucLast ∧ (s.setFunc i f).ucPatch = s.ucPatch ∧
    (s.setFunc i f).ucBad = s.ucBad ∧ (s.setFunc i f).ucRegime = s.ucRegime ∧ (s.setFunc i f).patchJob = s.patchJob ∧
    (s.setFunc i f).ucDoorbells = s.ucDoorbells ∧ (s.setFunc i f).genCount = s.genCount ∧ (s.setFunc i f).capoOff = s.capoOff ∧
    (s.setFunc i f).ccReset = s.ccReset ∧ (s.setFunc i f).stoCmds = s.stoCmds ∧ (s.setFunc i f).stoCount = s.stoCount ∧
    (s.setFunc i f).connx = s.connx ∧ (s.setFunc i f).bow = s.bow ∧ (s.setFunc i f).bowPtr = s.bowPtr ∧ (s.setFunc i f).icuHold = s.icuHold ∧
    (s.setFunc i f).icuStack = s.icuStack ∧ (s.setFunc i f).pwrTarget = s.pwrTarget ∧ (s.setFunc i f).pwrByReq = s.pwrByReq ∧
    (s.setFunc i f).pwrRev = s.pwrRev ∧ (s.setFunc i f).pwrNs = s.pwrNs ∧ (s.setFunc i f).pwrSince = s.pwrSince ∧
    (s.setFunc i f).clkBase = s.clkBase ∧ (s.setFunc i f).pwrSelfRef = s.pwrSelfRef ∧ (s.setFunc i f).vddCore = s.vddCore ∧
    (s.setFunc i f).hold = s.hold ∧ (s.setFunc i f).resetNs = s.resetNs ∧ (s.setFunc i f).bootNs = s.bootNs ∧ (s.setFunc i f).warm = s.warm ∧
    (s.setFunc i f).warmSp = s.warmSp ∧ (s.setFunc i f).warmFlr = s.warmFlr ∧ (s.setFunc i f).diceKeys = s.diceKeys ∧
    (s.setFunc i f).diceSealed = s.diceSealed ∧ (s.setFunc i f).diceD = s.diceD ∧ (s.setFunc i f).diceSvn = s.diceSvn ∧
    (s.setFunc i f).diceSlot = s.diceSlot ∧ (s.setFunc i f).diceDebug = s.diceDebug ∧ (s.setFunc i f).measPatch = s.measPatch ∧
    (s.setFunc i f).tid = s.tid ∧ (s.setFunc i f).spdmBox = s.spdmBox ∧ (s.setFunc i f).wdogNs = s.wdogNs ∧ (s.setFunc i f).wdogHeld = s.wdogHeld ∧
    (s.setFunc i f).chalValid = s.chalValid ∧ (s.setFunc i f).jtagIr = s.jtagIr ∧ (s.setFunc i f).rngDead = s.rngDead ∧
    (s.setFunc i f).spTestFail = s.spTestFail ∧ (s.setFunc i f).drbgCount = s.drbgCount ∧ (s.setFunc i f).seqLeft = s.seqLeft ∧
    (s.setFunc i f).pending = s.pending :=
  ⟨rfl, rfl, rfl, rfl, rfl, rfl, rfl, rfl, rfl, rfl, rfl, rfl, rfl, rfl, rfl, rfl, rfl, rfl, rfl, rfl, rfl, rfl, rfl, rfl, rfl,
   rfl, rfl, rfl, rfl, rfl, rfl, rfl, rfl, rfl, rfl, rfl, rfl, rfl, rfl, rfl, rfl, rfl, rfl, rfl, rfl, rfl, rfl, rfl, rfl, rfl,
   rfl, rfl, rfl, rfl, rfl, rfl, rfl, rfl, rfl, rfl, rfl, rfl, rfl, rfl, rfl, rfl, rfl, rfl, rfl, rfl, rfl, rfl, rfl, rfl, rfl,
   rfl, rfl, rfl, rfl, rfl, rfl, rfl, rfl, rfl, rfl, rfl, rfl, rfl, rfl, rfl, rfl, rfl, rfl, rfl, rfl, rfl, rfl, rfl, rfl, rfl,
   rfl, rfl, rfl, rfl, rfl, rfl, rfl, rfl, rfl, rfl, rfl, rfl, rfl, rfl, rfl, rfl, rfl, rfl, rfl, rfl, rfl, rfl, rfl, rfl, rfl,
   rfl, rfl, rfl, rfl⟩

@[simp] theorem State.setWrites_fields (s : State) (i : Nat) (ws : List HostWrite) :
    (s.setWrites i ws).regs = s.regs ∧ (s.setWrites i ws).mem = s.mem ∧ (s.setWrites i ws).lost = s.lost ∧ (s.setWrites i ws).poison = s.poison ∧
    (s.setWrites i ws).ns = s.ns ∧ (s.setWrites i ws).time = s.time ∧ (s.setWrites i ws).free = s.free ∧ (s.setWrites i ws).out = s.out ∧
    (s.setWrites i ws).latch = s.latch ∧ (s.setWrites i ws).errSec = s.errSec ∧ (s.setWrites i ws).wakeReq = s.wakeReq ∧
    (s.setWrites i ws).threads = s.threads ∧ (s.setWrites i ws).cores = s.cores ∧ (s.setWrites i ws).chans = s.chans ∧
    (s.setWrites i ws).unitPtr = s.unitPtr ∧ (s.setWrites i ws).parBusy = s.parBusy ∧ (s.setWrites i ws).polarity = s.polarity ∧
    (s.setWrites i ws).pegs = s.pegs ∧ (s.setWrites i ws).ports = s.ports ∧ (s.setWrites i ws).rr = s.rr ∧ (s.setWrites i ws).frames = s.frames ∧
    (s.setWrites i ws).handles = s.handles ∧ (s.setWrites i ws).arrivals = s.arrivals ∧ (s.setWrites i ws).fc = s.fc ∧
    (s.setWrites i ws).pend = s.pend ∧ (s.setWrites i ws).actFifo = s.actFifo ∧ (s.setWrites i ws).tmIn = s.tmIn ∧
    (s.setWrites i ws).actLists = s.actLists ∧ (s.setWrites i ws).pushId = s.pushId ∧ (s.setWrites i ws).mirrorCount = s.mirrorCount ∧
    (s.setWrites i ws).tmFifo = s.tmFifo ∧ (s.setWrites i ws).tmAux = s.tmAux ∧ (s.setWrites i ws).polAux = s.polAux ∧
    (s.setWrites i ws).lookups = s.lookups ∧ (s.setWrites i ws).overlay = s.overlay ∧ (s.setWrites i ws).draining = s.draining ∧
    (s.setWrites i ws).learnSeq = s.learnSeq ∧ (s.setWrites i ws).parked = s.parked ∧ (s.setWrites i ws).emFresh = s.emFresh ∧
    (s.setWrites i ws).emCount = s.emCount ∧ (s.setWrites i ws).extTaint = s.extTaint ∧ (s.setWrites i ws).tblDiffs = s.tblDiffs ∧
    (s.setWrites i ws).orderSeen = s.orderSeen ∧ (s.setWrites i ws).keys = s.keys ∧ (s.setWrites i ws).klwCmd = s.klwCmd ∧
    (s.setWrites i ws).csubs = s.csubs ∧ (s.setWrites i ws).anFail = s.anFail ∧ (s.setWrites i ws).portPll = s.portPll ∧
    (s.setWrites i ws).tsFifo = s.tsFifo ∧ (s.setWrites i ws).cue = s.cue ∧ (s.setWrites i ws).peerIn = s.peerIn ∧
    (s.setWrites i ws).cueReads = s.cueReads ∧ (s.setWrites i ws).cueTags = s.cueTags ∧ (s.setWrites i ws).winCommit = s.winCommit ∧
    (s.setWrites i ws).strapBalls = s.strapBalls ∧ (s.setWrites i ws).funcs = s.funcs ∧ (s.setWrites i ws).rrs = s.rrs ∧
    (s.setWrites i ws).msixTab = s.msixTab ∧ (s.setWrites i ws).msixPba = s.msixPba ∧ (s.setWrites i ws).hreads = s.hreads ∧
    (s.setWrites i ws).hreadCount = s.hreadCount ∧ (s.setWrites i ws).entries = s.entries ∧ (s.setWrites i ws).entryCount = s.entryCount ∧
    (s.setWrites i ws).atsCache = s.atsCache ∧ (s.setWrites i ws).atsInv = s.atsInv ∧ (s.setWrites i ws).doe = s.doe ∧
    (s.setWrites i ws).ideSecure = s.ideSecure ∧ (s.setWrites i ws).dark = s.dark ∧ (s.setWrites i ws).darkDb = s.darkDb ∧
    (s.setWrites i ws).logFilter = s.logFilter ∧ (s.setWrites i ws).logCons = s.logCons ∧ (s.setWrites i ws).ringx = s.ringx ∧
    (s.setWrites i ws).txJobs = s.txJobs ∧ (s.setWrites i ws).txCount = s.txCount ∧ (s.setWrites i ws).txGone = s.txGone ∧
    (s.setWrites i ws).held = s.held ∧ (s.setWrites i ws).stalled = s.stalled ∧ (s.setWrites i ws).fullerT = s.fullerT ∧
    (s.setWrites i ws).hostOut = s.hostOut ∧ (s.setWrites i ws).uc = s.uc ∧ (s.setWrites i ws).ucScratch = s.ucScratch ∧
    (s.setWrites i ws).ucLast = s.ucLast ∧ (s.setWrites i ws).ucPatch = s.ucPatch ∧ (s.setWrites i ws).ucBad = s.ucBad ∧
    (s.setWrites i ws).ucRegime = s.ucRegime ∧ (s.setWrites i ws).patchJob = s.patchJob ∧ (s.setWrites i ws).ucDoorbells = s.ucDoorbells ∧
    (s.setWrites i ws).genCount = s.genCount ∧ (s.setWrites i ws).capoOff = s.capoOff ∧ (s.setWrites i ws).ccReset = s.ccReset ∧
    (s.setWrites i ws).stoCmds = s.stoCmds ∧ (s.setWrites i ws).stoCount = s.stoCount ∧ (s.setWrites i ws).connx = s.connx ∧
    (s.setWrites i ws).bow = s.bow ∧ (s.setWrites i ws).bowPtr = s.bowPtr ∧ (s.setWrites i ws).icuHold = s.icuHold ∧
    (s.setWrites i ws).icuStack = s.icuStack ∧ (s.setWrites i ws).pwrTarget = s.pwrTarget ∧ (s.setWrites i ws).pwrByReq = s.pwrByReq ∧
    (s.setWrites i ws).pwrRev = s.pwrRev ∧ (s.setWrites i ws).pwrNs = s.pwrNs ∧ (s.setWrites i ws).pwrSince = s.pwrSince ∧
    (s.setWrites i ws).clkBase = s.clkBase ∧ (s.setWrites i ws).pwrSelfRef = s.pwrSelfRef ∧ (s.setWrites i ws).vddCore = s.vddCore ∧
    (s.setWrites i ws).hold = s.hold ∧ (s.setWrites i ws).resetNs = s.resetNs ∧ (s.setWrites i ws).bootNs = s.bootNs ∧
    (s.setWrites i ws).warm = s.warm ∧ (s.setWrites i ws).warmSp = s.warmSp ∧ (s.setWrites i ws).warmFlr = s.warmFlr ∧
    (s.setWrites i ws).diceKeys = s.diceKeys ∧ (s.setWrites i ws).diceSealed = s.diceSealed ∧ (s.setWrites i ws).diceD = s.diceD ∧
    (s.setWrites i ws).diceSvn = s.diceSvn ∧ (s.setWrites i ws).diceSlot = s.diceSlot ∧ (s.setWrites i ws).diceDebug = s.diceDebug ∧
    (s.setWrites i ws).measPatch = s.measPatch ∧ (s.setWrites i ws).tid = s.tid ∧ (s.setWrites i ws).spdmBox = s.spdmBox ∧
    (s.setWrites i ws).wdogNs = s.wdogNs ∧ (s.setWrites i ws).wdogHeld = s.wdogHeld ∧ (s.setWrites i ws).chalValid = s.chalValid ∧
    (s.setWrites i ws).jtagIr = s.jtagIr ∧ (s.setWrites i ws).rngDead = s.rngDead ∧ (s.setWrites i ws).spTestFail = s.spTestFail ∧
    (s.setWrites i ws).drbgCount = s.drbgCount ∧ (s.setWrites i ws).seqLeft = s.seqLeft ∧ (s.setWrites i ws).pending = s.pending :=
  ⟨rfl, rfl, rfl, rfl, rfl, rfl, rfl, rfl, rfl, rfl, rfl, rfl, rfl, rfl, rfl, rfl, rfl, rfl, rfl, rfl, rfl, rfl, rfl, rfl, rfl,
   rfl, rfl, rfl, rfl, rfl, rfl, rfl, rfl, rfl, rfl, rfl, rfl, rfl, rfl, rfl, rfl, rfl, rfl, rfl, rfl, rfl, rfl, rfl, rfl, rfl,
   rfl, rfl, rfl, rfl, rfl, rfl, rfl, rfl, rfl, rfl, rfl, rfl, rfl, rfl, rfl, rfl, rfl, rfl, rfl, rfl, rfl, rfl, rfl, rfl, rfl,
   rfl, rfl, rfl, rfl, rfl, rfl, rfl, rfl, rfl, rfl, rfl, rfl, rfl, rfl, rfl, rfl, rfl, rfl, rfl, rfl, rfl, rfl, rfl, rfl, rfl,
   rfl, rfl, rfl, rfl, rfl, rfl, rfl, rfl, rfl, rfl, rfl, rfl, rfl, rfl, rfl, rfl, rfl, rfl, rfl, rfl, rfl, rfl, rfl, rfl, rfl,
   rfl, rfl, rfl, rfl⟩

@[simp] theorem State.setRead_fields (s : State) (r : HostRead) :
    (s.setRead r).regs = s.regs ∧ (s.setRead r).mem = s.mem ∧ (s.setRead r).lost = s.lost ∧ (s.setRead r).poison = s.poison ∧
    (s.setRead r).ns = s.ns ∧ (s.setRead r).time = s.time ∧ (s.setRead r).free = s.free ∧ (s.setRead r).out = s.out ∧ (s.setRead r).latch = s.latch ∧
    (s.setRead r).errSec = s.errSec ∧ (s.setRead r).wakeReq = s.wakeReq ∧ (s.setRead r).threads = s.threads ∧ (s.setRead r).cores = s.cores ∧
    (s.setRead r).chans = s.chans ∧ (s.setRead r).unitPtr = s.unitPtr ∧ (s.setRead r).parBusy = s.parBusy ∧ (s.setRead r).polarity = s.polarity ∧
    (s.setRead r).pegs = s.pegs ∧ (s.setRead r).ports = s.ports ∧ (s.setRead r).rr = s.rr ∧ (s.setRead r).frames = s.frames ∧
    (s.setRead r).handles = s.handles ∧ (s.setRead r).arrivals = s.arrivals ∧ (s.setRead r).fc = s.fc ∧ (s.setRead r).pend = s.pend ∧
    (s.setRead r).actFifo = s.actFifo ∧ (s.setRead r).tmIn = s.tmIn ∧ (s.setRead r).actLists = s.actLists ∧ (s.setRead r).pushId = s.pushId ∧
    (s.setRead r).mirrorCount = s.mirrorCount ∧ (s.setRead r).tmFifo = s.tmFifo ∧ (s.setRead r).tmAux = s.tmAux ∧ (s.setRead r).polAux = s.polAux ∧
    (s.setRead r).lookups = s.lookups ∧ (s.setRead r).overlay = s.overlay ∧ (s.setRead r).draining = s.draining ∧
    (s.setRead r).learnSeq = s.learnSeq ∧ (s.setRead r).parked = s.parked ∧ (s.setRead r).emFresh = s.emFresh ∧ (s.setRead r).emCount = s.emCount ∧
    (s.setRead r).extTaint = s.extTaint ∧ (s.setRead r).tblDiffs = s.tblDiffs ∧ (s.setRead r).orderSeen = s.orderSeen ∧ (s.setRead r).keys = s.keys ∧
    (s.setRead r).klwCmd = s.klwCmd ∧ (s.setRead r).csubs = s.csubs ∧ (s.setRead r).anFail = s.anFail ∧ (s.setRead r).portPll = s.portPll ∧
    (s.setRead r).tsFifo = s.tsFifo ∧ (s.setRead r).cue = s.cue ∧ (s.setRead r).peerIn = s.peerIn ∧ (s.setRead r).cueReads = s.cueReads ∧
    (s.setRead r).cueTags = s.cueTags ∧ (s.setRead r).winCommit = s.winCommit ∧ (s.setRead r).strapBalls = s.strapBalls ∧
    (s.setRead r).funcs = s.funcs ∧ (s.setRead r).rrs = s.rrs ∧ (s.setRead r).msixTab = s.msixTab ∧ (s.setRead r).msixPba = s.msixPba ∧
    (s.setRead r).hreadCount = s.hreadCount ∧ (s.setRead r).entries = s.entries ∧ (s.setRead r).entryCount = s.entryCount ∧
    (s.setRead r).hwq = s.hwq ∧ (s.setRead r).atsCache = s.atsCache ∧ (s.setRead r).atsInv = s.atsInv ∧ (s.setRead r).doe = s.doe ∧
    (s.setRead r).ideSecure = s.ideSecure ∧ (s.setRead r).dark = s.dark ∧ (s.setRead r).darkDb = s.darkDb ∧ (s.setRead r).logFilter = s.logFilter ∧
    (s.setRead r).logCons = s.logCons ∧ (s.setRead r).ringx = s.ringx ∧ (s.setRead r).txJobs = s.txJobs ∧ (s.setRead r).txCount = s.txCount ∧
    (s.setRead r).txGone = s.txGone ∧ (s.setRead r).held = s.held ∧ (s.setRead r).stalled = s.stalled ∧ (s.setRead r).fullerT = s.fullerT ∧
    (s.setRead r).hostOut = s.hostOut ∧ (s.setRead r).uc = s.uc ∧ (s.setRead r).ucScratch = s.ucScratch ∧ (s.setRead r).ucLast = s.ucLast ∧
    (s.setRead r).ucPatch = s.ucPatch ∧ (s.setRead r).ucBad = s.ucBad ∧ (s.setRead r).ucRegime = s.ucRegime ∧ (s.setRead r).patchJob = s.patchJob ∧
    (s.setRead r).ucDoorbells = s.ucDoorbells ∧ (s.setRead r).genCount = s.genCount ∧ (s.setRead r).capoOff = s.capoOff ∧
    (s.setRead r).ccReset = s.ccReset ∧ (s.setRead r).stoCmds = s.stoCmds ∧ (s.setRead r).stoCount = s.stoCount ∧ (s.setRead r).connx = s.connx ∧
    (s.setRead r).bow = s.bow ∧ (s.setRead r).bowPtr = s.bowPtr ∧ (s.setRead r).icuHold = s.icuHold ∧ (s.setRead r).icuStack = s.icuStack ∧
    (s.setRead r).pwrTarget = s.pwrTarget ∧ (s.setRead r).pwrByReq = s.pwrByReq ∧ (s.setRead r).pwrRev = s.pwrRev ∧ (s.setRead r).pwrNs = s.pwrNs ∧
    (s.setRead r).pwrSince = s.pwrSince ∧ (s.setRead r).clkBase = s.clkBase ∧ (s.setRead r).pwrSelfRef = s.pwrSelfRef ∧
    (s.setRead r).vddCore = s.vddCore ∧ (s.setRead r).hold = s.hold ∧ (s.setRead r).resetNs = s.resetNs ∧ (s.setRead r).bootNs = s.bootNs ∧
    (s.setRead r).warm = s.warm ∧ (s.setRead r).warmSp = s.warmSp ∧ (s.setRead r).warmFlr = s.warmFlr ∧ (s.setRead r).diceKeys = s.diceKeys ∧
    (s.setRead r).diceSealed = s.diceSealed ∧ (s.setRead r).diceD = s.diceD ∧ (s.setRead r).diceSvn = s.diceSvn ∧
    (s.setRead r).diceSlot = s.diceSlot ∧ (s.setRead r).diceDebug = s.diceDebug ∧ (s.setRead r).measPatch = s.measPatch ∧ (s.setRead r).tid = s.tid ∧
    (s.setRead r).spdmBox = s.spdmBox ∧ (s.setRead r).wdogNs = s.wdogNs ∧ (s.setRead r).wdogHeld = s.wdogHeld ∧
    (s.setRead r).chalValid = s.chalValid ∧ (s.setRead r).jtagIr = s.jtagIr ∧ (s.setRead r).rngDead = s.rngDead ∧
    (s.setRead r).spTestFail = s.spTestFail ∧ (s.setRead r).drbgCount = s.drbgCount ∧ (s.setRead r).seqLeft = s.seqLeft ∧
    (s.setRead r).pending = s.pending :=
  ⟨rfl, rfl, rfl, rfl, rfl, rfl, rfl, rfl, rfl, rfl, rfl, rfl, rfl, rfl, rfl, rfl, rfl, rfl, rfl, rfl, rfl, rfl, rfl, rfl, rfl,
   rfl, rfl, rfl, rfl, rfl, rfl, rfl, rfl, rfl, rfl, rfl, rfl, rfl, rfl, rfl, rfl, rfl, rfl, rfl, rfl, rfl, rfl, rfl, rfl, rfl,
   rfl, rfl, rfl, rfl, rfl, rfl, rfl, rfl, rfl, rfl, rfl, rfl, rfl, rfl, rfl, rfl, rfl, rfl, rfl, rfl, rfl, rfl, rfl, rfl, rfl,
   rfl, rfl, rfl, rfl, rfl, rfl, rfl, rfl, rfl, rfl, rfl, rfl, rfl, rfl, rfl, rfl, rfl, rfl, rfl, rfl, rfl, rfl, rfl, rfl, rfl,
   rfl, rfl, rfl, rfl, rfl, rfl, rfl, rfl, rfl, rfl, rfl, rfl, rfl, rfl, rfl, rfl, rfl, rfl, rfl, rfl, rfl, rfl, rfl, rfl, rfl,
   rfl, rfl, rfl, rfl⟩

@[simp] theorem State.setRingX_fields (s : State) (k n : Nat) (r : RingX) :
    (s.setRingX k n r).regs = s.regs ∧ (s.setRingX k n r).mem = s.mem ∧ (s.setRingX k n r).lost = s.lost ∧ (s.setRingX k n r).poison = s.poison ∧
    (s.setRingX k n r).ns = s.ns ∧ (s.setRingX k n r).time = s.time ∧ (s.setRingX k n r).free = s.free ∧ (s.setRingX k n r).out = s.out ∧
    (s.setRingX k n r).latch = s.latch ∧ (s.setRingX k n r).errSec = s.errSec ∧ (s.setRingX k n r).wakeReq = s.wakeReq ∧
    (s.setRingX k n r).threads = s.threads ∧ (s.setRingX k n r).cores = s.cores ∧ (s.setRingX k n r).chans = s.chans ∧
    (s.setRingX k n r).unitPtr = s.unitPtr ∧ (s.setRingX k n r).parBusy = s.parBusy ∧ (s.setRingX k n r).polarity = s.polarity ∧
    (s.setRingX k n r).pegs = s.pegs ∧ (s.setRingX k n r).ports = s.ports ∧ (s.setRingX k n r).rr = s.rr ∧ (s.setRingX k n r).frames = s.frames ∧
    (s.setRingX k n r).handles = s.handles ∧ (s.setRingX k n r).arrivals = s.arrivals ∧ (s.setRingX k n r).fc = s.fc ∧
    (s.setRingX k n r).pend = s.pend ∧ (s.setRingX k n r).actFifo = s.actFifo ∧ (s.setRingX k n r).tmIn = s.tmIn ∧
    (s.setRingX k n r).actLists = s.actLists ∧ (s.setRingX k n r).pushId = s.pushId ∧ (s.setRingX k n r).mirrorCount = s.mirrorCount ∧
    (s.setRingX k n r).tmFifo = s.tmFifo ∧ (s.setRingX k n r).tmAux = s.tmAux ∧ (s.setRingX k n r).polAux = s.polAux ∧
    (s.setRingX k n r).lookups = s.lookups ∧ (s.setRingX k n r).overlay = s.overlay ∧ (s.setRingX k n r).draining = s.draining ∧
    (s.setRingX k n r).learnSeq = s.learnSeq ∧ (s.setRingX k n r).parked = s.parked ∧ (s.setRingX k n r).emFresh = s.emFresh ∧
    (s.setRingX k n r).emCount = s.emCount ∧ (s.setRingX k n r).extTaint = s.extTaint ∧ (s.setRingX k n r).tblDiffs = s.tblDiffs ∧
    (s.setRingX k n r).orderSeen = s.orderSeen ∧ (s.setRingX k n r).keys = s.keys ∧ (s.setRingX k n r).klwCmd = s.klwCmd ∧
    (s.setRingX k n r).csubs = s.csubs ∧ (s.setRingX k n r).anFail = s.anFail ∧ (s.setRingX k n r).portPll = s.portPll ∧
    (s.setRingX k n r).tsFifo = s.tsFifo ∧ (s.setRingX k n r).cue = s.cue ∧ (s.setRingX k n r).peerIn = s.peerIn ∧
    (s.setRingX k n r).cueReads = s.cueReads ∧ (s.setRingX k n r).cueTags = s.cueTags ∧ (s.setRingX k n r).winCommit = s.winCommit ∧
    (s.setRingX k n r).strapBalls = s.strapBalls ∧ (s.setRingX k n r).funcs = s.funcs ∧ (s.setRingX k n r).rrs = s.rrs ∧
    (s.setRingX k n r).msixTab = s.msixTab ∧ (s.setRingX k n r).msixPba = s.msixPba ∧ (s.setRingX k n r).hreads = s.hreads ∧
    (s.setRingX k n r).hreadCount = s.hreadCount ∧ (s.setRingX k n r).entries = s.entries ∧ (s.setRingX k n r).entryCount = s.entryCount ∧
    (s.setRingX k n r).hwq = s.hwq ∧ (s.setRingX k n r).atsCache = s.atsCache ∧ (s.setRingX k n r).atsInv = s.atsInv ∧
    (s.setRingX k n r).doe = s.doe ∧ (s.setRingX k n r).ideSecure = s.ideSecure ∧ (s.setRingX k n r).dark = s.dark ∧
    (s.setRingX k n r).darkDb = s.darkDb ∧ (s.setRingX k n r).logFilter = s.logFilter ∧ (s.setRingX k n r).logCons = s.logCons ∧
    (s.setRingX k n r).txJobs = s.txJobs ∧ (s.setRingX k n r).txCount = s.txCount ∧ (s.setRingX k n r).txGone = s.txGone ∧
    (s.setRingX k n r).held = s.held ∧ (s.setRingX k n r).stalled = s.stalled ∧ (s.setRingX k n r).fullerT = s.fullerT ∧
    (s.setRingX k n r).hostOut = s.hostOut ∧ (s.setRingX k n r).uc = s.uc ∧ (s.setRingX k n r).ucScratch = s.ucScratch ∧
    (s.setRingX k n r).ucLast = s.ucLast ∧ (s.setRingX k n r).ucPatch = s.ucPatch ∧ (s.setRingX k n r).ucBad = s.ucBad ∧
    (s.setRingX k n r).ucRegime = s.ucRegime ∧ (s.setRingX k n r).patchJob = s.patchJob ∧ (s.setRingX k n r).ucDoorbells = s.ucDoorbells ∧
    (s.setRingX k n r).genCount = s.genCount ∧ (s.setRingX k n r).capoOff = s.capoOff ∧ (s.setRingX k n r).ccReset = s.ccReset ∧
    (s.setRingX k n r).stoCmds = s.stoCmds ∧ (s.setRingX k n r).stoCount = s.stoCount ∧ (s.setRingX k n r).connx = s.connx ∧
    (s.setRingX k n r).bow = s.bow ∧ (s.setRingX k n r).bowPtr = s.bowPtr ∧ (s.setRingX k n r).icuHold = s.icuHold ∧
    (s.setRingX k n r).icuStack = s.icuStack ∧ (s.setRingX k n r).pwrTarget = s.pwrTarget ∧ (s.setRingX k n r).pwrByReq = s.pwrByReq ∧
    (s.setRingX k n r).pwrRev = s.pwrRev ∧ (s.setRingX k n r).pwrNs = s.pwrNs ∧ (s.setRingX k n r).pwrSince = s.pwrSince ∧
    (s.setRingX k n r).clkBase = s.clkBase ∧ (s.setRingX k n r).pwrSelfRef = s.pwrSelfRef ∧ (s.setRingX k n r).vddCore = s.vddCore ∧
    (s.setRingX k n r).hold = s.hold ∧ (s.setRingX k n r).resetNs = s.resetNs ∧ (s.setRingX k n r).bootNs = s.bootNs ∧
    (s.setRingX k n r).warm = s.warm ∧ (s.setRingX k n r).warmSp = s.warmSp ∧ (s.setRingX k n r).warmFlr = s.warmFlr ∧
    (s.setRingX k n r).diceKeys = s.diceKeys ∧ (s.setRingX k n r).diceSealed = s.diceSealed ∧ (s.setRingX k n r).diceD = s.diceD ∧
    (s.setRingX k n r).diceSvn = s.diceSvn ∧ (s.setRingX k n r).diceSlot = s.diceSlot ∧ (s.setRingX k n r).diceDebug = s.diceDebug ∧
    (s.setRingX k n r).measPatch = s.measPatch ∧ (s.setRingX k n r).tid = s.tid ∧ (s.setRingX k n r).spdmBox = s.spdmBox ∧
    (s.setRingX k n r).wdogNs = s.wdogNs ∧ (s.setRingX k n r).wdogHeld = s.wdogHeld ∧ (s.setRingX k n r).chalValid = s.chalValid ∧
    (s.setRingX k n r).jtagIr = s.jtagIr ∧ (s.setRingX k n r).rngDead = s.rngDead ∧ (s.setRingX k n r).spTestFail = s.spTestFail ∧
    (s.setRingX k n r).drbgCount = s.drbgCount ∧ (s.setRingX k n r).seqLeft = s.seqLeft ∧ (s.setRingX k n r).pending = s.pending :=
  ⟨rfl, rfl, rfl, rfl, rfl, rfl, rfl, rfl, rfl, rfl, rfl, rfl, rfl, rfl, rfl, rfl, rfl, rfl, rfl, rfl, rfl, rfl, rfl, rfl, rfl,
   rfl, rfl, rfl, rfl, rfl, rfl, rfl, rfl, rfl, rfl, rfl, rfl, rfl, rfl, rfl, rfl, rfl, rfl, rfl, rfl, rfl, rfl, rfl, rfl, rfl,
   rfl, rfl, rfl, rfl, rfl, rfl, rfl, rfl, rfl, rfl, rfl, rfl, rfl, rfl, rfl, rfl, rfl, rfl, rfl, rfl, rfl, rfl, rfl, rfl, rfl,
   rfl, rfl, rfl, rfl, rfl, rfl, rfl, rfl, rfl, rfl, rfl, rfl, rfl, rfl, rfl, rfl, rfl, rfl, rfl, rfl, rfl, rfl, rfl, rfl, rfl,
   rfl, rfl, rfl, rfl, rfl, rfl, rfl, rfl, rfl, rfl, rfl, rfl, rfl, rfl, rfl, rfl, rfl, rfl, rfl, rfl, rfl, rfl, rfl, rfl, rfl,
   rfl, rfl, rfl, rfl⟩

@[simp] theorem State.setUc_fields (s : State) (x : Nat) (c : UcCtx) :
    (s.setUc x c).regs = s.regs ∧ (s.setUc x c).mem = s.mem ∧ (s.setUc x c).lost = s.lost ∧ (s.setUc x c).poison = s.poison ∧
    (s.setUc x c).ns = s.ns ∧ (s.setUc x c).time = s.time ∧ (s.setUc x c).free = s.free ∧ (s.setUc x c).out = s.out ∧ (s.setUc x c).latch = s.latch ∧
    (s.setUc x c).errSec = s.errSec ∧ (s.setUc x c).wakeReq = s.wakeReq ∧ (s.setUc x c).threads = s.threads ∧ (s.setUc x c).cores = s.cores ∧
    (s.setUc x c).chans = s.chans ∧ (s.setUc x c).unitPtr = s.unitPtr ∧ (s.setUc x c).parBusy = s.parBusy ∧ (s.setUc x c).polarity = s.polarity ∧
    (s.setUc x c).pegs = s.pegs ∧ (s.setUc x c).ports = s.ports ∧ (s.setUc x c).rr = s.rr ∧ (s.setUc x c).frames = s.frames ∧
    (s.setUc x c).handles = s.handles ∧ (s.setUc x c).arrivals = s.arrivals ∧ (s.setUc x c).fc = s.fc ∧ (s.setUc x c).pend = s.pend ∧
    (s.setUc x c).actFifo = s.actFifo ∧ (s.setUc x c).tmIn = s.tmIn ∧ (s.setUc x c).actLists = s.actLists ∧ (s.setUc x c).pushId = s.pushId ∧
    (s.setUc x c).mirrorCount = s.mirrorCount ∧ (s.setUc x c).tmFifo = s.tmFifo ∧ (s.setUc x c).tmAux = s.tmAux ∧ (s.setUc x c).polAux = s.polAux ∧
    (s.setUc x c).lookups = s.lookups ∧ (s.setUc x c).overlay = s.overlay ∧ (s.setUc x c).draining = s.draining ∧
    (s.setUc x c).learnSeq = s.learnSeq ∧ (s.setUc x c).parked = s.parked ∧ (s.setUc x c).emFresh = s.emFresh ∧ (s.setUc x c).emCount = s.emCount ∧
    (s.setUc x c).extTaint = s.extTaint ∧ (s.setUc x c).tblDiffs = s.tblDiffs ∧ (s.setUc x c).orderSeen = s.orderSeen ∧ (s.setUc x c).keys = s.keys ∧
    (s.setUc x c).klwCmd = s.klwCmd ∧ (s.setUc x c).csubs = s.csubs ∧ (s.setUc x c).anFail = s.anFail ∧ (s.setUc x c).portPll = s.portPll ∧
    (s.setUc x c).tsFifo = s.tsFifo ∧ (s.setUc x c).cue = s.cue ∧ (s.setUc x c).peerIn = s.peerIn ∧ (s.setUc x c).cueReads = s.cueReads ∧
    (s.setUc x c).cueTags = s.cueTags ∧ (s.setUc x c).winCommit = s.winCommit ∧ (s.setUc x c).strapBalls = s.strapBalls ∧
    (s.setUc x c).funcs = s.funcs ∧ (s.setUc x c).rrs = s.rrs ∧ (s.setUc x c).msixTab = s.msixTab ∧ (s.setUc x c).msixPba = s.msixPba ∧
    (s.setUc x c).hreads = s.hreads ∧ (s.setUc x c).hreadCount = s.hreadCount ∧ (s.setUc x c).entries = s.entries ∧
    (s.setUc x c).entryCount = s.entryCount ∧ (s.setUc x c).hwq = s.hwq ∧ (s.setUc x c).atsCache = s.atsCache ∧ (s.setUc x c).atsInv = s.atsInv ∧
    (s.setUc x c).doe = s.doe ∧ (s.setUc x c).ideSecure = s.ideSecure ∧ (s.setUc x c).dark = s.dark ∧ (s.setUc x c).darkDb = s.darkDb ∧
    (s.setUc x c).logFilter = s.logFilter ∧ (s.setUc x c).logCons = s.logCons ∧ (s.setUc x c).ringx = s.ringx ∧ (s.setUc x c).txJobs = s.txJobs ∧
    (s.setUc x c).txCount = s.txCount ∧ (s.setUc x c).txGone = s.txGone ∧ (s.setUc x c).held = s.held ∧ (s.setUc x c).stalled = s.stalled ∧
    (s.setUc x c).fullerT = s.fullerT ∧ (s.setUc x c).hostOut = s.hostOut ∧ (s.setUc x c).ucScratch = s.ucScratch ∧ (s.setUc x c).ucLast = s.ucLast ∧
    (s.setUc x c).ucPatch = s.ucPatch ∧ (s.setUc x c).ucBad = s.ucBad ∧ (s.setUc x c).ucRegime = s.ucRegime ∧ (s.setUc x c).patchJob = s.patchJob ∧
    (s.setUc x c).ucDoorbells = s.ucDoorbells ∧ (s.setUc x c).genCount = s.genCount ∧ (s.setUc x c).capoOff = s.capoOff ∧
    (s.setUc x c).ccReset = s.ccReset ∧ (s.setUc x c).stoCmds = s.stoCmds ∧ (s.setUc x c).stoCount = s.stoCount ∧ (s.setUc x c).connx = s.connx ∧
    (s.setUc x c).bow = s.bow ∧ (s.setUc x c).bowPtr = s.bowPtr ∧ (s.setUc x c).icuHold = s.icuHold ∧ (s.setUc x c).icuStack = s.icuStack ∧
    (s.setUc x c).pwrTarget = s.pwrTarget ∧ (s.setUc x c).pwrByReq = s.pwrByReq ∧ (s.setUc x c).pwrRev = s.pwrRev ∧ (s.setUc x c).pwrNs = s.pwrNs ∧
    (s.setUc x c).pwrSince = s.pwrSince ∧ (s.setUc x c).clkBase = s.clkBase ∧ (s.setUc x c).pwrSelfRef = s.pwrSelfRef ∧
    (s.setUc x c).vddCore = s.vddCore ∧ (s.setUc x c).hold = s.hold ∧ (s.setUc x c).resetNs = s.resetNs ∧ (s.setUc x c).bootNs = s.bootNs ∧
    (s.setUc x c).warm = s.warm ∧ (s.setUc x c).warmSp = s.warmSp ∧ (s.setUc x c).warmFlr = s.warmFlr ∧ (s.setUc x c).diceKeys = s.diceKeys ∧
    (s.setUc x c).diceSealed = s.diceSealed ∧ (s.setUc x c).diceD = s.diceD ∧ (s.setUc x c).diceSvn = s.diceSvn ∧
    (s.setUc x c).diceSlot = s.diceSlot ∧ (s.setUc x c).diceDebug = s.diceDebug ∧ (s.setUc x c).measPatch = s.measPatch ∧ (s.setUc x c).tid = s.tid ∧
    (s.setUc x c).spdmBox = s.spdmBox ∧ (s.setUc x c).wdogNs = s.wdogNs ∧ (s.setUc x c).wdogHeld = s.wdogHeld ∧
    (s.setUc x c).chalValid = s.chalValid ∧ (s.setUc x c).jtagIr = s.jtagIr ∧ (s.setUc x c).rngDead = s.rngDead ∧
    (s.setUc x c).spTestFail = s.spTestFail ∧ (s.setUc x c).drbgCount = s.drbgCount ∧ (s.setUc x c).seqLeft = s.seqLeft ∧
    (s.setUc x c).pending = s.pending :=
  ⟨rfl, rfl, rfl, rfl, rfl, rfl, rfl, rfl, rfl, rfl, rfl, rfl, rfl, rfl, rfl, rfl, rfl, rfl, rfl, rfl, rfl, rfl, rfl, rfl, rfl,
   rfl, rfl, rfl, rfl, rfl, rfl, rfl, rfl, rfl, rfl, rfl, rfl, rfl, rfl, rfl, rfl, rfl, rfl, rfl, rfl, rfl, rfl, rfl, rfl, rfl,
   rfl, rfl, rfl, rfl, rfl, rfl, rfl, rfl, rfl, rfl, rfl, rfl, rfl, rfl, rfl, rfl, rfl, rfl, rfl, rfl, rfl, rfl, rfl, rfl, rfl,
   rfl, rfl, rfl, rfl, rfl, rfl, rfl, rfl, rfl, rfl, rfl, rfl, rfl, rfl, rfl, rfl, rfl, rfl, rfl, rfl, rfl, rfl, rfl, rfl, rfl,
   rfl, rfl, rfl, rfl, rfl, rfl, rfl, rfl, rfl, rfl, rfl, rfl, rfl, rfl, rfl, rfl, rfl, rfl, rfl, rfl, rfl, rfl, rfl, rfl, rfl,
   rfl, rfl, rfl, rfl⟩

@[simp] theorem State.setUcSt_fields (s : State) (x st : Nat) :
    (s.setUcSt x st).mem = s.mem ∧ (s.setUcSt x st).lost = s.lost ∧ (s.setUcSt x st).poison = s.poison ∧ (s.setUcSt x st).ns = s.ns ∧
    (s.setUcSt x st).time = s.time ∧ (s.setUcSt x st).free = s.free ∧ (s.setUcSt x st).out = s.out ∧ (s.setUcSt x st).latch = s.latch ∧
    (s.setUcSt x st).errSec = s.errSec ∧ (s.setUcSt x st).wakeReq = s.wakeReq ∧ (s.setUcSt x st).threads = s.threads ∧
    (s.setUcSt x st).cores = s.cores ∧ (s.setUcSt x st).chans = s.chans ∧ (s.setUcSt x st).unitPtr = s.unitPtr ∧
    (s.setUcSt x st).parBusy = s.parBusy ∧ (s.setUcSt x st).polarity = s.polarity ∧ (s.setUcSt x st).pegs = s.pegs ∧
    (s.setUcSt x st).ports = s.ports ∧ (s.setUcSt x st).rr = s.rr ∧ (s.setUcSt x st).frames = s.frames ∧ (s.setUcSt x st).handles = s.handles ∧
    (s.setUcSt x st).arrivals = s.arrivals ∧ (s.setUcSt x st).fc = s.fc ∧ (s.setUcSt x st).pend = s.pend ∧ (s.setUcSt x st).actFifo = s.actFifo ∧
    (s.setUcSt x st).tmIn = s.tmIn ∧ (s.setUcSt x st).actLists = s.actLists ∧ (s.setUcSt x st).pushId = s.pushId ∧
    (s.setUcSt x st).mirrorCount = s.mirrorCount ∧ (s.setUcSt x st).tmFifo = s.tmFifo ∧ (s.setUcSt x st).tmAux = s.tmAux ∧
    (s.setUcSt x st).polAux = s.polAux ∧ (s.setUcSt x st).lookups = s.lookups ∧ (s.setUcSt x st).overlay = s.overlay ∧
    (s.setUcSt x st).draining = s.draining ∧ (s.setUcSt x st).learnSeq = s.learnSeq ∧ (s.setUcSt x st).parked = s.parked ∧
    (s.setUcSt x st).emFresh = s.emFresh ∧ (s.setUcSt x st).emCount = s.emCount ∧ (s.setUcSt x st).extTaint = s.extTaint ∧
    (s.setUcSt x st).tblDiffs = s.tblDiffs ∧ (s.setUcSt x st).orderSeen = s.orderSeen ∧ (s.setUcSt x st).keys = s.keys ∧
    (s.setUcSt x st).klwCmd = s.klwCmd ∧ (s.setUcSt x st).csubs = s.csubs ∧ (s.setUcSt x st).anFail = s.anFail ∧
    (s.setUcSt x st).portPll = s.portPll ∧ (s.setUcSt x st).tsFifo = s.tsFifo ∧ (s.setUcSt x st).cue = s.cue ∧ (s.setUcSt x st).peerIn = s.peerIn ∧
    (s.setUcSt x st).cueReads = s.cueReads ∧ (s.setUcSt x st).cueTags = s.cueTags ∧ (s.setUcSt x st).winCommit = s.winCommit ∧
    (s.setUcSt x st).strapBalls = s.strapBalls ∧ (s.setUcSt x st).funcs = s.funcs ∧ (s.setUcSt x st).rrs = s.rrs ∧
    (s.setUcSt x st).msixTab = s.msixTab ∧ (s.setUcSt x st).msixPba = s.msixPba ∧ (s.setUcSt x st).hreads = s.hreads ∧
    (s.setUcSt x st).hreadCount = s.hreadCount ∧ (s.setUcSt x st).entries = s.entries ∧ (s.setUcSt x st).entryCount = s.entryCount ∧
    (s.setUcSt x st).hwq = s.hwq ∧ (s.setUcSt x st).atsCache = s.atsCache ∧ (s.setUcSt x st).atsInv = s.atsInv ∧ (s.setUcSt x st).doe = s.doe ∧
    (s.setUcSt x st).ideSecure = s.ideSecure ∧ (s.setUcSt x st).dark = s.dark ∧ (s.setUcSt x st).darkDb = s.darkDb ∧
    (s.setUcSt x st).logFilter = s.logFilter ∧ (s.setUcSt x st).logCons = s.logCons ∧ (s.setUcSt x st).ringx = s.ringx ∧
    (s.setUcSt x st).txJobs = s.txJobs ∧ (s.setUcSt x st).txCount = s.txCount ∧ (s.setUcSt x st).txGone = s.txGone ∧ (s.setUcSt x st).held = s.held ∧
    (s.setUcSt x st).stalled = s.stalled ∧ (s.setUcSt x st).fullerT = s.fullerT ∧ (s.setUcSt x st).hostOut = s.hostOut ∧ (s.setUcSt x st).uc = s.uc ∧
    (s.setUcSt x st).ucScratch = s.ucScratch ∧ (s.setUcSt x st).ucLast = s.ucLast ∧ (s.setUcSt x st).ucPatch = s.ucPatch ∧
    (s.setUcSt x st).ucBad = s.ucBad ∧ (s.setUcSt x st).ucRegime = s.ucRegime ∧ (s.setUcSt x st).patchJob = s.patchJob ∧
    (s.setUcSt x st).ucDoorbells = s.ucDoorbells ∧ (s.setUcSt x st).genCount = s.genCount ∧ (s.setUcSt x st).capoOff = s.capoOff ∧
    (s.setUcSt x st).ccReset = s.ccReset ∧ (s.setUcSt x st).stoCmds = s.stoCmds ∧ (s.setUcSt x st).stoCount = s.stoCount ∧
    (s.setUcSt x st).connx = s.connx ∧ (s.setUcSt x st).bow = s.bow ∧ (s.setUcSt x st).bowPtr = s.bowPtr ∧ (s.setUcSt x st).icuHold = s.icuHold ∧
    (s.setUcSt x st).icuStack = s.icuStack ∧ (s.setUcSt x st).pwrTarget = s.pwrTarget ∧ (s.setUcSt x st).pwrByReq = s.pwrByReq ∧
    (s.setUcSt x st).pwrRev = s.pwrRev ∧ (s.setUcSt x st).pwrNs = s.pwrNs ∧ (s.setUcSt x st).pwrSince = s.pwrSince ∧
    (s.setUcSt x st).clkBase = s.clkBase ∧ (s.setUcSt x st).pwrSelfRef = s.pwrSelfRef ∧ (s.setUcSt x st).vddCore = s.vddCore ∧
    (s.setUcSt x st).hold = s.hold ∧ (s.setUcSt x st).resetNs = s.resetNs ∧ (s.setUcSt x st).bootNs = s.bootNs ∧ (s.setUcSt x st).warm = s.warm ∧
    (s.setUcSt x st).warmSp = s.warmSp ∧ (s.setUcSt x st).warmFlr = s.warmFlr ∧ (s.setUcSt x st).diceKeys = s.diceKeys ∧
    (s.setUcSt x st).diceSealed = s.diceSealed ∧ (s.setUcSt x st).diceD = s.diceD ∧ (s.setUcSt x st).diceSvn = s.diceSvn ∧
    (s.setUcSt x st).diceSlot = s.diceSlot ∧ (s.setUcSt x st).diceDebug = s.diceDebug ∧ (s.setUcSt x st).measPatch = s.measPatch ∧
    (s.setUcSt x st).tid = s.tid ∧ (s.setUcSt x st).spdmBox = s.spdmBox ∧ (s.setUcSt x st).wdogNs = s.wdogNs ∧
    (s.setUcSt x st).wdogHeld = s.wdogHeld ∧ (s.setUcSt x st).chalValid = s.chalValid ∧ (s.setUcSt x st).jtagIr = s.jtagIr ∧
    (s.setUcSt x st).rngDead = s.rngDead ∧ (s.setUcSt x st).spTestFail = s.spTestFail ∧ (s.setUcSt x st).drbgCount = s.drbgCount ∧
    (s.setUcSt x st).seqLeft = s.seqLeft ∧ (s.setUcSt x st).pending = s.pending :=
  ⟨rfl, rfl, rfl, rfl, rfl, rfl, rfl, rfl, rfl, rfl, rfl, rfl, rfl, rfl, rfl, rfl, rfl, rfl, rfl, rfl, rfl, rfl, rfl, rfl, rfl,
   rfl, rfl, rfl, rfl, rfl, rfl, rfl, rfl, rfl, rfl, rfl, rfl, rfl, rfl, rfl, rfl, rfl, rfl, rfl, rfl, rfl, rfl, rfl, rfl, rfl,
   rfl, rfl, rfl, rfl, rfl, rfl, rfl, rfl, rfl, rfl, rfl, rfl, rfl, rfl, rfl, rfl, rfl, rfl, rfl, rfl, rfl, rfl, rfl, rfl, rfl,
   rfl, rfl, rfl, rfl, rfl, rfl, rfl, rfl, rfl, rfl, rfl, rfl, rfl, rfl, rfl, rfl, rfl, rfl, rfl, rfl, rfl, rfl, rfl, rfl, rfl,
   rfl, rfl, rfl, rfl, rfl, rfl, rfl, rfl, rfl, rfl, rfl, rfl, rfl, rfl, rfl, rfl, rfl, rfl, rfl, rfl, rfl, rfl, rfl, rfl, rfl,
   rfl, rfl, rfl, rfl⟩

@[simp] theorem State.setUcPc_fields (s : State) (x pc : Nat) :
    (s.setUcPc x pc).mem = s.mem ∧ (s.setUcPc x pc).lost = s.lost ∧ (s.setUcPc x pc).poison = s.poison ∧ (s.setUcPc x pc).ns = s.ns ∧
    (s.setUcPc x pc).time = s.time ∧ (s.setUcPc x pc).free = s.free ∧ (s.setUcPc x pc).out = s.out ∧ (s.setUcPc x pc).latch = s.latch ∧
    (s.setUcPc x pc).errSec = s.errSec ∧ (s.setUcPc x pc).wakeReq = s.wakeReq ∧ (s.setUcPc x pc).threads = s.threads ∧
    (s.setUcPc x pc).cores = s.cores ∧ (s.setUcPc x pc).chans = s.chans ∧ (s.setUcPc x pc).unitPtr = s.unitPtr ∧
    (s.setUcPc x pc).parBusy = s.parBusy ∧ (s.setUcPc x pc).polarity = s.polarity ∧ (s.setUcPc x pc).pegs = s.pegs ∧
    (s.setUcPc x pc).ports = s.ports ∧ (s.setUcPc x pc).rr = s.rr ∧ (s.setUcPc x pc).frames = s.frames ∧ (s.setUcPc x pc).handles = s.handles ∧
    (s.setUcPc x pc).arrivals = s.arrivals ∧ (s.setUcPc x pc).fc = s.fc ∧ (s.setUcPc x pc).pend = s.pend ∧ (s.setUcPc x pc).actFifo = s.actFifo ∧
    (s.setUcPc x pc).tmIn = s.tmIn ∧ (s.setUcPc x pc).actLists = s.actLists ∧ (s.setUcPc x pc).pushId = s.pushId ∧
    (s.setUcPc x pc).mirrorCount = s.mirrorCount ∧ (s.setUcPc x pc).tmFifo = s.tmFifo ∧ (s.setUcPc x pc).tmAux = s.tmAux ∧
    (s.setUcPc x pc).polAux = s.polAux ∧ (s.setUcPc x pc).lookups = s.lookups ∧ (s.setUcPc x pc).overlay = s.overlay ∧
    (s.setUcPc x pc).draining = s.draining ∧ (s.setUcPc x pc).learnSeq = s.learnSeq ∧ (s.setUcPc x pc).parked = s.parked ∧
    (s.setUcPc x pc).emFresh = s.emFresh ∧ (s.setUcPc x pc).emCount = s.emCount ∧ (s.setUcPc x pc).extTaint = s.extTaint ∧
    (s.setUcPc x pc).tblDiffs = s.tblDiffs ∧ (s.setUcPc x pc).orderSeen = s.orderSeen ∧ (s.setUcPc x pc).keys = s.keys ∧
    (s.setUcPc x pc).klwCmd = s.klwCmd ∧ (s.setUcPc x pc).csubs = s.csubs ∧ (s.setUcPc x pc).anFail = s.anFail ∧
    (s.setUcPc x pc).portPll = s.portPll ∧ (s.setUcPc x pc).tsFifo = s.tsFifo ∧ (s.setUcPc x pc).cue = s.cue ∧ (s.setUcPc x pc).peerIn = s.peerIn ∧
    (s.setUcPc x pc).cueReads = s.cueReads ∧ (s.setUcPc x pc).cueTags = s.cueTags ∧ (s.setUcPc x pc).winCommit = s.winCommit ∧
    (s.setUcPc x pc).strapBalls = s.strapBalls ∧ (s.setUcPc x pc).funcs = s.funcs ∧ (s.setUcPc x pc).rrs = s.rrs ∧
    (s.setUcPc x pc).msixTab = s.msixTab ∧ (s.setUcPc x pc).msixPba = s.msixPba ∧ (s.setUcPc x pc).hreads = s.hreads ∧
    (s.setUcPc x pc).hreadCount = s.hreadCount ∧ (s.setUcPc x pc).entries = s.entries ∧ (s.setUcPc x pc).entryCount = s.entryCount ∧
    (s.setUcPc x pc).hwq = s.hwq ∧ (s.setUcPc x pc).atsCache = s.atsCache ∧ (s.setUcPc x pc).atsInv = s.atsInv ∧ (s.setUcPc x pc).doe = s.doe ∧
    (s.setUcPc x pc).ideSecure = s.ideSecure ∧ (s.setUcPc x pc).dark = s.dark ∧ (s.setUcPc x pc).darkDb = s.darkDb ∧
    (s.setUcPc x pc).logFilter = s.logFilter ∧ (s.setUcPc x pc).logCons = s.logCons ∧ (s.setUcPc x pc).ringx = s.ringx ∧
    (s.setUcPc x pc).txJobs = s.txJobs ∧ (s.setUcPc x pc).txCount = s.txCount ∧ (s.setUcPc x pc).txGone = s.txGone ∧ (s.setUcPc x pc).held = s.held ∧
    (s.setUcPc x pc).stalled = s.stalled ∧ (s.setUcPc x pc).fullerT = s.fullerT ∧ (s.setUcPc x pc).hostOut = s.hostOut ∧ (s.setUcPc x pc).uc = s.uc ∧
    (s.setUcPc x pc).ucScratch = s.ucScratch ∧ (s.setUcPc x pc).ucLast = s.ucLast ∧ (s.setUcPc x pc).ucPatch = s.ucPatch ∧
    (s.setUcPc x pc).ucBad = s.ucBad ∧ (s.setUcPc x pc).ucRegime = s.ucRegime ∧ (s.setUcPc x pc).patchJob = s.patchJob ∧
    (s.setUcPc x pc).ucDoorbells = s.ucDoorbells ∧ (s.setUcPc x pc).genCount = s.genCount ∧ (s.setUcPc x pc).capoOff = s.capoOff ∧
    (s.setUcPc x pc).ccReset = s.ccReset ∧ (s.setUcPc x pc).stoCmds = s.stoCmds ∧ (s.setUcPc x pc).stoCount = s.stoCount ∧
    (s.setUcPc x pc).connx = s.connx ∧ (s.setUcPc x pc).bow = s.bow ∧ (s.setUcPc x pc).bowPtr = s.bowPtr ∧ (s.setUcPc x pc).icuHold = s.icuHold ∧
    (s.setUcPc x pc).icuStack = s.icuStack ∧ (s.setUcPc x pc).pwrTarget = s.pwrTarget ∧ (s.setUcPc x pc).pwrByReq = s.pwrByReq ∧
    (s.setUcPc x pc).pwrRev = s.pwrRev ∧ (s.setUcPc x pc).pwrNs = s.pwrNs ∧ (s.setUcPc x pc).pwrSince = s.pwrSince ∧
    (s.setUcPc x pc).clkBase = s.clkBase ∧ (s.setUcPc x pc).pwrSelfRef = s.pwrSelfRef ∧ (s.setUcPc x pc).vddCore = s.vddCore ∧
    (s.setUcPc x pc).hold = s.hold ∧ (s.setUcPc x pc).resetNs = s.resetNs ∧ (s.setUcPc x pc).bootNs = s.bootNs ∧ (s.setUcPc x pc).warm = s.warm ∧
    (s.setUcPc x pc).warmSp = s.warmSp ∧ (s.setUcPc x pc).warmFlr = s.warmFlr ∧ (s.setUcPc x pc).diceKeys = s.diceKeys ∧
    (s.setUcPc x pc).diceSealed = s.diceSealed ∧ (s.setUcPc x pc).diceD = s.diceD ∧ (s.setUcPc x pc).diceSvn = s.diceSvn ∧
    (s.setUcPc x pc).diceSlot = s.diceSlot ∧ (s.setUcPc x pc).diceDebug = s.diceDebug ∧ (s.setUcPc x pc).measPatch = s.measPatch ∧
    (s.setUcPc x pc).tid = s.tid ∧ (s.setUcPc x pc).spdmBox = s.spdmBox ∧ (s.setUcPc x pc).wdogNs = s.wdogNs ∧
    (s.setUcPc x pc).wdogHeld = s.wdogHeld ∧ (s.setUcPc x pc).chalValid = s.chalValid ∧ (s.setUcPc x pc).jtagIr = s.jtagIr ∧
    (s.setUcPc x pc).rngDead = s.rngDead ∧ (s.setUcPc x pc).spTestFail = s.spTestFail ∧ (s.setUcPc x pc).drbgCount = s.drbgCount ∧
    (s.setUcPc x pc).seqLeft = s.seqLeft ∧ (s.setUcPc x pc).pending = s.pending :=
  ⟨rfl, rfl, rfl, rfl, rfl, rfl, rfl, rfl, rfl, rfl, rfl, rfl, rfl, rfl, rfl, rfl, rfl, rfl, rfl, rfl, rfl, rfl, rfl, rfl, rfl,
   rfl, rfl, rfl, rfl, rfl, rfl, rfl, rfl, rfl, rfl, rfl, rfl, rfl, rfl, rfl, rfl, rfl, rfl, rfl, rfl, rfl, rfl, rfl, rfl, rfl,
   rfl, rfl, rfl, rfl, rfl, rfl, rfl, rfl, rfl, rfl, rfl, rfl, rfl, rfl, rfl, rfl, rfl, rfl, rfl, rfl, rfl, rfl, rfl, rfl, rfl,
   rfl, rfl, rfl, rfl, rfl, rfl, rfl, rfl, rfl, rfl, rfl, rfl, rfl, rfl, rfl, rfl, rfl, rfl, rfl, rfl, rfl, rfl, rfl, rfl, rfl,
   rfl, rfl, rfl, rfl, rfl, rfl, rfl, rfl, rfl, rfl, rfl, rfl, rfl, rfl, rfl, rfl, rfl, rfl, rfl, rfl, rfl, rfl, rfl, rfl, rfl,
   rfl, rfl, rfl, rfl⟩

@[simp] theorem State.setInstState_fields (s : State) (i st : Nat) :
    (s.setInstState i st).mem = s.mem ∧ (s.setInstState i st).lost = s.lost ∧ (s.setInstState i st).poison = s.poison ∧
    (s.setInstState i st).ns = s.ns ∧ (s.setInstState i st).time = s.time ∧ (s.setInstState i st).free = s.free ∧ (s.setInstState i st).out = s.out ∧
    (s.setInstState i st).latch = s.latch ∧ (s.setInstState i st).errSec = s.errSec ∧ (s.setInstState i st).wakeReq = s.wakeReq ∧
    (s.setInstState i st).threads = s.threads ∧ (s.setInstState i st).cores = s.cores ∧ (s.setInstState i st).chans = s.chans ∧
    (s.setInstState i st).unitPtr = s.unitPtr ∧ (s.setInstState i st).parBusy = s.parBusy ∧ (s.setInstState i st).polarity = s.polarity ∧
    (s.setInstState i st).pegs = s.pegs ∧ (s.setInstState i st).ports = s.ports ∧ (s.setInstState i st).rr = s.rr ∧
    (s.setInstState i st).frames = s.frames ∧ (s.setInstState i st).handles = s.handles ∧ (s.setInstState i st).arrivals = s.arrivals ∧
    (s.setInstState i st).fc = s.fc ∧ (s.setInstState i st).pend = s.pend ∧ (s.setInstState i st).actFifo = s.actFifo ∧
    (s.setInstState i st).tmIn = s.tmIn ∧ (s.setInstState i st).actLists = s.actLists ∧ (s.setInstState i st).pushId = s.pushId ∧
    (s.setInstState i st).mirrorCount = s.mirrorCount ∧ (s.setInstState i st).tmFifo = s.tmFifo ∧ (s.setInstState i st).tmAux = s.tmAux ∧
    (s.setInstState i st).polAux = s.polAux ∧ (s.setInstState i st).lookups = s.lookups ∧ (s.setInstState i st).overlay = s.overlay ∧
    (s.setInstState i st).draining = s.draining ∧ (s.setInstState i st).learnSeq = s.learnSeq ∧ (s.setInstState i st).parked = s.parked ∧
    (s.setInstState i st).emFresh = s.emFresh ∧ (s.setInstState i st).emCount = s.emCount ∧ (s.setInstState i st).extTaint = s.extTaint ∧
    (s.setInstState i st).tblDiffs = s.tblDiffs ∧ (s.setInstState i st).orderSeen = s.orderSeen ∧ (s.setInstState i st).keys = s.keys ∧
    (s.setInstState i st).klwCmd = s.klwCmd ∧ (s.setInstState i st).csubs = s.csubs ∧ (s.setInstState i st).anFail = s.anFail ∧
    (s.setInstState i st).portPll = s.portPll ∧ (s.setInstState i st).tsFifo = s.tsFifo ∧ (s.setInstState i st).cue = s.cue ∧
    (s.setInstState i st).peerIn = s.peerIn ∧ (s.setInstState i st).cueReads = s.cueReads ∧ (s.setInstState i st).cueTags = s.cueTags ∧
    (s.setInstState i st).winCommit = s.winCommit ∧ (s.setInstState i st).strapBalls = s.strapBalls ∧ (s.setInstState i st).funcs = s.funcs ∧
    (s.setInstState i st).rrs = s.rrs ∧ (s.setInstState i st).msixTab = s.msixTab ∧ (s.setInstState i st).msixPba = s.msixPba ∧
    (s.setInstState i st).hreads = s.hreads ∧ (s.setInstState i st).hreadCount = s.hreadCount ∧ (s.setInstState i st).entries = s.entries ∧
    (s.setInstState i st).entryCount = s.entryCount ∧ (s.setInstState i st).hwq = s.hwq ∧ (s.setInstState i st).atsCache = s.atsCache ∧
    (s.setInstState i st).atsInv = s.atsInv ∧ (s.setInstState i st).doe = s.doe ∧ (s.setInstState i st).ideSecure = s.ideSecure ∧
    (s.setInstState i st).dark = s.dark ∧ (s.setInstState i st).darkDb = s.darkDb ∧ (s.setInstState i st).logFilter = s.logFilter ∧
    (s.setInstState i st).logCons = s.logCons ∧ (s.setInstState i st).ringx = s.ringx ∧ (s.setInstState i st).txJobs = s.txJobs ∧
    (s.setInstState i st).txCount = s.txCount ∧ (s.setInstState i st).txGone = s.txGone ∧ (s.setInstState i st).held = s.held ∧
    (s.setInstState i st).stalled = s.stalled ∧ (s.setInstState i st).fullerT = s.fullerT ∧ (s.setInstState i st).hostOut = s.hostOut ∧
    (s.setInstState i st).uc = s.uc ∧ (s.setInstState i st).ucScratch = s.ucScratch ∧ (s.setInstState i st).ucLast = s.ucLast ∧
    (s.setInstState i st).ucPatch = s.ucPatch ∧ (s.setInstState i st).ucBad = s.ucBad ∧ (s.setInstState i st).ucRegime = s.ucRegime ∧
    (s.setInstState i st).patchJob = s.patchJob ∧ (s.setInstState i st).ucDoorbells = s.ucDoorbells ∧ (s.setInstState i st).genCount = s.genCount ∧
    (s.setInstState i st).capoOff = s.capoOff ∧ (s.setInstState i st).ccReset = s.ccReset ∧ (s.setInstState i st).stoCmds = s.stoCmds ∧
    (s.setInstState i st).stoCount = s.stoCount ∧ (s.setInstState i st).connx = s.connx ∧ (s.setInstState i st).bow = s.bow ∧
    (s.setInstState i st).bowPtr = s.bowPtr ∧ (s.setInstState i st).icuHold = s.icuHold ∧ (s.setInstState i st).icuStack = s.icuStack ∧
    (s.setInstState i st).pwrTarget = s.pwrTarget ∧ (s.setInstState i st).pwrByReq = s.pwrByReq ∧ (s.setInstState i st).pwrRev = s.pwrRev ∧
    (s.setInstState i st).pwrNs = s.pwrNs ∧ (s.setInstState i st).pwrSince = s.pwrSince ∧ (s.setInstState i st).clkBase = s.clkBase ∧
    (s.setInstState i st).pwrSelfRef = s.pwrSelfRef ∧ (s.setInstState i st).vddCore = s.vddCore ∧ (s.setInstState i st).hold = s.hold ∧
    (s.setInstState i st).resetNs = s.resetNs ∧ (s.setInstState i st).bootNs = s.bootNs ∧ (s.setInstState i st).warm = s.warm ∧
    (s.setInstState i st).warmSp = s.warmSp ∧ (s.setInstState i st).warmFlr = s.warmFlr ∧ (s.setInstState i st).diceKeys = s.diceKeys ∧
    (s.setInstState i st).diceSealed = s.diceSealed ∧ (s.setInstState i st).diceD = s.diceD ∧ (s.setInstState i st).diceSvn = s.diceSvn ∧
    (s.setInstState i st).diceSlot = s.diceSlot ∧ (s.setInstState i st).diceDebug = s.diceDebug ∧ (s.setInstState i st).measPatch = s.measPatch ∧
    (s.setInstState i st).tid = s.tid ∧ (s.setInstState i st).spdmBox = s.spdmBox ∧ (s.setInstState i st).wdogNs = s.wdogNs ∧
    (s.setInstState i st).wdogHeld = s.wdogHeld ∧ (s.setInstState i st).chalValid = s.chalValid ∧ (s.setInstState i st).jtagIr = s.jtagIr ∧
    (s.setInstState i st).rngDead = s.rngDead ∧ (s.setInstState i st).spTestFail = s.spTestFail ∧ (s.setInstState i st).drbgCount = s.drbgCount ∧
    (s.setInstState i st).seqLeft = s.seqLeft ∧ (s.setInstState i st).pending = s.pending :=
  ⟨rfl, rfl, rfl, rfl, rfl, rfl, rfl, rfl, rfl, rfl, rfl, rfl, rfl, rfl, rfl, rfl, rfl, rfl, rfl, rfl, rfl, rfl, rfl, rfl, rfl,
   rfl, rfl, rfl, rfl, rfl, rfl, rfl, rfl, rfl, rfl, rfl, rfl, rfl, rfl, rfl, rfl, rfl, rfl, rfl, rfl, rfl, rfl, rfl, rfl, rfl,
   rfl, rfl, rfl, rfl, rfl, rfl, rfl, rfl, rfl, rfl, rfl, rfl, rfl, rfl, rfl, rfl, rfl, rfl, rfl, rfl, rfl, rfl, rfl, rfl, rfl,
   rfl, rfl, rfl, rfl, rfl, rfl, rfl, rfl, rfl, rfl, rfl, rfl, rfl, rfl, rfl, rfl, rfl, rfl, rfl, rfl, rfl, rfl, rfl, rfl, rfl,
   rfl, rfl, rfl, rfl, rfl, rfl, rfl, rfl, rfl, rfl, rfl, rfl, rfl, rfl, rfl, rfl, rfl, rfl, rfl, rfl, rfl, rfl, rfl, rfl, rfl,
   rfl, rfl, rfl, rfl⟩

@[simp] theorem State.setCmd_fields (s : State) (k : Nat) (c : StoCmd) :
    (s.setCmd k c).regs = s.regs ∧ (s.setCmd k c).mem = s.mem ∧ (s.setCmd k c).lost = s.lost ∧ (s.setCmd k c).poison = s.poison ∧
    (s.setCmd k c).ns = s.ns ∧ (s.setCmd k c).time = s.time ∧ (s.setCmd k c).free = s.free ∧ (s.setCmd k c).out = s.out ∧
    (s.setCmd k c).latch = s.latch ∧ (s.setCmd k c).errSec = s.errSec ∧ (s.setCmd k c).wakeReq = s.wakeReq ∧ (s.setCmd k c).threads = s.threads ∧
    (s.setCmd k c).cores = s.cores ∧ (s.setCmd k c).chans = s.chans ∧ (s.setCmd k c).unitPtr = s.unitPtr ∧ (s.setCmd k c).parBusy = s.parBusy ∧
    (s.setCmd k c).polarity = s.polarity ∧ (s.setCmd k c).pegs = s.pegs ∧ (s.setCmd k c).ports = s.ports ∧ (s.setCmd k c).rr = s.rr ∧
    (s.setCmd k c).frames = s.frames ∧ (s.setCmd k c).handles = s.handles ∧ (s.setCmd k c).arrivals = s.arrivals ∧ (s.setCmd k c).fc = s.fc ∧
    (s.setCmd k c).pend = s.pend ∧ (s.setCmd k c).actFifo = s.actFifo ∧ (s.setCmd k c).tmIn = s.tmIn ∧ (s.setCmd k c).actLists = s.actLists ∧
    (s.setCmd k c).pushId = s.pushId ∧ (s.setCmd k c).mirrorCount = s.mirrorCount ∧ (s.setCmd k c).tmFifo = s.tmFifo ∧
    (s.setCmd k c).tmAux = s.tmAux ∧ (s.setCmd k c).polAux = s.polAux ∧ (s.setCmd k c).lookups = s.lookups ∧ (s.setCmd k c).overlay = s.overlay ∧
    (s.setCmd k c).draining = s.draining ∧ (s.setCmd k c).learnSeq = s.learnSeq ∧ (s.setCmd k c).parked = s.parked ∧
    (s.setCmd k c).emFresh = s.emFresh ∧ (s.setCmd k c).emCount = s.emCount ∧ (s.setCmd k c).extTaint = s.extTaint ∧
    (s.setCmd k c).tblDiffs = s.tblDiffs ∧ (s.setCmd k c).orderSeen = s.orderSeen ∧ (s.setCmd k c).keys = s.keys ∧ (s.setCmd k c).klwCmd = s.klwCmd ∧
    (s.setCmd k c).csubs = s.csubs ∧ (s.setCmd k c).anFail = s.anFail ∧ (s.setCmd k c).portPll = s.portPll ∧ (s.setCmd k c).tsFifo = s.tsFifo ∧
    (s.setCmd k c).cue = s.cue ∧ (s.setCmd k c).peerIn = s.peerIn ∧ (s.setCmd k c).cueReads = s.cueReads ∧ (s.setCmd k c).cueTags = s.cueTags ∧
    (s.setCmd k c).winCommit = s.winCommit ∧ (s.setCmd k c).strapBalls = s.strapBalls ∧ (s.setCmd k c).funcs = s.funcs ∧ (s.setCmd k c).rrs = s.rrs ∧
    (s.setCmd k c).msixTab = s.msixTab ∧ (s.setCmd k c).msixPba = s.msixPba ∧ (s.setCmd k c).hreads = s.hreads ∧
    (s.setCmd k c).hreadCount = s.hreadCount ∧ (s.setCmd k c).entries = s.entries ∧ (s.setCmd k c).entryCount = s.entryCount ∧
    (s.setCmd k c).hwq = s.hwq ∧ (s.setCmd k c).atsCache = s.atsCache ∧ (s.setCmd k c).atsInv = s.atsInv ∧ (s.setCmd k c).doe = s.doe ∧
    (s.setCmd k c).ideSecure = s.ideSecure ∧ (s.setCmd k c).dark = s.dark ∧ (s.setCmd k c).darkDb = s.darkDb ∧
    (s.setCmd k c).logFilter = s.logFilter ∧ (s.setCmd k c).logCons = s.logCons ∧ (s.setCmd k c).ringx = s.ringx ∧ (s.setCmd k c).txJobs = s.txJobs ∧
    (s.setCmd k c).txCount = s.txCount ∧ (s.setCmd k c).txGone = s.txGone ∧ (s.setCmd k c).held = s.held ∧ (s.setCmd k c).stalled = s.stalled ∧
    (s.setCmd k c).fullerT = s.fullerT ∧ (s.setCmd k c).hostOut = s.hostOut ∧ (s.setCmd k c).uc = s.uc ∧ (s.setCmd k c).ucScratch = s.ucScratch ∧
    (s.setCmd k c).ucLast = s.ucLast ∧ (s.setCmd k c).ucPatch = s.ucPatch ∧ (s.setCmd k c).ucBad = s.ucBad ∧ (s.setCmd k c).ucRegime = s.ucRegime ∧
    (s.setCmd k c).patchJob = s.patchJob ∧ (s.setCmd k c).ucDoorbells = s.ucDoorbells ∧ (s.setCmd k c).genCount = s.genCount ∧
    (s.setCmd k c).capoOff = s.capoOff ∧ (s.setCmd k c).ccReset = s.ccReset ∧ (s.setCmd k c).stoCount = s.stoCount ∧ (s.setCmd k c).connx = s.connx ∧
    (s.setCmd k c).bow = s.bow ∧ (s.setCmd k c).bowPtr = s.bowPtr ∧ (s.setCmd k c).icuHold = s.icuHold ∧ (s.setCmd k c).icuStack = s.icuStack ∧
    (s.setCmd k c).pwrTarget = s.pwrTarget ∧ (s.setCmd k c).pwrByReq = s.pwrByReq ∧ (s.setCmd k c).pwrRev = s.pwrRev ∧
    (s.setCmd k c).pwrNs = s.pwrNs ∧ (s.setCmd k c).pwrSince = s.pwrSince ∧ (s.setCmd k c).clkBase = s.clkBase ∧
    (s.setCmd k c).pwrSelfRef = s.pwrSelfRef ∧ (s.setCmd k c).vddCore = s.vddCore ∧ (s.setCmd k c).hold = s.hold ∧
    (s.setCmd k c).resetNs = s.resetNs ∧ (s.setCmd k c).bootNs = s.bootNs ∧ (s.setCmd k c).warm = s.warm ∧ (s.setCmd k c).warmSp = s.warmSp ∧
    (s.setCmd k c).warmFlr = s.warmFlr ∧ (s.setCmd k c).diceKeys = s.diceKeys ∧ (s.setCmd k c).diceSealed = s.diceSealed ∧
    (s.setCmd k c).diceD = s.diceD ∧ (s.setCmd k c).diceSvn = s.diceSvn ∧ (s.setCmd k c).diceSlot = s.diceSlot ∧
    (s.setCmd k c).diceDebug = s.diceDebug ∧ (s.setCmd k c).measPatch = s.measPatch ∧ (s.setCmd k c).tid = s.tid ∧
    (s.setCmd k c).spdmBox = s.spdmBox ∧ (s.setCmd k c).wdogNs = s.wdogNs ∧ (s.setCmd k c).wdogHeld = s.wdogHeld ∧
    (s.setCmd k c).chalValid = s.chalValid ∧ (s.setCmd k c).jtagIr = s.jtagIr ∧ (s.setCmd k c).rngDead = s.rngDead ∧
    (s.setCmd k c).spTestFail = s.spTestFail ∧ (s.setCmd k c).drbgCount = s.drbgCount ∧ (s.setCmd k c).seqLeft = s.seqLeft ∧
    (s.setCmd k c).pending = s.pending :=
  ⟨rfl, rfl, rfl, rfl, rfl, rfl, rfl, rfl, rfl, rfl, rfl, rfl, rfl, rfl, rfl, rfl, rfl, rfl, rfl, rfl, rfl, rfl, rfl, rfl, rfl,
   rfl, rfl, rfl, rfl, rfl, rfl, rfl, rfl, rfl, rfl, rfl, rfl, rfl, rfl, rfl, rfl, rfl, rfl, rfl, rfl, rfl, rfl, rfl, rfl, rfl,
   rfl, rfl, rfl, rfl, rfl, rfl, rfl, rfl, rfl, rfl, rfl, rfl, rfl, rfl, rfl, rfl, rfl, rfl, rfl, rfl, rfl, rfl, rfl, rfl, rfl,
   rfl, rfl, rfl, rfl, rfl, rfl, rfl, rfl, rfl, rfl, rfl, rfl, rfl, rfl, rfl, rfl, rfl, rfl, rfl, rfl, rfl, rfl, rfl, rfl, rfl,
   rfl, rfl, rfl, rfl, rfl, rfl, rfl, rfl, rfl, rfl, rfl, rfl, rfl, rfl, rfl, rfl, rfl, rfl, rfl, rfl, rfl, rfl, rfl, rfl, rfl,
   rfl, rfl, rfl, rfl⟩

@[simp] theorem State.setConnX_fields (s : State) (k : Nat) (x : ConnX) :
    (s.setConnX k x).regs = s.regs ∧ (s.setConnX k x).mem = s.mem ∧ (s.setConnX k x).lost = s.lost ∧ (s.setConnX k x).poison = s.poison ∧
    (s.setConnX k x).ns = s.ns ∧ (s.setConnX k x).time = s.time ∧ (s.setConnX k x).free = s.free ∧ (s.setConnX k x).out = s.out ∧
    (s.setConnX k x).latch = s.latch ∧ (s.setConnX k x).errSec = s.errSec ∧ (s.setConnX k x).wakeReq = s.wakeReq ∧
    (s.setConnX k x).threads = s.threads ∧ (s.setConnX k x).cores = s.cores ∧ (s.setConnX k x).chans = s.chans ∧
    (s.setConnX k x).unitPtr = s.unitPtr ∧ (s.setConnX k x).parBusy = s.parBusy ∧ (s.setConnX k x).polarity = s.polarity ∧
    (s.setConnX k x).pegs = s.pegs ∧ (s.setConnX k x).ports = s.ports ∧ (s.setConnX k x).rr = s.rr ∧ (s.setConnX k x).frames = s.frames ∧
    (s.setConnX k x).handles = s.handles ∧ (s.setConnX k x).arrivals = s.arrivals ∧ (s.setConnX k x).fc = s.fc ∧ (s.setConnX k x).pend = s.pend ∧
    (s.setConnX k x).actFifo = s.actFifo ∧ (s.setConnX k x).tmIn = s.tmIn ∧ (s.setConnX k x).actLists = s.actLists ∧
    (s.setConnX k x).pushId = s.pushId ∧ (s.setConnX k x).mirrorCount = s.mirrorCount ∧ (s.setConnX k x).tmFifo = s.tmFifo ∧
    (s.setConnX k x).tmAux = s.tmAux ∧ (s.setConnX k x).polAux = s.polAux ∧ (s.setConnX k x).lookups = s.lookups ∧
    (s.setConnX k x).overlay = s.overlay ∧ (s.setConnX k x).draining = s.draining ∧ (s.setConnX k x).learnSeq = s.learnSeq ∧
    (s.setConnX k x).parked = s.parked ∧ (s.setConnX k x).emFresh = s.emFresh ∧ (s.setConnX k x).emCount = s.emCount ∧
    (s.setConnX k x).extTaint = s.extTaint ∧ (s.setConnX k x).tblDiffs = s.tblDiffs ∧ (s.setConnX k x).orderSeen = s.orderSeen ∧
    (s.setConnX k x).keys = s.keys ∧ (s.setConnX k x).klwCmd = s.klwCmd ∧ (s.setConnX k x).csubs = s.csubs ∧ (s.setConnX k x).anFail = s.anFail ∧
    (s.setConnX k x).portPll = s.portPll ∧ (s.setConnX k x).tsFifo = s.tsFifo ∧ (s.setConnX k x).cue = s.cue ∧ (s.setConnX k x).peerIn = s.peerIn ∧
    (s.setConnX k x).cueReads = s.cueReads ∧ (s.setConnX k x).cueTags = s.cueTags ∧ (s.setConnX k x).winCommit = s.winCommit ∧
    (s.setConnX k x).strapBalls = s.strapBalls ∧ (s.setConnX k x).funcs = s.funcs ∧ (s.setConnX k x).rrs = s.rrs ∧
    (s.setConnX k x).msixTab = s.msixTab ∧ (s.setConnX k x).msixPba = s.msixPba ∧ (s.setConnX k x).hreads = s.hreads ∧
    (s.setConnX k x).hreadCount = s.hreadCount ∧ (s.setConnX k x).entries = s.entries ∧ (s.setConnX k x).entryCount = s.entryCount ∧
    (s.setConnX k x).hwq = s.hwq ∧ (s.setConnX k x).atsCache = s.atsCache ∧ (s.setConnX k x).atsInv = s.atsInv ∧ (s.setConnX k x).doe = s.doe ∧
    (s.setConnX k x).ideSecure = s.ideSecure ∧ (s.setConnX k x).dark = s.dark ∧ (s.setConnX k x).darkDb = s.darkDb ∧
    (s.setConnX k x).logFilter = s.logFilter ∧ (s.setConnX k x).logCons = s.logCons ∧ (s.setConnX k x).ringx = s.ringx ∧
    (s.setConnX k x).txJobs = s.txJobs ∧ (s.setConnX k x).txCount = s.txCount ∧ (s.setConnX k x).txGone = s.txGone ∧ (s.setConnX k x).held = s.held ∧
    (s.setConnX k x).stalled = s.stalled ∧ (s.setConnX k x).fullerT = s.fullerT ∧ (s.setConnX k x).hostOut = s.hostOut ∧ (s.setConnX k x).uc = s.uc ∧
    (s.setConnX k x).ucScratch = s.ucScratch ∧ (s.setConnX k x).ucLast = s.ucLast ∧ (s.setConnX k x).ucPatch = s.ucPatch ∧
    (s.setConnX k x).ucBad = s.ucBad ∧ (s.setConnX k x).ucRegime = s.ucRegime ∧ (s.setConnX k x).patchJob = s.patchJob ∧
    (s.setConnX k x).ucDoorbells = s.ucDoorbells ∧ (s.setConnX k x).genCount = s.genCount ∧ (s.setConnX k x).capoOff = s.capoOff ∧
    (s.setConnX k x).ccReset = s.ccReset ∧ (s.setConnX k x).stoCmds = s.stoCmds ∧ (s.setConnX k x).stoCount = s.stoCount ∧
    (s.setConnX k x).bow = s.bow ∧ (s.setConnX k x).bowPtr = s.bowPtr ∧ (s.setConnX k x).icuHold = s.icuHold ∧
    (s.setConnX k x).icuStack = s.icuStack ∧ (s.setConnX k x).pwrTarget = s.pwrTarget ∧ (s.setConnX k x).pwrByReq = s.pwrByReq ∧
    (s.setConnX k x).pwrRev = s.pwrRev ∧ (s.setConnX k x).pwrNs = s.pwrNs ∧ (s.setConnX k x).pwrSince = s.pwrSince ∧
    (s.setConnX k x).clkBase = s.clkBase ∧ (s.setConnX k x).pwrSelfRef = s.pwrSelfRef ∧ (s.setConnX k x).vddCore = s.vddCore ∧
    (s.setConnX k x).hold = s.hold ∧ (s.setConnX k x).resetNs = s.resetNs ∧ (s.setConnX k x).bootNs = s.bootNs ∧ (s.setConnX k x).warm = s.warm ∧
    (s.setConnX k x).warmSp = s.warmSp ∧ (s.setConnX k x).warmFlr = s.warmFlr ∧ (s.setConnX k x).diceKeys = s.diceKeys ∧
    (s.setConnX k x).diceSealed = s.diceSealed ∧ (s.setConnX k x).diceD = s.diceD ∧ (s.setConnX k x).diceSvn = s.diceSvn ∧
    (s.setConnX k x).diceSlot = s.diceSlot ∧ (s.setConnX k x).diceDebug = s.diceDebug ∧ (s.setConnX k x).measPatch = s.measPatch ∧
    (s.setConnX k x).tid = s.tid ∧ (s.setConnX k x).spdmBox = s.spdmBox ∧ (s.setConnX k x).wdogNs = s.wdogNs ∧
    (s.setConnX k x).wdogHeld = s.wdogHeld ∧ (s.setConnX k x).chalValid = s.chalValid ∧ (s.setConnX k x).jtagIr = s.jtagIr ∧
    (s.setConnX k x).rngDead = s.rngDead ∧ (s.setConnX k x).spTestFail = s.spTestFail ∧ (s.setConnX k x).drbgCount = s.drbgCount ∧
    (s.setConnX k x).seqLeft = s.seqLeft ∧ (s.setConnX k x).pending = s.pending :=
  ⟨rfl, rfl, rfl, rfl, rfl, rfl, rfl, rfl, rfl, rfl, rfl, rfl, rfl, rfl, rfl, rfl, rfl, rfl, rfl, rfl, rfl, rfl, rfl, rfl, rfl,
   rfl, rfl, rfl, rfl, rfl, rfl, rfl, rfl, rfl, rfl, rfl, rfl, rfl, rfl, rfl, rfl, rfl, rfl, rfl, rfl, rfl, rfl, rfl, rfl, rfl,
   rfl, rfl, rfl, rfl, rfl, rfl, rfl, rfl, rfl, rfl, rfl, rfl, rfl, rfl, rfl, rfl, rfl, rfl, rfl, rfl, rfl, rfl, rfl, rfl, rfl,
   rfl, rfl, rfl, rfl, rfl, rfl, rfl, rfl, rfl, rfl, rfl, rfl, rfl, rfl, rfl, rfl, rfl, rfl, rfl, rfl, rfl, rfl, rfl, rfl, rfl,
   rfl, rfl, rfl, rfl, rfl, rfl, rfl, rfl, rfl, rfl, rfl, rfl, rfl, rfl, rfl, rfl, rfl, rfl, rfl, rfl, rfl, rfl, rfl, rfl, rfl,
   rfl, rfl, rfl, rfl⟩

@[simp] theorem State.setBowX_fields (s : State) (c : Nat) (x : BowX) :
    (s.setBowX c x).regs = s.regs ∧ (s.setBowX c x).mem = s.mem ∧ (s.setBowX c x).lost = s.lost ∧ (s.setBowX c x).poison = s.poison ∧
    (s.setBowX c x).ns = s.ns ∧ (s.setBowX c x).time = s.time ∧ (s.setBowX c x).free = s.free ∧ (s.setBowX c x).out = s.out ∧
    (s.setBowX c x).latch = s.latch ∧ (s.setBowX c x).errSec = s.errSec ∧ (s.setBowX c x).wakeReq = s.wakeReq ∧ (s.setBowX c x).threads = s.threads ∧
    (s.setBowX c x).cores = s.cores ∧ (s.setBowX c x).chans = s.chans ∧ (s.setBowX c x).unitPtr = s.unitPtr ∧ (s.setBowX c x).parBusy = s.parBusy ∧
    (s.setBowX c x).polarity = s.polarity ∧ (s.setBowX c x).pegs = s.pegs ∧ (s.setBowX c x).ports = s.ports ∧ (s.setBowX c x).rr = s.rr ∧
    (s.setBowX c x).frames = s.frames ∧ (s.setBowX c x).handles = s.handles ∧ (s.setBowX c x).arrivals = s.arrivals ∧ (s.setBowX c x).fc = s.fc ∧
    (s.setBowX c x).pend = s.pend ∧ (s.setBowX c x).actFifo = s.actFifo ∧ (s.setBowX c x).tmIn = s.tmIn ∧ (s.setBowX c x).actLists = s.actLists ∧
    (s.setBowX c x).pushId = s.pushId ∧ (s.setBowX c x).mirrorCount = s.mirrorCount ∧ (s.setBowX c x).tmFifo = s.tmFifo ∧
    (s.setBowX c x).tmAux = s.tmAux ∧ (s.setBowX c x).polAux = s.polAux ∧ (s.setBowX c x).lookups = s.lookups ∧ (s.setBowX c x).overlay = s.overlay ∧
    (s.setBowX c x).draining = s.draining ∧ (s.setBowX c x).learnSeq = s.learnSeq ∧ (s.setBowX c x).parked = s.parked ∧
    (s.setBowX c x).emFresh = s.emFresh ∧ (s.setBowX c x).emCount = s.emCount ∧ (s.setBowX c x).extTaint = s.extTaint ∧
    (s.setBowX c x).tblDiffs = s.tblDiffs ∧ (s.setBowX c x).orderSeen = s.orderSeen ∧ (s.setBowX c x).keys = s.keys ∧
    (s.setBowX c x).klwCmd = s.klwCmd ∧ (s.setBowX c x).csubs = s.csubs ∧ (s.setBowX c x).anFail = s.anFail ∧ (s.setBowX c x).portPll = s.portPll ∧
    (s.setBowX c x).tsFifo = s.tsFifo ∧ (s.setBowX c x).cue = s.cue ∧ (s.setBowX c x).peerIn = s.peerIn ∧ (s.setBowX c x).cueReads = s.cueReads ∧
    (s.setBowX c x).cueTags = s.cueTags ∧ (s.setBowX c x).winCommit = s.winCommit ∧ (s.setBowX c x).strapBalls = s.strapBalls ∧
    (s.setBowX c x).funcs = s.funcs ∧ (s.setBowX c x).rrs = s.rrs ∧ (s.setBowX c x).msixTab = s.msixTab ∧ (s.setBowX c x).msixPba = s.msixPba ∧
    (s.setBowX c x).hreads = s.hreads ∧ (s.setBowX c x).hreadCount = s.hreadCount ∧ (s.setBowX c x).entries = s.entries ∧
    (s.setBowX c x).entryCount = s.entryCount ∧ (s.setBowX c x).hwq = s.hwq ∧ (s.setBowX c x).atsCache = s.atsCache ∧
    (s.setBowX c x).atsInv = s.atsInv ∧ (s.setBowX c x).doe = s.doe ∧ (s.setBowX c x).ideSecure = s.ideSecure ∧ (s.setBowX c x).dark = s.dark ∧
    (s.setBowX c x).darkDb = s.darkDb ∧ (s.setBowX c x).logFilter = s.logFilter ∧ (s.setBowX c x).logCons = s.logCons ∧
    (s.setBowX c x).ringx = s.ringx ∧ (s.setBowX c x).txJobs = s.txJobs ∧ (s.setBowX c x).txCount = s.txCount ∧ (s.setBowX c x).txGone = s.txGone ∧
    (s.setBowX c x).held = s.held ∧ (s.setBowX c x).stalled = s.stalled ∧ (s.setBowX c x).fullerT = s.fullerT ∧ (s.setBowX c x).hostOut = s.hostOut ∧
    (s.setBowX c x).uc = s.uc ∧ (s.setBowX c x).ucScratch = s.ucScratch ∧ (s.setBowX c x).ucLast = s.ucLast ∧ (s.setBowX c x).ucPatch = s.ucPatch ∧
    (s.setBowX c x).ucBad = s.ucBad ∧ (s.setBowX c x).ucRegime = s.ucRegime ∧ (s.setBowX c x).patchJob = s.patchJob ∧
    (s.setBowX c x).ucDoorbells = s.ucDoorbells ∧ (s.setBowX c x).genCount = s.genCount ∧ (s.setBowX c x).capoOff = s.capoOff ∧
    (s.setBowX c x).ccReset = s.ccReset ∧ (s.setBowX c x).stoCmds = s.stoCmds ∧ (s.setBowX c x).stoCount = s.stoCount ∧
    (s.setBowX c x).connx = s.connx ∧ (s.setBowX c x).bowPtr = s.bowPtr ∧ (s.setBowX c x).icuHold = s.icuHold ∧
    (s.setBowX c x).icuStack = s.icuStack ∧ (s.setBowX c x).pwrTarget = s.pwrTarget ∧ (s.setBowX c x).pwrByReq = s.pwrByReq ∧
    (s.setBowX c x).pwrRev = s.pwrRev ∧ (s.setBowX c x).pwrNs = s.pwrNs ∧ (s.setBowX c x).pwrSince = s.pwrSince ∧
    (s.setBowX c x).clkBase = s.clkBase ∧ (s.setBowX c x).pwrSelfRef = s.pwrSelfRef ∧ (s.setBowX c x).vddCore = s.vddCore ∧
    (s.setBowX c x).hold = s.hold ∧ (s.setBowX c x).resetNs = s.resetNs ∧ (s.setBowX c x).bootNs = s.bootNs ∧ (s.setBowX c x).warm = s.warm ∧
    (s.setBowX c x).warmSp = s.warmSp ∧ (s.setBowX c x).warmFlr = s.warmFlr ∧ (s.setBowX c x).diceKeys = s.diceKeys ∧
    (s.setBowX c x).diceSealed = s.diceSealed ∧ (s.setBowX c x).diceD = s.diceD ∧ (s.setBowX c x).diceSvn = s.diceSvn ∧
    (s.setBowX c x).diceSlot = s.diceSlot ∧ (s.setBowX c x).diceDebug = s.diceDebug ∧ (s.setBowX c x).measPatch = s.measPatch ∧
    (s.setBowX c x).tid = s.tid ∧ (s.setBowX c x).spdmBox = s.spdmBox ∧ (s.setBowX c x).wdogNs = s.wdogNs ∧ (s.setBowX c x).wdogHeld = s.wdogHeld ∧
    (s.setBowX c x).chalValid = s.chalValid ∧ (s.setBowX c x).jtagIr = s.jtagIr ∧ (s.setBowX c x).rngDead = s.rngDead ∧
    (s.setBowX c x).spTestFail = s.spTestFail ∧ (s.setBowX c x).drbgCount = s.drbgCount ∧ (s.setBowX c x).seqLeft = s.seqLeft ∧
    (s.setBowX c x).pending = s.pending :=
  ⟨rfl, rfl, rfl, rfl, rfl, rfl, rfl, rfl, rfl, rfl, rfl, rfl, rfl, rfl, rfl, rfl, rfl, rfl, rfl, rfl, rfl, rfl, rfl, rfl, rfl,
   rfl, rfl, rfl, rfl, rfl, rfl, rfl, rfl, rfl, rfl, rfl, rfl, rfl, rfl, rfl, rfl, rfl, rfl, rfl, rfl, rfl, rfl, rfl, rfl, rfl,
   rfl, rfl, rfl, rfl, rfl, rfl, rfl, rfl, rfl, rfl, rfl, rfl, rfl, rfl, rfl, rfl, rfl, rfl, rfl, rfl, rfl, rfl, rfl, rfl, rfl,
   rfl, rfl, rfl, rfl, rfl, rfl, rfl, rfl, rfl, rfl, rfl, rfl, rfl, rfl, rfl, rfl, rfl, rfl, rfl, rfl, rfl, rfl, rfl, rfl, rfl,
   rfl, rfl, rfl, rfl, rfl, rfl, rfl, rfl, rfl, rfl, rfl, rfl, rfl, rfl, rfl, rfl, rfl, rfl, rfl, rfl, rfl, rfl, rfl, rfl, rfl,
   rfl, rfl, rfl, rfl⟩

@[simp] theorem State.setBowSt_fields (s : State) (c st : Nat) :
    (s.setBowSt c st).mem = s.mem ∧ (s.setBowSt c st).lost = s.lost ∧ (s.setBowSt c st).poison = s.poison ∧ (s.setBowSt c st).ns = s.ns ∧
    (s.setBowSt c st).time = s.time ∧ (s.setBowSt c st).free = s.free ∧ (s.setBowSt c st).out = s.out ∧ (s.setBowSt c st).latch = s.latch ∧
    (s.setBowSt c st).errSec = s.errSec ∧ (s.setBowSt c st).wakeReq = s.wakeReq ∧ (s.setBowSt c st).threads = s.threads ∧
    (s.setBowSt c st).cores = s.cores ∧ (s.setBowSt c st).chans = s.chans ∧ (s.setBowSt c st).unitPtr = s.unitPtr ∧
    (s.setBowSt c st).parBusy = s.parBusy ∧ (s.setBowSt c st).polarity = s.polarity ∧ (s.setBowSt c st).pegs = s.pegs ∧
    (s.setBowSt c st).ports = s.ports ∧ (s.setBowSt c st).rr = s.rr ∧ (s.setBowSt c st).frames = s.frames ∧ (s.setBowSt c st).handles = s.handles ∧
    (s.setBowSt c st).arrivals = s.arrivals ∧ (s.setBowSt c st).fc = s.fc ∧ (s.setBowSt c st).pend = s.pend ∧ (s.setBowSt c st).actFifo = s.actFifo ∧
    (s.setBowSt c st).tmIn = s.tmIn ∧ (s.setBowSt c st).actLists = s.actLists ∧ (s.setBowSt c st).pushId = s.pushId ∧
    (s.setBowSt c st).mirrorCount = s.mirrorCount ∧ (s.setBowSt c st).tmFifo = s.tmFifo ∧ (s.setBowSt c st).tmAux = s.tmAux ∧
    (s.setBowSt c st).polAux = s.polAux ∧ (s.setBowSt c st).lookups = s.lookups ∧ (s.setBowSt c st).overlay = s.overlay ∧
    (s.setBowSt c st).draining = s.draining ∧ (s.setBowSt c st).learnSeq = s.learnSeq ∧ (s.setBowSt c st).parked = s.parked ∧
    (s.setBowSt c st).emFresh = s.emFresh ∧ (s.setBowSt c st).emCount = s.emCount ∧ (s.setBowSt c st).extTaint = s.extTaint ∧
    (s.setBowSt c st).tblDiffs = s.tblDiffs ∧ (s.setBowSt c st).orderSeen = s.orderSeen ∧ (s.setBowSt c st).keys = s.keys ∧
    (s.setBowSt c st).klwCmd = s.klwCmd ∧ (s.setBowSt c st).csubs = s.csubs ∧ (s.setBowSt c st).anFail = s.anFail ∧
    (s.setBowSt c st).portPll = s.portPll ∧ (s.setBowSt c st).tsFifo = s.tsFifo ∧ (s.setBowSt c st).cue = s.cue ∧
    (s.setBowSt c st).peerIn = s.peerIn ∧ (s.setBowSt c st).cueReads = s.cueReads ∧ (s.setBowSt c st).cueTags = s.cueTags ∧
    (s.setBowSt c st).winCommit = s.winCommit ∧ (s.setBowSt c st).strapBalls = s.strapBalls ∧ (s.setBowSt c st).funcs = s.funcs ∧
    (s.setBowSt c st).rrs = s.rrs ∧ (s.setBowSt c st).msixTab = s.msixTab ∧ (s.setBowSt c st).msixPba = s.msixPba ∧
    (s.setBowSt c st).hreads = s.hreads ∧ (s.setBowSt c st).hreadCount = s.hreadCount ∧ (s.setBowSt c st).entries = s.entries ∧
    (s.setBowSt c st).entryCount = s.entryCount ∧ (s.setBowSt c st).hwq = s.hwq ∧ (s.setBowSt c st).atsCache = s.atsCache ∧
    (s.setBowSt c st).atsInv = s.atsInv ∧ (s.setBowSt c st).doe = s.doe ∧ (s.setBowSt c st).ideSecure = s.ideSecure ∧
    (s.setBowSt c st).dark = s.dark ∧ (s.setBowSt c st).darkDb = s.darkDb ∧ (s.setBowSt c st).logFilter = s.logFilter ∧
    (s.setBowSt c st).logCons = s.logCons ∧ (s.setBowSt c st).ringx = s.ringx ∧ (s.setBowSt c st).txJobs = s.txJobs ∧
    (s.setBowSt c st).txCount = s.txCount ∧ (s.setBowSt c st).txGone = s.txGone ∧ (s.setBowSt c st).held = s.held ∧
    (s.setBowSt c st).stalled = s.stalled ∧ (s.setBowSt c st).fullerT = s.fullerT ∧ (s.setBowSt c st).hostOut = s.hostOut ∧
    (s.setBowSt c st).uc = s.uc ∧ (s.setBowSt c st).ucScratch = s.ucScratch ∧ (s.setBowSt c st).ucLast = s.ucLast ∧
    (s.setBowSt c st).ucPatch = s.ucPatch ∧ (s.setBowSt c st).ucBad = s.ucBad ∧ (s.setBowSt c st).ucRegime = s.ucRegime ∧
    (s.setBowSt c st).patchJob = s.patchJob ∧ (s.setBowSt c st).ucDoorbells = s.ucDoorbells ∧ (s.setBowSt c st).genCount = s.genCount ∧
    (s.setBowSt c st).capoOff = s.capoOff ∧ (s.setBowSt c st).ccReset = s.ccReset ∧ (s.setBowSt c st).stoCmds = s.stoCmds ∧
    (s.setBowSt c st).stoCount = s.stoCount ∧ (s.setBowSt c st).connx = s.connx ∧ (s.setBowSt c st).bow = s.bow ∧
    (s.setBowSt c st).bowPtr = s.bowPtr ∧ (s.setBowSt c st).icuHold = s.icuHold ∧ (s.setBowSt c st).icuStack = s.icuStack ∧
    (s.setBowSt c st).pwrTarget = s.pwrTarget ∧ (s.setBowSt c st).pwrByReq = s.pwrByReq ∧ (s.setBowSt c st).pwrRev = s.pwrRev ∧
    (s.setBowSt c st).pwrNs = s.pwrNs ∧ (s.setBowSt c st).pwrSince = s.pwrSince ∧ (s.setBowSt c st).clkBase = s.clkBase ∧
    (s.setBowSt c st).pwrSelfRef = s.pwrSelfRef ∧ (s.setBowSt c st).vddCore = s.vddCore ∧ (s.setBowSt c st).hold = s.hold ∧
    (s.setBowSt c st).resetNs = s.resetNs ∧ (s.setBowSt c st).bootNs = s.bootNs ∧ (s.setBowSt c st).warm = s.warm ∧
    (s.setBowSt c st).warmSp = s.warmSp ∧ (s.setBowSt c st).warmFlr = s.warmFlr ∧ (s.setBowSt c st).diceKeys = s.diceKeys ∧
    (s.setBowSt c st).diceSealed = s.diceSealed ∧ (s.setBowSt c st).diceD = s.diceD ∧ (s.setBowSt c st).diceSvn = s.diceSvn ∧
    (s.setBowSt c st).diceSlot = s.diceSlot ∧ (s.setBowSt c st).diceDebug = s.diceDebug ∧ (s.setBowSt c st).measPatch = s.measPatch ∧
    (s.setBowSt c st).tid = s.tid ∧ (s.setBowSt c st).spdmBox = s.spdmBox ∧ (s.setBowSt c st).wdogNs = s.wdogNs ∧
    (s.setBowSt c st).wdogHeld = s.wdogHeld ∧ (s.setBowSt c st).chalValid = s.chalValid ∧ (s.setBowSt c st).jtagIr = s.jtagIr ∧
    (s.setBowSt c st).rngDead = s.rngDead ∧ (s.setBowSt c st).spTestFail = s.spTestFail ∧ (s.setBowSt c st).drbgCount = s.drbgCount ∧
    (s.setBowSt c st).seqLeft = s.seqLeft ∧ (s.setBowSt c st).pending = s.pending :=
  ⟨rfl, rfl, rfl, rfl, rfl, rfl, rfl, rfl, rfl, rfl, rfl, rfl, rfl, rfl, rfl, rfl, rfl, rfl, rfl, rfl, rfl, rfl, rfl, rfl, rfl,
   rfl, rfl, rfl, rfl, rfl, rfl, rfl, rfl, rfl, rfl, rfl, rfl, rfl, rfl, rfl, rfl, rfl, rfl, rfl, rfl, rfl, rfl, rfl, rfl, rfl,
   rfl, rfl, rfl, rfl, rfl, rfl, rfl, rfl, rfl, rfl, rfl, rfl, rfl, rfl, rfl, rfl, rfl, rfl, rfl, rfl, rfl, rfl, rfl, rfl, rfl,
   rfl, rfl, rfl, rfl, rfl, rfl, rfl, rfl, rfl, rfl, rfl, rfl, rfl, rfl, rfl, rfl, rfl, rfl, rfl, rfl, rfl, rfl, rfl, rfl, rfl,
   rfl, rfl, rfl, rfl, rfl, rfl, rfl, rfl, rfl, rfl, rfl, rfl, rfl, rfl, rfl, rfl, rfl, rfl, rfl, rfl, rfl, rfl, rfl, rfl, rfl,
   rfl, rfl, rfl, rfl⟩

@[simp] theorem State.setPhase_fields (s : State) (d p : Nat) :
    (s.setPhase d p).mem = s.mem ∧ (s.setPhase d p).lost = s.lost ∧ (s.setPhase d p).poison = s.poison ∧ (s.setPhase d p).ns = s.ns ∧
    (s.setPhase d p).time = s.time ∧ (s.setPhase d p).free = s.free ∧ (s.setPhase d p).out = s.out ∧ (s.setPhase d p).latch = s.latch ∧
    (s.setPhase d p).errSec = s.errSec ∧ (s.setPhase d p).wakeReq = s.wakeReq ∧ (s.setPhase d p).threads = s.threads ∧
    (s.setPhase d p).cores = s.cores ∧ (s.setPhase d p).chans = s.chans ∧ (s.setPhase d p).unitPtr = s.unitPtr ∧
    (s.setPhase d p).parBusy = s.parBusy ∧ (s.setPhase d p).polarity = s.polarity ∧ (s.setPhase d p).pegs = s.pegs ∧
    (s.setPhase d p).ports = s.ports ∧ (s.setPhase d p).rr = s.rr ∧ (s.setPhase d p).frames = s.frames ∧ (s.setPhase d p).handles = s.handles ∧
    (s.setPhase d p).arrivals = s.arrivals ∧ (s.setPhase d p).fc = s.fc ∧ (s.setPhase d p).pend = s.pend ∧ (s.setPhase d p).actFifo = s.actFifo ∧
    (s.setPhase d p).tmIn = s.tmIn ∧ (s.setPhase d p).actLists = s.actLists ∧ (s.setPhase d p).pushId = s.pushId ∧
    (s.setPhase d p).mirrorCount = s.mirrorCount ∧ (s.setPhase d p).tmFifo = s.tmFifo ∧ (s.setPhase d p).tmAux = s.tmAux ∧
    (s.setPhase d p).polAux = s.polAux ∧ (s.setPhase d p).lookups = s.lookups ∧ (s.setPhase d p).overlay = s.overlay ∧
    (s.setPhase d p).draining = s.draining ∧ (s.setPhase d p).learnSeq = s.learnSeq ∧ (s.setPhase d p).parked = s.parked ∧
    (s.setPhase d p).emFresh = s.emFresh ∧ (s.setPhase d p).emCount = s.emCount ∧ (s.setPhase d p).extTaint = s.extTaint ∧
    (s.setPhase d p).tblDiffs = s.tblDiffs ∧ (s.setPhase d p).orderSeen = s.orderSeen ∧ (s.setPhase d p).keys = s.keys ∧
    (s.setPhase d p).klwCmd = s.klwCmd ∧ (s.setPhase d p).csubs = s.csubs ∧ (s.setPhase d p).anFail = s.anFail ∧
    (s.setPhase d p).portPll = s.portPll ∧ (s.setPhase d p).tsFifo = s.tsFifo ∧ (s.setPhase d p).cue = s.cue ∧ (s.setPhase d p).peerIn = s.peerIn ∧
    (s.setPhase d p).cueReads = s.cueReads ∧ (s.setPhase d p).cueTags = s.cueTags ∧ (s.setPhase d p).winCommit = s.winCommit ∧
    (s.setPhase d p).strapBalls = s.strapBalls ∧ (s.setPhase d p).funcs = s.funcs ∧ (s.setPhase d p).rrs = s.rrs ∧
    (s.setPhase d p).msixTab = s.msixTab ∧ (s.setPhase d p).msixPba = s.msixPba ∧ (s.setPhase d p).hreads = s.hreads ∧
    (s.setPhase d p).hreadCount = s.hreadCount ∧ (s.setPhase d p).entries = s.entries ∧ (s.setPhase d p).entryCount = s.entryCount ∧
    (s.setPhase d p).hwq = s.hwq ∧ (s.setPhase d p).atsCache = s.atsCache ∧ (s.setPhase d p).atsInv = s.atsInv ∧ (s.setPhase d p).doe = s.doe ∧
    (s.setPhase d p).ideSecure = s.ideSecure ∧ (s.setPhase d p).dark = s.dark ∧ (s.setPhase d p).darkDb = s.darkDb ∧
    (s.setPhase d p).logFilter = s.logFilter ∧ (s.setPhase d p).logCons = s.logCons ∧ (s.setPhase d p).ringx = s.ringx ∧
    (s.setPhase d p).txJobs = s.txJobs ∧ (s.setPhase d p).txCount = s.txCount ∧ (s.setPhase d p).txGone = s.txGone ∧ (s.setPhase d p).held = s.held ∧
    (s.setPhase d p).stalled = s.stalled ∧ (s.setPhase d p).fullerT = s.fullerT ∧ (s.setPhase d p).hostOut = s.hostOut ∧ (s.setPhase d p).uc = s.uc ∧
    (s.setPhase d p).ucScratch = s.ucScratch ∧ (s.setPhase d p).ucLast = s.ucLast ∧ (s.setPhase d p).ucPatch = s.ucPatch ∧
    (s.setPhase d p).ucBad = s.ucBad ∧ (s.setPhase d p).ucRegime = s.ucRegime ∧ (s.setPhase d p).patchJob = s.patchJob ∧
    (s.setPhase d p).ucDoorbells = s.ucDoorbells ∧ (s.setPhase d p).genCount = s.genCount ∧ (s.setPhase d p).capoOff = s.capoOff ∧
    (s.setPhase d p).ccReset = s.ccReset ∧ (s.setPhase d p).stoCmds = s.stoCmds ∧ (s.setPhase d p).stoCount = s.stoCount ∧
    (s.setPhase d p).connx = s.connx ∧ (s.setPhase d p).bow = s.bow ∧ (s.setPhase d p).bowPtr = s.bowPtr ∧ (s.setPhase d p).icuHold = s.icuHold ∧
    (s.setPhase d p).icuStack = s.icuStack ∧ (s.setPhase d p).pwrTarget = s.pwrTarget ∧ (s.setPhase d p).pwrByReq = s.pwrByReq ∧
    (s.setPhase d p).pwrRev = s.pwrRev ∧ (s.setPhase d p).pwrNs = s.pwrNs ∧ (s.setPhase d p).pwrSince = s.pwrSince ∧
    (s.setPhase d p).clkBase = s.clkBase ∧ (s.setPhase d p).pwrSelfRef = s.pwrSelfRef ∧ (s.setPhase d p).vddCore = s.vddCore ∧
    (s.setPhase d p).hold = s.hold ∧ (s.setPhase d p).resetNs = s.resetNs ∧ (s.setPhase d p).bootNs = s.bootNs ∧ (s.setPhase d p).warm = s.warm ∧
    (s.setPhase d p).warmSp = s.warmSp ∧ (s.setPhase d p).warmFlr = s.warmFlr ∧ (s.setPhase d p).diceKeys = s.diceKeys ∧
    (s.setPhase d p).diceSealed = s.diceSealed ∧ (s.setPhase d p).diceD = s.diceD ∧ (s.setPhase d p).diceSvn = s.diceSvn ∧
    (s.setPhase d p).diceSlot = s.diceSlot ∧ (s.setPhase d p).diceDebug = s.diceDebug ∧ (s.setPhase d p).measPatch = s.measPatch ∧
    (s.setPhase d p).tid = s.tid ∧ (s.setPhase d p).spdmBox = s.spdmBox ∧ (s.setPhase d p).wdogNs = s.wdogNs ∧
    (s.setPhase d p).wdogHeld = s.wdogHeld ∧ (s.setPhase d p).chalValid = s.chalValid ∧ (s.setPhase d p).jtagIr = s.jtagIr ∧
    (s.setPhase d p).rngDead = s.rngDead ∧ (s.setPhase d p).spTestFail = s.spTestFail ∧ (s.setPhase d p).drbgCount = s.drbgCount ∧
    (s.setPhase d p).seqLeft = s.seqLeft ∧ (s.setPhase d p).pending = s.pending :=
  ⟨rfl, rfl, rfl, rfl, rfl, rfl, rfl, rfl, rfl, rfl, rfl, rfl, rfl, rfl, rfl, rfl, rfl, rfl, rfl, rfl, rfl, rfl, rfl, rfl, rfl,
   rfl, rfl, rfl, rfl, rfl, rfl, rfl, rfl, rfl, rfl, rfl, rfl, rfl, rfl, rfl, rfl, rfl, rfl, rfl, rfl, rfl, rfl, rfl, rfl, rfl,
   rfl, rfl, rfl, rfl, rfl, rfl, rfl, rfl, rfl, rfl, rfl, rfl, rfl, rfl, rfl, rfl, rfl, rfl, rfl, rfl, rfl, rfl, rfl, rfl, rfl,
   rfl, rfl, rfl, rfl, rfl, rfl, rfl, rfl, rfl, rfl, rfl, rfl, rfl, rfl, rfl, rfl, rfl, rfl, rfl, rfl, rfl, rfl, rfl, rfl, rfl,
   rfl, rfl, rfl, rfl, rfl, rfl, rfl, rfl, rfl, rfl, rfl, rfl, rfl, rfl, rfl, rfl, rfl, rfl, rfl, rfl, rfl, rfl, rfl, rfl, rfl,
   rfl, rfl, rfl, rfl⟩

@[simp] theorem State.setDepth_fields (s : State) (d k : Nat) :
    (s.setDepth d k).mem = s.mem ∧ (s.setDepth d k).lost = s.lost ∧ (s.setDepth d k).poison = s.poison ∧ (s.setDepth d k).ns = s.ns ∧
    (s.setDepth d k).time = s.time ∧ (s.setDepth d k).free = s.free ∧ (s.setDepth d k).out = s.out ∧ (s.setDepth d k).latch = s.latch ∧
    (s.setDepth d k).errSec = s.errSec ∧ (s.setDepth d k).wakeReq = s.wakeReq ∧ (s.setDepth d k).threads = s.threads ∧
    (s.setDepth d k).cores = s.cores ∧ (s.setDepth d k).chans = s.chans ∧ (s.setDepth d k).unitPtr = s.unitPtr ∧
    (s.setDepth d k).parBusy = s.parBusy ∧ (s.setDepth d k).polarity = s.polarity ∧ (s.setDepth d k).pegs = s.pegs ∧
    (s.setDepth d k).ports = s.ports ∧ (s.setDepth d k).rr = s.rr ∧ (s.setDepth d k).frames = s.frames ∧ (s.setDepth d k).handles = s.handles ∧
    (s.setDepth d k).arrivals = s.arrivals ∧ (s.setDepth d k).fc = s.fc ∧ (s.setDepth d k).pend = s.pend ∧ (s.setDepth d k).actFifo = s.actFifo ∧
    (s.setDepth d k).tmIn = s.tmIn ∧ (s.setDepth d k).actLists = s.actLists ∧ (s.setDepth d k).pushId = s.pushId ∧
    (s.setDepth d k).mirrorCount = s.mirrorCount ∧ (s.setDepth d k).tmFifo = s.tmFifo ∧ (s.setDepth d k).tmAux = s.tmAux ∧
    (s.setDepth d k).polAux = s.polAux ∧ (s.setDepth d k).lookups = s.lookups ∧ (s.setDepth d k).overlay = s.overlay ∧
    (s.setDepth d k).draining = s.draining ∧ (s.setDepth d k).learnSeq = s.learnSeq ∧ (s.setDepth d k).parked = s.parked ∧
    (s.setDepth d k).emFresh = s.emFresh ∧ (s.setDepth d k).emCount = s.emCount ∧ (s.setDepth d k).extTaint = s.extTaint ∧
    (s.setDepth d k).tblDiffs = s.tblDiffs ∧ (s.setDepth d k).orderSeen = s.orderSeen ∧ (s.setDepth d k).keys = s.keys ∧
    (s.setDepth d k).klwCmd = s.klwCmd ∧ (s.setDepth d k).csubs = s.csubs ∧ (s.setDepth d k).anFail = s.anFail ∧
    (s.setDepth d k).portPll = s.portPll ∧ (s.setDepth d k).tsFifo = s.tsFifo ∧ (s.setDepth d k).cue = s.cue ∧ (s.setDepth d k).peerIn = s.peerIn ∧
    (s.setDepth d k).cueReads = s.cueReads ∧ (s.setDepth d k).cueTags = s.cueTags ∧ (s.setDepth d k).winCommit = s.winCommit ∧
    (s.setDepth d k).strapBalls = s.strapBalls ∧ (s.setDepth d k).funcs = s.funcs ∧ (s.setDepth d k).rrs = s.rrs ∧
    (s.setDepth d k).msixTab = s.msixTab ∧ (s.setDepth d k).msixPba = s.msixPba ∧ (s.setDepth d k).hreads = s.hreads ∧
    (s.setDepth d k).hreadCount = s.hreadCount ∧ (s.setDepth d k).entries = s.entries ∧ (s.setDepth d k).entryCount = s.entryCount ∧
    (s.setDepth d k).hwq = s.hwq ∧ (s.setDepth d k).atsCache = s.atsCache ∧ (s.setDepth d k).atsInv = s.atsInv ∧ (s.setDepth d k).doe = s.doe ∧
    (s.setDepth d k).ideSecure = s.ideSecure ∧ (s.setDepth d k).dark = s.dark ∧ (s.setDepth d k).darkDb = s.darkDb ∧
    (s.setDepth d k).logFilter = s.logFilter ∧ (s.setDepth d k).logCons = s.logCons ∧ (s.setDepth d k).ringx = s.ringx ∧
    (s.setDepth d k).txJobs = s.txJobs ∧ (s.setDepth d k).txCount = s.txCount ∧ (s.setDepth d k).txGone = s.txGone ∧ (s.setDepth d k).held = s.held ∧
    (s.setDepth d k).stalled = s.stalled ∧ (s.setDepth d k).fullerT = s.fullerT ∧ (s.setDepth d k).hostOut = s.hostOut ∧ (s.setDepth d k).uc = s.uc ∧
    (s.setDepth d k).ucScratch = s.ucScratch ∧ (s.setDepth d k).ucLast = s.ucLast ∧ (s.setDepth d k).ucPatch = s.ucPatch ∧
    (s.setDepth d k).ucBad = s.ucBad ∧ (s.setDepth d k).ucRegime = s.ucRegime ∧ (s.setDepth d k).patchJob = s.patchJob ∧
    (s.setDepth d k).ucDoorbells = s.ucDoorbells ∧ (s.setDepth d k).genCount = s.genCount ∧ (s.setDepth d k).capoOff = s.capoOff ∧
    (s.setDepth d k).ccReset = s.ccReset ∧ (s.setDepth d k).stoCmds = s.stoCmds ∧ (s.setDepth d k).stoCount = s.stoCount ∧
    (s.setDepth d k).connx = s.connx ∧ (s.setDepth d k).bow = s.bow ∧ (s.setDepth d k).bowPtr = s.bowPtr ∧ (s.setDepth d k).icuHold = s.icuHold ∧
    (s.setDepth d k).icuStack = s.icuStack ∧ (s.setDepth d k).pwrTarget = s.pwrTarget ∧ (s.setDepth d k).pwrByReq = s.pwrByReq ∧
    (s.setDepth d k).pwrRev = s.pwrRev ∧ (s.setDepth d k).clkBase = s.clkBase ∧ (s.setDepth d k).pwrSelfRef = s.pwrSelfRef ∧
    (s.setDepth d k).vddCore = s.vddCore ∧ (s.setDepth d k).hold = s.hold ∧ (s.setDepth d k).resetNs = s.resetNs ∧
    (s.setDepth d k).bootNs = s.bootNs ∧ (s.setDepth d k).warm = s.warm ∧ (s.setDepth d k).warmSp = s.warmSp ∧ (s.setDepth d k).warmFlr = s.warmFlr ∧
    (s.setDepth d k).diceKeys = s.diceKeys ∧ (s.setDepth d k).diceSealed = s.diceSealed ∧ (s.setDepth d k).diceD = s.diceD ∧
    (s.setDepth d k).diceSvn = s.diceSvn ∧ (s.setDepth d k).diceSlot = s.diceSlot ∧ (s.setDepth d k).diceDebug = s.diceDebug ∧
    (s.setDepth d k).measPatch = s.measPatch ∧ (s.setDepth d k).tid = s.tid ∧ (s.setDepth d k).spdmBox = s.spdmBox ∧
    (s.setDepth d k).wdogNs = s.wdogNs ∧ (s.setDepth d k).wdogHeld = s.wdogHeld ∧ (s.setDepth d k).chalValid = s.chalValid ∧
    (s.setDepth d k).jtagIr = s.jtagIr ∧ (s.setDepth d k).rngDead = s.rngDead ∧ (s.setDepth d k).spTestFail = s.spTestFail ∧
    (s.setDepth d k).drbgCount = s.drbgCount ∧ (s.setDepth d k).seqLeft = s.seqLeft ∧ (s.setDepth d k).pending = s.pending :=
  ⟨rfl, rfl, rfl, rfl, rfl, rfl, rfl, rfl, rfl, rfl, rfl, rfl, rfl, rfl, rfl, rfl, rfl, rfl, rfl, rfl, rfl, rfl, rfl, rfl, rfl,
   rfl, rfl, rfl, rfl, rfl, rfl, rfl, rfl, rfl, rfl, rfl, rfl, rfl, rfl, rfl, rfl, rfl, rfl, rfl, rfl, rfl, rfl, rfl, rfl, rfl,
   rfl, rfl, rfl, rfl, rfl, rfl, rfl, rfl, rfl, rfl, rfl, rfl, rfl, rfl, rfl, rfl, rfl, rfl, rfl, rfl, rfl, rfl, rfl, rfl, rfl,
   rfl, rfl, rfl, rfl, rfl, rfl, rfl, rfl, rfl, rfl, rfl, rfl, rfl, rfl, rfl, rfl, rfl, rfl, rfl, rfl, rfl, rfl, rfl, rfl, rfl,
   rfl, rfl, rfl, rfl, rfl, rfl, rfl, rfl, rfl, rfl, rfl, rfl, rfl, rfl, rfl, rfl, rfl, rfl, rfl, rfl, rfl, rfl, rfl, rfl, rfl,
   rfl, rfl⟩

@[simp] theorem State.setHold_fields (s : State) (k : Nat) (b : Bool) :
    (s.setHold k b).regs = s.regs ∧ (s.setHold k b).mem = s.mem ∧ (s.setHold k b).lost = s.lost ∧ (s.setHold k b).poison = s.poison ∧
    (s.setHold k b).ns = s.ns ∧ (s.setHold k b).time = s.time ∧ (s.setHold k b).free = s.free ∧ (s.setHold k b).out = s.out ∧
    (s.setHold k b).latch = s.latch ∧ (s.setHold k b).errSec = s.errSec ∧ (s.setHold k b).wakeReq = s.wakeReq ∧ (s.setHold k b).threads = s.threads ∧
    (s.setHold k b).cores = s.cores ∧ (s.setHold k b).chans = s.chans ∧ (s.setHold k b).unitPtr = s.unitPtr ∧ (s.setHold k b).parBusy = s.parBusy ∧
    (s.setHold k b).polarity = s.polarity ∧ (s.setHold k b).pegs = s.pegs ∧ (s.setHold k b).ports = s.ports ∧ (s.setHold k b).rr = s.rr ∧
    (s.setHold k b).frames = s.frames ∧ (s.setHold k b).handles = s.handles ∧ (s.setHold k b).arrivals = s.arrivals ∧ (s.setHold k b).fc = s.fc ∧
    (s.setHold k b).pend = s.pend ∧ (s.setHold k b).actFifo = s.actFifo ∧ (s.setHold k b).tmIn = s.tmIn ∧ (s.setHold k b).actLists = s.actLists ∧
    (s.setHold k b).pushId = s.pushId ∧ (s.setHold k b).mirrorCount = s.mirrorCount ∧ (s.setHold k b).tmFifo = s.tmFifo ∧
    (s.setHold k b).tmAux = s.tmAux ∧ (s.setHold k b).polAux = s.polAux ∧ (s.setHold k b).lookups = s.lookups ∧ (s.setHold k b).overlay = s.overlay ∧
    (s.setHold k b).draining = s.draining ∧ (s.setHold k b).learnSeq = s.learnSeq ∧ (s.setHold k b).parked = s.parked ∧
    (s.setHold k b).emFresh = s.emFresh ∧ (s.setHold k b).emCount = s.emCount ∧ (s.setHold k b).extTaint = s.extTaint ∧
    (s.setHold k b).tblDiffs = s.tblDiffs ∧ (s.setHold k b).orderSeen = s.orderSeen ∧ (s.setHold k b).keys = s.keys ∧
    (s.setHold k b).klwCmd = s.klwCmd ∧ (s.setHold k b).csubs = s.csubs ∧ (s.setHold k b).anFail = s.anFail ∧ (s.setHold k b).portPll = s.portPll ∧
    (s.setHold k b).tsFifo = s.tsFifo ∧ (s.setHold k b).cue = s.cue ∧ (s.setHold k b).peerIn = s.peerIn ∧ (s.setHold k b).cueReads = s.cueReads ∧
    (s.setHold k b).cueTags = s.cueTags ∧ (s.setHold k b).winCommit = s.winCommit ∧ (s.setHold k b).strapBalls = s.strapBalls ∧
    (s.setHold k b).funcs = s.funcs ∧ (s.setHold k b).rrs = s.rrs ∧ (s.setHold k b).msixTab = s.msixTab ∧ (s.setHold k b).msixPba = s.msixPba ∧
    (s.setHold k b).hreads = s.hreads ∧ (s.setHold k b).hreadCount = s.hreadCount ∧ (s.setHold k b).entries = s.entries ∧
    (s.setHold k b).entryCount = s.entryCount ∧ (s.setHold k b).hwq = s.hwq ∧ (s.setHold k b).atsCache = s.atsCache ∧
    (s.setHold k b).atsInv = s.atsInv ∧ (s.setHold k b).doe = s.doe ∧ (s.setHold k b).ideSecure = s.ideSecure ∧ (s.setHold k b).dark = s.dark ∧
    (s.setHold k b).darkDb = s.darkDb ∧ (s.setHold k b).logFilter = s.logFilter ∧ (s.setHold k b).logCons = s.logCons ∧
    (s.setHold k b).ringx = s.ringx ∧ (s.setHold k b).txJobs = s.txJobs ∧ (s.setHold k b).txCount = s.txCount ∧ (s.setHold k b).txGone = s.txGone ∧
    (s.setHold k b).held = s.held ∧ (s.setHold k b).stalled = s.stalled ∧ (s.setHold k b).fullerT = s.fullerT ∧ (s.setHold k b).hostOut = s.hostOut ∧
    (s.setHold k b).uc = s.uc ∧ (s.setHold k b).ucScratch = s.ucScratch ∧ (s.setHold k b).ucLast = s.ucLast ∧ (s.setHold k b).ucPatch = s.ucPatch ∧
    (s.setHold k b).ucBad = s.ucBad ∧ (s.setHold k b).ucRegime = s.ucRegime ∧ (s.setHold k b).patchJob = s.patchJob ∧
    (s.setHold k b).ucDoorbells = s.ucDoorbells ∧ (s.setHold k b).genCount = s.genCount ∧ (s.setHold k b).capoOff = s.capoOff ∧
    (s.setHold k b).ccReset = s.ccReset ∧ (s.setHold k b).stoCmds = s.stoCmds ∧ (s.setHold k b).stoCount = s.stoCount ∧
    (s.setHold k b).connx = s.connx ∧ (s.setHold k b).bow = s.bow ∧ (s.setHold k b).bowPtr = s.bowPtr ∧ (s.setHold k b).icuHold = s.icuHold ∧
    (s.setHold k b).icuStack = s.icuStack ∧ (s.setHold k b).pwrTarget = s.pwrTarget ∧ (s.setHold k b).pwrByReq = s.pwrByReq ∧
    (s.setHold k b).pwrRev = s.pwrRev ∧ (s.setHold k b).pwrNs = s.pwrNs ∧ (s.setHold k b).pwrSince = s.pwrSince ∧
    (s.setHold k b).clkBase = s.clkBase ∧ (s.setHold k b).pwrSelfRef = s.pwrSelfRef ∧ (s.setHold k b).vddCore = s.vddCore ∧
    (s.setHold k b).resetNs = s.resetNs ∧ (s.setHold k b).bootNs = s.bootNs ∧ (s.setHold k b).warm = s.warm ∧ (s.setHold k b).warmSp = s.warmSp ∧
    (s.setHold k b).warmFlr = s.warmFlr ∧ (s.setHold k b).diceKeys = s.diceKeys ∧ (s.setHold k b).diceSealed = s.diceSealed ∧
    (s.setHold k b).diceD = s.diceD ∧ (s.setHold k b).diceSvn = s.diceSvn ∧ (s.setHold k b).diceSlot = s.diceSlot ∧
    (s.setHold k b).diceDebug = s.diceDebug ∧ (s.setHold k b).measPatch = s.measPatch ∧ (s.setHold k b).tid = s.tid ∧
    (s.setHold k b).spdmBox = s.spdmBox ∧ (s.setHold k b).wdogNs = s.wdogNs ∧ (s.setHold k b).wdogHeld = s.wdogHeld ∧
    (s.setHold k b).chalValid = s.chalValid ∧ (s.setHold k b).jtagIr = s.jtagIr ∧ (s.setHold k b).rngDead = s.rngDead ∧
    (s.setHold k b).spTestFail = s.spTestFail ∧ (s.setHold k b).drbgCount = s.drbgCount ∧ (s.setHold k b).seqLeft = s.seqLeft ∧
    (s.setHold k b).pending = s.pending :=
  ⟨rfl, rfl, rfl, rfl, rfl, rfl, rfl, rfl, rfl, rfl, rfl, rfl, rfl, rfl, rfl, rfl, rfl, rfl, rfl, rfl, rfl, rfl, rfl, rfl, rfl,
   rfl, rfl, rfl, rfl, rfl, rfl, rfl, rfl, rfl, rfl, rfl, rfl, rfl, rfl, rfl, rfl, rfl, rfl, rfl, rfl, rfl, rfl, rfl, rfl, rfl,
   rfl, rfl, rfl, rfl, rfl, rfl, rfl, rfl, rfl, rfl, rfl, rfl, rfl, rfl, rfl, rfl, rfl, rfl, rfl, rfl, rfl, rfl, rfl, rfl, rfl,
   rfl, rfl, rfl, rfl, rfl, rfl, rfl, rfl, rfl, rfl, rfl, rfl, rfl, rfl, rfl, rfl, rfl, rfl, rfl, rfl, rfl, rfl, rfl, rfl, rfl,
   rfl, rfl, rfl, rfl, rfl, rfl, rfl, rfl, rfl, rfl, rfl, rfl, rfl, rfl, rfl, rfl, rfl, rfl, rfl, rfl, rfl, rfl, rfl, rfl, rfl,
   rfl, rfl, rfl, rfl⟩

end Sys2Proof.Machine
end

