-- ==== Sys2Proof/Laws/Memory.lean ====
section
/-! SUPPORT. The laws of byte memory: what a store leaves at each address, and that stores, losses and resets keep the canonical form. -/

namespace Sys2Proof.Machine

/-! ### What is read -/

theorem State.memByte_memPut (s : State) (a b : Nat) (v : Byte) : (s.memPut a v).memByte b = if b = a then v else s.memByte b := by
  unfold State.memByte State.memPut
  dsimp only
  by_cases h : b = a
  · subst b; rw [if_pos rfl, mget_mset_same]
  · rw [if_neg h]
    unfold mset
    split
    · rw [mget_merase, if_neg h]
    · rw [mget_mput, if_neg h]

@[simp] theorem State.memPuts_lost (s : State) (a : Nat) (bs : List Byte) : (s.memPuts a bs).lost = s.lost := by
  induction bs generalizing s a with
  | nil => rfl
  | cons b bs ih => rw [State.memPuts, ih]; rfl

/-- Each stored byte is read back, and every other address reads as before. -/
theorem State.memByte_memPuts (s : State) (a b : Nat) (bs : List Byte) :
    (s.memPuts a bs).memByte b = if a ≤ b ∧ b < a + bs.length then bs.getD (b - a) 0 else s.memByte b := by
  induction bs generalizing s a with
  | nil => rw [if_neg (by simp only [List.length_nil]; omega)]; rfl
  | cons v bs ih =>
    rw [State.memPuts, ih, State.memByte_memPut, List.length_cons]
    by_cases h1 : a + 1 ≤ b ∧ b < a + 1 + bs.length
    · rw [if_pos h1, if_pos (by omega)]
      obtain ⟨k, hk⟩ : ∃ k, b - a = k + 1 := ⟨b - a - 1, by omega⟩
      rw [hk, show b - (a + 1) = k by omega, List.getD_cons_succ]
    · rw [if_neg h1]
      by_cases h2 : b = a
      · subst b; rw [if_pos rfl, if_pos (by omega), Nat.sub_self, List.getD_cons_zero]
      · rw [if_neg h2, if_neg (by omega)]

/-- Stores change nothing but bytes of memory. -/
theorem State.memPuts_eq (s : State) (a : Nat) (bs : List Byte) : s.memPuts a bs = { s with mem := (s.memPuts a bs).mem } := by
  induction bs generalizing s a with
  | nil => rfl
  | cons b bs ih => rw [State.memPuts, ih]; rfl

/-- A store changes nothing but bytes of memory and poison marks. -/
theorem State.storeBytes_eq (s : State) (a : Nat) (bs : List Byte) :
    s.storeBytes a bs = { s with mem := (s.memPuts a bs).mem, poison := (s.storeBytes a bs).poison } := by
  have h : ∀ (l : List Nat) (t : State) (f : Nat → Nat),
      l.foldl (fun s i => s.setPoison (f i) false) t = { t with poison := (l.foldl (fun s i => s.setPoison (f i) false) t).poison } := by
    intro l
    induction l with
    | nil => intro t f; rfl
    | cons i l ih => intro t f; rw [List.foldl_cons, ih]; rfl
  unfold State.storeBytes
  dsimp only
  rw [h, State.memPuts_eq]

/-- What a store leaves at each address. -/
theorem State.memByte_storeBytes (s : State) (a b : Nat) (bs : List Byte) :
    (s.storeBytes a bs).memByte b = if a ≤ b ∧ b < a + bs.length then bs.getD (b - a) 0 else s.memByte b := by
  rw [← State.memByte_memPuts, State.storeBytes_eq]
  unfold State.memByte
  simp

/-! ### The canonical form -/

theorem State.memOk_memPut {s : State} (a : Nat) (b : Byte) (h : s.memOk) : (s.memPut a b).memOk := memWf_mset a b h

theorem State.memOk_memPuts {s : State} (a : Nat) (bs : List Byte) (h : s.memOk) : (s.memPuts a bs).memOk := by
  induction bs generalizing s a with
  | nil => exact h
  | cons b bs ih => exact ih _ (State.memOk_memPut a b h)

theorem State.memOk_storeBytes {s : State} (a : Nat) (bs : List Byte) (h : s.memOk) : (s.storeBytes a bs).memOk := by
  rw [State.storeBytes_eq]
  have := State.memOk_memPuts a bs h
  unfold State.memOk at this ⊢
  rwa [State.memPuts_lost] at this

/-- A lost range changes what an unlisted address reads as inside it alone. -/
theorem memBase_cons (r : LostRange) (l : List LostRange) (a : Nat) (h : r.covers a = false) : memBase (r :: l) a = memBase l a := by
  unfold memBase
  rw [List.find?_cons, h]

theorem State.memOk_lose {s : State} (r : LostRange) (h : s.memOk) : (s.lose r).memOk :=
  memWf_filter (fun a => !r.covers a) (fun a ha => memBase_cons r s.lost a (by simpa using ha)) h

theorem State.memOk_loseRange {s : State} (lo hi : Nat) (ecc : Bool) (h : s.memOk) : (s.loseRange lo hi ecc).memOk :=
  State.memOk_lose _ h

/-- An address outside a lost range reads as before. -/
theorem State.memByte_lose (s : State) (r : LostRange) (a : Nat) (h : r.covers a = false) : (s.lose r).memByte a = s.memByte a := by
  have hf : ∀ (d : Byte) (m : SMap Byte), mget d (m.filter fun c => !r.covers c.1) a = mget d m a := by
    intro d m
    induction m with
    | nil => rfl
    | cons c m ih =>
      obtain ⟨k, v⟩ := c
      rw [List.filter_cons]
      by_cases hk : r.covers k = true
      · have : a ≠ k := fun e => by rw [e, hk] at h; cases h
        simp only [hk, Bool.not_true, Bool.false_eq_true, if_false, mget_cons, if_neg this, ih]
      · simp only [hk, Bool.not_false, if_true, mget_cons, ih]
  unfold State.memByte State.lose
  dsimp only
  rw [hf, memBase_cons _ _ _ h]

theorem State.memOk_zeroRange {s : State} (lo hi : Nat) (h : s.memOk) : (s.zeroRange lo hi).memOk :=
  memWf_filter (fun a => decide (a < lo) || decide (hi ≤ a)) (fun _ _ => rfl) h

theorem State.memOk_reset : State.reset.memOk := ⟨.nil, fun _ h => nomatch h⟩

/-- A reset of the die leaves nothing listed. -/
theorem State.memOk_dieReset (s : State) : s.dieReset.memOk := ⟨.nil, fun _ h => nomatch h⟩

/-- What does not touch memory keeps its form. -/
theorem State.memOk_of_eq {s u : State} (hm : u.mem = s.mem) (hl : u.lost = s.lost) (h : s.memOk) : u.memOk := by
  unfold State.memOk; rw [hm, hl]; exact h

end Sys2Proof.Machine
end

