-- ==== Sys2Proof/Laws/Regs.lean ====
section
/-! SUPPORT. The laws of registers and fields: what reads what a write put. A register array is named by its number and an element by its
index, which no array takes past 2^40; two fields of one register are apart where their bits are. -/

namespace Sys2Proof.Machine

/-- The keys of two elements differ where their arrays' numbers or their indices do. -/
theorem RegDesc.key_ne {r q : RegDesc} {i j : Nat} (hi : i < 2 ^ 40) (hj : j < 2 ^ 40) (h : r.rid ≠ q.rid ∨ i ≠ j) : r.key i ≠ q.key j := by
  unfold RegDesc.key
  intro e
  rcases h with h | h <;> omega

theorem State.rd_wr (s : State) (r q : RegDesc) (i j : Nat) (v : Word) :
    (s.wr r i v).rd q j = mget (resetValue q j) (mset (resetValue r i) s.regs (r.key i) v) (q.key j) := rfl

@[simp] theorem State.rd_wr_same (s : State) (r : RegDesc) (i : Nat) (v : Word) : (s.wr r i v).rd r i = v := by
  rw [State.rd_wr, mget_mset_same]

theorem mget_mset_other {α : Type} [DecidableEq α] (d e : α) (m : SMap α) {i j : Nat} (v : α) (h : j ≠ i) :
    mget e (mset d m i v) j = mget e m j := by
  unfold mset
  split
  · rw [mget_merase, if_neg h]
  · rw [mget_mput, if_neg h]

/-- A write leaves every other register. -/
theorem State.rd_wr_ne (s : State) (r q : RegDesc) {i j : Nat} (v : Word) (hi : i < 2 ^ 40) (hj : j < 2 ^ 40)
    (h : r.rid ≠ q.rid ∨ i ≠ j) : (s.wr r i v).rd q j = s.rd q j := by
  rw [State.rd_wr, mget_mset_other _ _ _ _ (RegDesc.key_ne hi hj h).symm]
  rfl

/-- A register of another array is left whatever the indices. -/
theorem State.rd_fset_same (s : State) (f : Field) (i v : Nat) : (s.fset f i v).rd f.reg i = f.ins (s.rd f.reg i) v := by
  simp [State.fset]

/-! ### Fields of a word -/

theorem Field.testBit_of (f : Field) (w : Word) (k : Nat) : (f.of w).testBit k = (decide (k < f.w) && w.getLsbD (f.lo + k)) := by
  simp [Field.of, Nat.testBit_mod_two_pow, Nat.testBit_shiftRight, BitVec.getLsbD]

theorem Field.getLsbD_mask (f : Field) (k : Nat) (h : f.lo + f.w ≤ 64) :
    f.mask.getLsbD k = (decide (f.lo ≤ k) && decide (k < f.lo + f.w)) := by
  unfold Field.mask
  rw [Bool.eq_iff_iff]
  simp only [BitVec.getLsbD_shiftLeft, BitVec.getLsbD_ushiftRight, BitVec.getLsbD_allOnes, Bool.and_eq_true, decide_eq_true_eq,
    Bool.not_eq_true', decide_eq_false_iff_not]
  omega

theorem Field.getLsbD_ins (f : Field) (old : Word) (v k : Nat) (h : f.lo + f.w ≤ 64) :
    (f.ins old v).getLsbD k = if f.lo ≤ k ∧ k < f.lo + f.w then v.testBit (k - f.lo) else old.getLsbD k := by
  have hk : 64 ≤ k → old.getLsbD k = false := fun hk => BitVec.getLsbD_of_ge old k hk
  unfold Field.ins
  rw [BitVec.getLsbD_or, BitVec.getLsbD_and, BitVec.getLsbD_and, BitVec.getLsbD_not, f.getLsbD_mask k h, BitVec.getLsbD_shiftLeft,
    BitVec.getLsbD_ofNat]
  split
  · have h1 : k < 64 := by omega
    have h2 : k - f.lo < 64 := by omega
    simp_all
  · by_cases h1 : k < 64
    · have : ¬ (f.lo ≤ k ∧ k < f.lo + f.w) := ‹_›
      by_cases h2 : f.lo ≤ k
      · have h3 : ¬ k < f.lo + f.w := fun h3 => this ⟨h2, h3⟩
        simp [h1, h2, h3]
      · simp [h1, h2]
    · rw [hk (by omega)]
      have : ¬ (f.lo ≤ k ∧ k < f.lo + f.w) := ‹_›
      have h3 : ¬ (f.lo ≤ k ∧ k < f.lo + f.w) := this
      simp [h1]

/-- A field that is set reads as the value modulo its width. -/
theorem Field.of_ins_same (f : Field) (old : Word) (v : Nat) (h : f.lo + f.w ≤ 64) : f.of (f.ins old v) = v % 2 ^ f.w := by
  apply Nat.eq_of_testBit_eq
  intro k
  rw [f.testBit_of, Nat.testBit_mod_two_pow, f.getLsbD_ins _ _ _ h]
  by_cases hk : k < f.w
  · simp [hk]
  · simp [hk]

/-- A field whose bits lie apart reads as before. -/
theorem Field.of_ins_ne (f g : Field) (old : Word) (v : Nat) (h : f.lo + f.w ≤ 64) (hd : f.lo + f.w ≤ g.lo ∨ g.lo + g.w ≤ f.lo) :
    g.of (f.ins old v) = g.of old := by
  apply Nat.eq_of_testBit_eq
  intro k
  rw [g.testBit_of, g.testBit_of, f.getLsbD_ins _ _ _ h]
  by_cases hk : k < g.w
  · rw [if_neg (by omega)]
  · simp [hk]

/-! ### Fields of the state -/

theorem State.fget_eq (s : State) (f : Field) (i : Nat) : s.fget f i = f.of (s.rd f.reg i) := rfl

theorem State.fget_lt (s : State) (f : Field) (i : Nat) : s.fget f i < 2 ^ f.w := Nat.mod_lt _ (Nat.two_pow_pos _)

/-- A field that is set reads as the value modulo its width. -/
theorem State.fget_fset_same (s : State) (f : Field) (i v : Nat) (h : f.lo + f.w ≤ 64) : (s.fset f i v).fget f i = v % 2 ^ f.w := by
  rw [State.fget_eq, State.rd_fset_same, f.of_ins_same _ _ h]

/-- Setting a field leaves a field of another register. -/
theorem State.fget_fset_reg (s : State) (f g : Field) {i j : Nat} (v : Nat) (hi : i < 2 ^ 40) (hj : j < 2 ^ 40)
    (h : f.reg.rid ≠ g.reg.rid ∨ i ≠ j) : (s.fset f i v).fget g j = s.fget g j := by
  rw [State.fget_eq, State.fset, State.rd_wr_ne _ _ _ _ hi hj h, State.fget_eq]

/-- Setting a field leaves a field of the same register whose bits lie apart. -/
theorem State.fget_fset_bits (s : State) (f g : Field) (i v : Nat) (h : f.lo + f.w ≤ 64) (hr : g.reg = f.reg)
    (hd : f.lo + f.w ≤ g.lo ∨ g.lo + g.w ≤ f.lo) : (s.fset f i v).fget g i = s.fget g i := by
  rw [State.fget_eq, State.fget_eq, hr, State.rd_fset_same, f.of_ins_ne g _ _ h hd]

/-- Setting a field leaves the registers of other arrays and elements. -/
theorem State.rd_fset_ne (s : State) (f : Field) (q : RegDesc) {i j : Nat} (v : Nat) (hi : i < 2 ^ 40) (hj : j < 2 ^ 40)
    (h : f.reg.rid ≠ q.rid ∨ i ≠ j) : (s.fset f i v).rd q j = s.rd q j := by
  rw [State.fset, State.rd_wr_ne _ _ _ _ hi hj h]

theorem State.fbit_eq (s : State) (f : Field) (i : Nat) : s.fbit f i = (s.fget f i != 0) := rfl

/-- A counter plus `n`, saturating at all ones. -/
theorem State.fget_fadd (s : State) (f : Field) (i n : Nat) (h : f.lo + f.w ≤ 64) :
    (s.fadd f i n).fget f i = min (s.fget f i + n) (2 ^ f.w - 1) := by
  have h2 := Nat.two_pow_pos f.w
  rw [State.fadd, s.fget_fset_same f _ _ h, Nat.mod_eq_of_lt (by omega)]

theorem State.fget_bump (s : State) (f : Field) (i : Nat) (h : f.lo + f.w ≤ 64) :
    (s.bump f i).fget f i = min (s.fget f i + 1) (2 ^ f.w - 1) := s.fget_fadd f i 1 h

theorem State.fget_finc (s : State) (f : Field) (i : Nat) (h : f.lo + f.w ≤ 64) :
    (s.finc f i).fget f i = (s.fget f i + 1) % 2 ^ f.w := s.fget_fset_same f i _ h

theorem State.fget_fsub (s : State) (f : Field) (i n : Nat) (h : f.lo + f.w ≤ 64) : (s.fsub f i n).fget f i = s.fget f i - n := by
  have h2 := s.fget_lt f i
  rw [State.fsub, s.fget_fset_same f _ _ h, Nat.mod_eq_of_lt (by omega)]

/-- Every reset value is read where nothing is listed. -/
theorem State.rd_of_nil (s : State) (r : RegDesc) (i : Nat) (h : s.regs = []) : s.rd r i = resetValue r i := by
  rw [State.rd, h, mget_nil]

end Sys2Proof.Machine
end

