-- ==== Sys2Proof/Tests/Slice0.lean ====
section
/-! SUPPORT. Tests: for every statement, states and operands that meet its hypotheses clause by clause, with what the command
leaves there; and a term that each check of well-formedness refuses. Expected results are worked out by hand from the spec. -/

open Sys2Proof Sys2Proof.Machine Sys2Proof.Claims

namespace Sys2Proof.Tests

-- one declaration after another: a thread for each would need more memory than a build may use
set_option Elab.async false

/-! ### Helpers -/

/-- What a command leaves. -/
def after (c : Instr) (s : State) : State := match exec c s with | .next t => t | _ => s
/-- The state after reset. -/
def R : State := State.reset
/-- A command leaves a state in which a test holds. -/
def gives (c : Instr) (s : State) (test : State → Bool) : Bool := match exec c s with | .next t => test t | _ => false
/-- Thread 0 is READY at pc 0 with g1 = a and g2 = b. -/
def thrS (a b : Word) : State := R.setThr 0 { Thread.init with st := .ready, a := (Arch.init.setG 1 a).setG 2 b }
/-- The boot window. -/
def boot : Nat := 0x010000000000
/-- Core 1 runs at the boot window, at a level, with g1 = a and g2 = b. -/
def coreP (level : Priv) (a b : Word) : State :=
  R.setCore 1 { Core.init with running := true, priv := level, a := { (Arch.init.setG 1 a).setG 2 b with pc := BitVec.ofNat 64 boot } }
def coreS : Word → Word → State := coreP .m
def xt : Issue := ⟨.thread 0, false, 0, .clean⟩
def xc : Issue := ⟨.core 1, false, 0, .clean⟩
/-- Whether the issuer of `x` may run an instruction of `len` bytes of a profile. -/
def canRun (x : Issue) (len : Nat) (prof : Profile) (s : State) : Bool :=
  s.canIssue x.who && (fetches x len s).isSome && !issueIllegal x && issueHolds x (s.arch x.who) && prof.has x.who
/-- gd, pc and RETIRED of thread 0 or of core 1. -/
def regsOf (x : Issue) (g : RegIx) (s : State) : Nat × Nat × Nat :=
  (((s.arch x.who).getG g).toNat, (s.arch x.who).pc.toNat, (s.arch x.who).retired.toNat)

/-- Where a thread's scratch and its cluster's shared memory begin. -/
def scratchVa : Nat := 0
def sharedVa : Nat := 0x01000000

/-! ### Registers (chapter 00) -/

/-- ReservedFieldsIgnoreWrites: a plain register's address, an address without a register, and a misaligned write. -/
theorem test_register_write : (let a := Reg.PRT_TOD_ADJ.base
    (regAt a).map (fun p => (p.1.rid, p.2)) == some (Reg.PRT_TOD_ADJ.rid, 0, 0) &&
    (regWrites.find? fun e => e.1.rid == Reg.PRT_TOD_ADJ.rid).isNone && R.region a == .regs &&
    gives (.registerWrite 0xE000 a 4 0xABCD) R (fun t => t.rd Reg.PRT_TOD_ADJ 0 == 0xABCD) &&
    (regAt 0x020018FFFFF8).isNone && R.region 0x020018FFFFF8 == .regs &&
    gives (.registerWrite 0xE000 0x020018FFFFF8 8 5) R (fun t => t.regs == R.regs) &&
    regDomain Reg.PAR_FC_CFG 0 == some 22 && (R.regWake Reg.PAR_FC_CFG 0).regs == [] &&
    ((R.fset Fld.PWR_DOM_STATUS_DEPTH 22 2).regWake Reg.PAR_FC_CFG 0).phase 22 == 3 &&
    gives (.registerWrite 0xE000 (a + 2) 4 5) R (fun t => t.regs == R.regs)) = true := by decide +kernel

/-- AccessTypesByBit: a bit at each end of a field, and one outside it. -/
theorem test_access_types : (let f (a : Access) : FieldDesc := ⟨4, 2, a⟩
    [3, 4, 5, 6].map (fun k => (writeField false 0x10 0x30 (f .w1c)).getLsbD k) == [false, false, true, false] &&
    (writeField false 0x10 0x20 (f .rw)).toNat == 0x10 && (writeField false 0x10 0x20 (f .w1s)).toNat == 0x30 &&
    (writeField true 0x20 0x10 (f .rwl)).toNat == 0x10 && (writeField false 0x20 0x10 (f .ro)).toNat == 0x10) = true := by decide +kernel

/-! ### Peosh (chapter 02) -/

/-- The witness of every premise that a thread or a core issues. -/
theorem test_issues : (canRun xt 4 .both (thrS 5 7) && canRun xt 8 .both (thrS 5 7) && canRun xt 4 .p (thrS 5 7) &&
    canRun xc 4 .both (coreS 5 7) && canRun xc 8 .both (coreS 5 7) && canRun xc 4 .s (coreS 5 7)) = true := by decide +kernel

theorem test_issues_thread : Issues xt 4 .both (thrS 5 7) (thrS 5 7) := ⟨by decide +kernel, by rfl, by decide, by decide +kernel, by decide⟩

/-- IntegerInstructionsComplete: a wrap, a sign, a source that is the destination, and a write to g0. -/
theorem test_integer : (let m1 : Word := BitVec.allOnes 64
    gives (.add xt 3 1 2) (thrS m1 1) (fun t => regsOf xt 3 t == (0, 4, 1)) &&
    gives (.sub xt 1 1 2) (thrS 0 1) (fun t => regsOf xt 1 t == (2 ^ 64 - 1, 4, 1)) &&
    gives (.sra xc 3 1 2) (coreS m1 65) (fun t => regsOf xc 3 t == (2 ^ 64 - 1, boot + 4, 1)) &&
    gives (.mulh xt 3 1 2) (thrS m1 1) (fun t => regsOf xt 3 t == (2 ^ 64 - 1, 4, 1)) &&
    gives (.addi xt 0 1 5) (thrS 1 1) (fun t => regsOf xt 0 t == (0, 4, 1)) &&
    gives (.ext xt 3 1 60 7) (thrS m1 1) (fun t => regsOf xt 3 t == (15, 4, 1)) &&
    gives (.exts xt 3 1 4 3) (thrS 0x80 1) (fun t => regsOf xt 3 t == (2 ^ 64 - 8, 4, 1)) &&
    gives (.bswap4 xt 3 1) (thrS 0xFF01020304 1) (fun t => regsOf xt 3 t == (0x04030201, 4, 1))) = true := by decide +kernel

/-- DivisionCorners. -/
theorem test_division : ((divS 7 0).toNat == 2 ^ 64 - 1 && (remU 7 0).toNat == 7 &&
    (divS (BitVec.ofNat 64 (2 ^ 63)) (BitVec.allOnes 64)).toNat == 2 ^ 63 && (remS (BitVec.ofNat 64 (2 ^ 63)) (BitVec.allOnes 64)).toNat == 0 &&
    (divS (-7) 2).toInt == -3 && (remS (-7) 2).toInt == -1) = true := by decide +kernel

/-- PredicateInstructionsComplete: a signed compare, and a write to p0. -/
theorem test_predicates : (gives (.cmp xt .lt 1 1 2) (thrS (-1) 1) (fun t => (t.thr 0).a.getP 1) &&
    gives (.cmp xt .ltu 1 1 2) (thrS (-1) 1) (fun t => !(t.thr 0).a.getP 1) &&
    gives (.cmpi xt .tstz 2 1 8) (thrS 7 1) (fun t => (t.thr 0).a.getP 2) &&
    gives (.pand xt 0 0 0 true true) (thrS 7 1) (fun t => (t.thr 0).a.getP 0)) = true := by decide +kernel

/-- FalsePredicateSkips: a false predicate, PN = 1 with PRED = 0, and major opcode 0x3F. -/
theorem test_predicate_false : (let s := thrS 5 7
    !issueHolds ⟨.thread 0, false, 1, .clean⟩ (s.arch (.thread 0)) && issueIllegal ⟨.thread 0, true, 0, .clean⟩ &&
    gives (.add ⟨.thread 0, false, 1, .clean⟩ 3 1 2) s (fun t => regsOf xt 3 t == (0, 4, 1)) &&
    gives (.add ⟨.thread 0, true, 0, .clean⟩ 3 1 2) s (fun t => (t.thr 0).st == .halted) &&
    gives (.illegalEncoding ⟨.thread 0, false, 1, .clean⟩ 0x1FC00000) s (fun t => (t.thr 0).st == .halted)) = true := by decide +kernel

/-- The cause in the oldest record of cluster 0's supervisor channel. -/
def causeOf (t : State) : Option Nat := ((t.chan 0).units ++ (t.chan 0).msgs).head?.map fun m => bits (m.word 0) 39 32
/-- The last word of the image: a long form whose word 1 lies outside is skipped, is illegal, or faults, in this order. -/
theorem test_last_word : (let s := R.setThr 0 { Thread.init with st := .ready, a := { Arch.init with pc := 0x3FFFC } }
    (s.fetchWord xt 0).1.isNone && (s.fetchWord xt 1).1 == some (0x04, 0x40000) &&
    gives (.liL ⟨.thread 0, false, 1, .clean⟩ 3 7) s (fun t => (t.thr 0).a.pc == 0x40004 && (t.thr 0).st == .ready) &&
    gives (.liL ⟨.thread 0, true, 0, .clean⟩ 3 7) s (fun t => causeOf t == some 0x01) &&
    gives (.liL xt 3 7) s (fun t => causeOf t == some 0x04) &&
    gives (.liL ⟨.thread 0, false, 0, .word0⟩ 3 7) (thrS 0 0) (fun t => causeOf t == some 0x08)) = true := by decide +kernel

/-- ControlFlowCompletes: a backward branch, a link, and a misaligned target. -/
theorem test_control_flow : (let s := thrS 0x104 7
    gives (.br xt (BitVec.ofInt 22 (-1))) s (fun t => (t.thr 0).a.pc.toNat == 2 ^ 64 - 4) &&
    gives (.jalr xt 1 1 4) s (fun t => (t.thr 0).a.pc.toNat == 0x108 && ((t.thr 0).a.getG 1).toNat == 4) &&
    gives (.jalr xt 3 1 1) s (fun t => (t.thr 0).st == .halted && ((t.thr 0).a.getG 3).toNat == 0) &&
    gives (.jalL xt 3 0x200) s (fun t => (t.thr 0).a.pc.toNat == 0x200 && ((t.thr 0).a.getG 3).toNat == 8) &&
    gives (.jalL xt 3 0x202) s (fun t => (t.thr 0).st == .halted) &&
    gives (.liL xt 3 (BitVec.allOnes 48)) s (fun t => regsOf xt 3 t == (2 ^ 64 - 1, 8, 1)) &&
    gives (.addiL xt 1 1) s (fun t => regsOf xt 1 t == (0x105, 8, 1))) = true := by decide +kernel

/-- LoadsComplete and StoresComplete: the last bytes of scratch, past it, misaligned, and a core's store to the boot window and to a register. -/
theorem test_loads_and_stores : (let s := thrS (BitVec.ofNat 64 (scratchVa + 0xFF8)) 0x8081
    inScratch (scratchVa + 0xFF8) 8 && !inScratch (scratchVa + 0x1000) 8 && !inShared (scratchVa + 0x1000) 8 &&
    gives (.stD xt 2 1 0) s (fun t => t.pRead 0 (scratchVa + 0xFF8) 8 == [0x81, 0x80, 0, 0, 0, 0, 0, 0] &&
      gives (.ldB xt 3 1 0 .fail) t (fun u => ((u.thr 0).a.getG 3).toNat == 2 ^ 64 - 0x7F) &&
      gives (.ldHu xt 3 1 0 .fail) t (fun u => ((u.thr 0).a.getG 3).toNat == 0x8081)) &&
    gives (.stD xt 2 1 8) s (fun t => (t.thr 0).st == .halted) && gives (.ldW xt 3 1 2 .fail) s (fun t => (t.thr 0).st == .halted)) = true := by
  decide +kernel

/-- The premises for a control core: an access resolves to a DPA of memory or of a register. -/
theorem test_core_access : (let s := coreS (BitVec.ofNat 64 (boot + 0x100)) 0x1234
    let r := coreS (BitVec.ofNat 64 Reg.PRT_TOD_ADJ.base) 0x1234
    (match s.coreAddr 1 (BitVec.ofNat 64 (boot + 0x100)) 4 .store with
      | (.ok pa, t) => (t.region pa).normal && (t.memLoad pa 4).isSome && (t.coreStore 1 pa 4 5).isSome | _ => false) &&
    gives (.stW xc 2 1 0) s (fun t => t.memBytes (boot + 0x100) 4 == [0x34, 0x12, 0, 0] &&
      gives (.ldW xc 3 1 0 .fail) t (fun u => regsOf xc 3 u == (0x1234, boot + 8, 2))) &&
    gives (.stW xc 2 1 0) r (fun t => t.rd Reg.PRT_TOD_ADJ 0 == 0x1234)) = true := by decide +kernel

/-- AtomicsComplete: a wrap of aadd.w in shared memory, and cas.d that stores and that does not. -/
theorem test_atomics : (let s := thrS (BitVec.ofNat 64 sharedVa) 0xFFFFFFFF
    inShared sharedVa 8 &&
    gives (.aaddW xt 3 1 2) s (fun t => t.pRead 0 sharedVa 8 == [255, 255, 255, 255, 0, 0, 0, 0] &&
      gives (.aaddW xt 3 1 2) t (fun u => u.pRead 0 sharedVa 8 == [254, 255, 255, 255, 0, 0, 0, 0] && ((u.thr 0).a.getG 3).toNat == 0xFFFFFFFF)) &&
    gives (.casD xc 0 1 2) (coreS (BitVec.ofNat 64 boot) 9) (fun t => t.memByte boot == 9) &&
    gives (.aaddW { xt with ecc := .data } 3 1 2) s (fun t => (t.thr 0).st == .halted && t.pRead 0 sharedVa 8 == List.replicate 8 0) &&
    gives (.casD { xc with ecc := .data } 0 1 2) (coreS (BitVec.ofNat 64 boot) 9) (fun t => (t.core 1).trapM.cause == 8 && t.mem == []) &&
    gives (.casD xc 2 1 2) (coreS (BitVec.ofNat 64 boot) 9) (fun t => t.memByte boot == 0 && ((t.core 1).a.getG 2).toNat == 0)) = true := by
  decide +kernel

/-- HeaderVectorCompletes: the first and the last view. -/
theorem test_header_vector : (let s := thrS 0xFF00 0x0FF0
    gives (.hvwr xt 1 63) s (fun t => gives (.hvwrm xt 2 1 63) t (fun u => ((u.thr 0).hv[63]).toNat == 0xFF00) &&
      gives (.hvrd xt 3 63) t (fun u => ((u.thr 0).a.getG 3).toNat == 0xFF00) &&
      gives (.hvrdx xt 3 0) t (fun u => ((u.thr 0).a.getG 3).toNat == 0)) &&
    gives (.hvwrx xt 1 0) s (fun t => ((t.thr 0).hv[0]).toNat == 0xFF00)) = true := by decide +kernel
/-! ### Channels, pegs, engines and thread control (chapters 02 and 03) -/

/-- Cluster channel 5 is enabled for every reader and writer of cluster 0 and of other clusters. -/
def chanOn (s : State) : State := (s.fset Fld.CLU_CHAN_CFG_EN 5 1).fset Fld.CLU_CHAN_CFG_WR_SCOPE 5 2
def msg1 : Msg := { src := 7, words := [0xAA, 0xBB] }
def two (x : Word) (rb : Word) (st : ThreadState := .ready) : Thread :=
  { Thread.init with st := st, a := (Arch.init.setG 1 x).setG 2 rb }

/-- ChannelReadsTakeMessages: a message and none, and the last place a buffer may stand. -/
theorem test_channel_reads : (let s := chanOn (thrS 5 0xF80)
    let t := s.setChan 5 { Chan.init with msgs := [msg1] }
    let w := t.setThr 0 { two 5 0xF80 .waitRd with wait := some (.read 3 5 0xF80 false) } |>.setChan 5 { Chan.init with msgs := [msg1], readers := [0] }
    canRun xt 4 .p s && s.readCause 0 5 == 0 && inScratch 0xF80 128 && s.messageFor 0 (s.chan 5) == none &&
    t.messageFor 0 (t.chan 5) == some msg1 && !t.readerAhead (t.chan 5) msg1 && !t.stale 0 &&
    gives (.chrdn xt 3 1 2) s (fun u => regsOf xt 3 u == (0, 4, 1)) &&
    gives (.chrd xt 3 1 2) s (fun u => (u.thr 0).st == .waitRd && (u.chan 5).readers == [0]) &&
    gives (.chrd xt 3 1 2) t (fun u => regsOf xt 3 u == (2 + 7 * 65536, 4, 1) && u.pRead 0 0xF80 16 == wordBytesLE 0xAA ++ wordBytesLE 0xBB) &&
    gives (.chrdPb xt 3 1 2) t (fun u => regsOf xt 3 u == (2 + 7 * 65536, 4, 1)) &&
    (w.chan 5).readers.find? (fun r => (w.messageFor r (w.chan 5)).isSome) == some 0 &&
    gives (.messageDelivered ⟨5, false⟩) w (fun u => regsOf xt 3 u == (2 + 7 * 65536, 4, 1) && (u.thr 0).st == .ready && (u.chan 5) == Chan.init)) = true := by
  decide +kernel

/-- ChannelWritesStageAndCommit: the first word, the sixteenth, a seventeenth, another channel, no message, and the waiting ones. -/
theorem test_channel_writes : (let s := chanOn (thrS 5 9)
    let m (n : Nat) (ch : Nat) : Option OpenMsg := some ⟨ch, List.replicate n 1⟩
    let t (n ch : Nat) := (s.setThr 0 { two 5 9 with openMsg := m n ch }).setChan 5 { Chan.init with reserved := n }
    s.writeCause 0 5 == 0 && s.writeCause 0 6 == 0x11 && 0 < (s.chan 5).room &&
    gives (.chwr xt 1 2) s (fun u => (u.thr 0).openMsg == some ⟨5, [9]⟩ && (u.chan 5).reserved == 1) &&
    gives (.chwr xt 1 2) (t 15 5) (fun u => (u.chan 5).reserved == 16) &&
    gives (.chwr xt 1 2) (t 16 5) (fun u => (u.thr 0).st == .halted) && gives (.chwr xt 1 2) (t 1 6) (fun u => (u.thr 0).st == .halted) &&
    gives (.chwr xt 2 2) s (fun u => (u.thr 0).st == .halted) && gives (.chend xt) s (fun u => (u.thr 0).st == .halted) &&
    gives (.chend xt) (t 2 5) (fun u => (u.chan 5).msgs == [{ src := 0, words := [1, 1] }] && (u.chan 5).reserved == 0)) = true := by
  decide +kernel
theorem test_channel_waiters : (let w := (R.setThr 0 { two 5 9 .waitWr with wait := some (.write 5 9) }).setChan 5 { Chan.init with writers := [.thread 0] }
    let q := R.setChan 5 { Chan.init with units := [msg1] }
    0 < (w.chan 5).room && gives (.wordReserved 5) w (fun u => (u.thr 0).st == .ready && (u.thr 0).openMsg == some ⟨5, [9]⟩ && (u.chan 5).writers == []) &&
    (q.chan 5).units.find? (fun m => decide (m.words.length ≤ (q.chan 5).room)) == some msg1 &&
    gives (.unitMessageCommit 5) q (fun u => u.chan 5 == { Chan.init with msgs := [msg1] })) = true := by decide +kernel

/-- PegsGrantInOrder: free, broken, held, held by itself, the ninth, handed on, granted, and past its watchdog. -/
theorem test_pegs : (let s := thrS 5 9
    let p (q : Peg) := s.setPeg 5 q
    let h := (s.setThr 0 { two 5 9 with pegs := [5] }).setPeg 5 { Peg.init with holder := some 0 }
    let hw := h.setPeg 5 { Peg.init with holder := some 0, waiters := [16] }
    let g := R.setThr 0 { two 5 9 .waitPeg with wait := some (.peg 3 5 (some true)) }
    let wd := h.fset Fld.PEG_WDOG_EN 0 1
    pegKey 0 5 == some 5 && gives (.pegAcq xt 3 1) s (fun u => regsOf xt 3 u == (0, 4, 1) && (u.peg 5).holder == some 0) &&
    gives (.pegTry xt 3 1) (p { Peg.init with broken := true }) (fun u => regsOf xt 3 u == (1, 4, 1) && !(u.peg 5).broken) &&
    gives (.pegTry xt 3 1) (p { Peg.init with holder := some 9 }) (fun u => regsOf xt 3 u == (2, 4, 1)) &&
    gives (.pegAcq xt 3 1) (p { Peg.init with holder := some 9 }) (fun u => (u.thr 0).st == .waitPeg && (u.peg 5).waiters == [0]) &&
    gives (.pegAcq xt 3 1) h (fun u => (u.thr 0).st == .halted) && gives (.pegRel xt 1) s (fun u => (u.thr 0).st == .halted) &&
    gives (.pegTry xt 3 1) (s.setThr 0 { two 5 9 with pegs := [10, 11, 12, 13, 14, 15, 16, 17] }) (fun u => (u.thr 0).st == .halted) &&
    gives (.pegRel xt 1) h (fun u => u.peg 5 == Peg.init) && gives (.pegRel xt 1) hw (fun u => (u.peg 5).holder == some 16 && (u.thr 16).pegs == [5]) &&
    gives (.pegGranted 0) g (fun u => regsOf xt 3 u == (1, 4, 1)) &&
    gives (.holdWatchdogExpiry 5) wd (fun u => (u.peg 5).wdogDone && (u.thr 0).st == .ready) &&
    gives (.holdWatchdogExpiry 5) (wd.fset Fld.PEG_WDOG_KILL 0 1) (fun u => (u.thr 0).st == .halted)) = true := by decide +kernel

/-- EngineRequestsIssueOrWait. -/
theorem test_engines : (let prof := (thrS 0x8000 0).fset Fld.TBL_LKP_PROFILE_VALID 0 1
    let s := (chanOn prof).setThr 0 (two 5 0x100)
    let b := ((thrS 3 0).fset Fld.BOW_CH_CFG_BOWGO_CLU 3 255).fset Fld.BOW_CH_STATUS_STATE 3 1
    let w := s.setThr 0 { two 5 0x100 .waitEng with wait := some (.engine .lkp 1 2) }
    s.engSlot 0 && (s.engineFault 0 (s.thr 0).a .lkp 1 2).isNone && (s.engineFault 0 (s.thr 0).a .csub 1 2).isNone &&
    (b.engineFault 0 (b.thr 0).a .bowgo 1 0).isNone && (b.bowTrig 3 true).isSome && (s.engineFault 0 (s.thr 0).a .bowgo 1 0).isSome &&
    ((two 0x9000 0x100).a |> fun a => (s.engineFault 0 a .lkp 1 2).isSome && (s.engineFault 0 a .csub 1 2).isSome) &&
    (w.engineGo 0 (w.thr 0).a .lkp 1 2).isSome &&
    gives (.lkp xt 1 2 false) s (fun u => u.lookups.length == 1 && (u.thr 0).engHeld == 1) &&
    gives (.csub xt 1 2 false) s (fun u => u.csubs.length == 1) && gives (.lkp xt 1 2 true) s (fun u => (u.thr 0).st == .waitEng) &&
    gives (.bowgo xt 1 false) b (fun u => u.fget Fld.BOW_CH_STATUS_PENDING 3 == 1 && (u.thr 0).a.pc == 4) &&
    gives (.engineAccept 0) w (fun u => (u.thr 0).st == .ready && u.lookups.length == 1)) = true := by decide +kernel

/-- ThreadControlCompletes. -/
theorem test_thread_control : (let s := thrS 0 0
    gives (.yield xt) s (fun u => (mget (List.range 16) u.rr 0).getLast? == some 0) && gives (.halt xt) s (fun u => (u.thr 0).st == .halted) &&
    gives (.halt xt) (s.setThr 0 { two 0 0 with openMsg := some ⟨5, [1]⟩ }) (fun u => (u.thr 0).st == .halted && (u.thr 0).openMsg == none) &&
    gives (.trap xt 9) s (fun u => (u.thr 0).st == .halted) && gives (.brk xt 9) (s.fset Fld.CLU_DBG_ATTACH 0 1) (fun u => (u.thr 0).st == .stopped) &&
    gives (.trap xc 9) (coreS 0 0) (fun u => (u.core 1).trapM.cause == 0x0C && (u.core 1).trapM.info == 9 && (u.core 1).a.pc == 0x40) &&
    gives (.fenceIo xc) (coreS 0 0) (fun u => regsOf xc 1 u == (0, boot + 4, 1))) = true := by decide +kernel

/-- SystemInstructionsComplete: M_SCRATCH, a read-only and an unlisted register, U, a fault routed to S, rfe, idle, an interrupt. -/
theorem test_system : (let s := coreS 0x55 0
    let irq := (((s.setCore 1 { s.core 1 with ie := true }).fset Fld.ICU_SRC_STATE_PENDING 3 1).fset Fld.ICU_SRC_CFG_TARGET 3 1).fset Fld.ICU_SRC_CFG_EN 3 1
    let sr : BitVec 12 := 0x825
    (s.coreSr 1 sr.toNat).isSome && (s.coreSr 1 0xFFF).isNone && sr.toNat / 1024 == 2 && !sr.getLsbD 9 &&
    gives (.syswr xc 1 sr) s (fun u => u.coreSr 1 sr.toNat == some 0x55) && gives (.sysrd xc 3 0xFFF) s (fun u => (u.core 1).trapM.cause == 1) &&
    gives (.sysrd xc 3 sr) (coreP .u 0 0) (fun u => (u.core 1).trapM.cause == 2) && gives (.rfe xc) (coreP .u 0 0) (fun u => (u.core 1).trapM.cause == 2) &&
    gives (.rfe xc) s (fun u => (u.core 1).priv == .u && (u.core 1).a.pc == 0) && gives (.idle xc) s (fun u => (u.core 1).idling) &&
    gives (.rfe xc) (coreP .s 0 0) (fun u => (u.core 1).priv == .u) && gives (.tlbinv xc 0 0) s (fun u => (u.core 1).tlb == []) &&
    irq.intPending 1 && gives (.extIntTaken 1) irq (fun u => (u.core 1).a.pc == 0x80 && !(u.core 1).ie) &&
    gives (.idle xc) irq (fun u => (u.core 1).a.pc == BitVec.ofNat 64 (boot + 4)) &&
    gives (.idleWake 1) (irq.setCore 1 { irq.core 1 with idling := true }) (fun u => !(u.core 1).idling) &&
    gives (.illegalEncoding xt 0x0F800000) (thrS 0 0) (fun u => (u.thr 0).st == .halted)) = true := by decide +kernel

/-- ThreadEventsComplete and SendPortsComplete. -/
theorem test_thread_events : (let s := thrS 0 0
    let sup := (s.fset Fld.CLU_SUPV_SILENCE_EN 0 1)
    gives (.threadStart 1) R (fun u => (u.thr 1).st == .ready) && gives (.threadStop 0) s (fun u => (u.thr 0).st == .stopped) &&
    gives (.threadKill 0) s (fun u => (u.thr 0).st == .halted) && gives (.threadResume 0) (after (.threadStop 0) s) (fun u => (u.thr 0).st == .ready) &&
    R.oldCount 0 == 0 && gives (.imageCommit 0) R (fun u => u.fget Fld.CLU_PROG_EPOCH_EPOCH 0 == 1 && u.fget Fld.CLU_PROG_EPOCH_ACTIVE_IMAGE 0 == 1) &&
    (let e := s.fset Fld.CLU_PROG_EPOCH_EPOCH 0 5
     e.oldCount 0 != 0 && gives (.imageCommit 0) e (fun u => u.fbit Fld.CLU_IMAGE_STATUS_SWAP_REFUSED 0)) &&
    s.imageInUse 0 false && !R.imageInUse 0 false &&
    gives (.programMemoryWrite 0 (.bytes 0x3FFFF [7])) R (fun u => u.memByte (programBase 0 + 0x3FFFF) == 7) &&
    gives (.programMemoryWrite 0 (.bytes 0x3FFFF [7])) s (fun u => u.fbit Fld.CLU_IMAGE_STATUS_IMAGE_WRITE_REFUSED 0) &&
    gives (.silenceDetected 0) s (fun u => u.regs == s.regs) && sup.supervisor 0 == 0) = true := by decide +kernel
theorem test_send_ports : (let s := chanOn R
    let t := after (.sendPortGo 0xE001 1 1 5) (after (.sendDataWrite 0xE001 1 0 0x77) s)
    s.portResult 5 1 == 0 && s.portResult 5 17 == 3 && t.fbit Fld.PEG_SEND_STATUS_BUSY 1 && (t.chan 5).writers == [.port 1] &&
    mfind t.ports 1 == some ⟨5, 1⟩ && gives (.sendPortCommit 1) t (fun u => (u.chan 5).msgs == [{ src := 0xE001, words := [0x77] }]) &&
    gives (.sendPortAbort 0xE001 1) t (fun u => u.fget Fld.PEG_SEND_STATUS_RESULT 1 == 4 && (u.chan 5).writers == []) &&
    gives (.sendPortGo 0xE001 1 17 5) s (fun u => u.ports == []) &&
    gives (.channelCfgWrite 0 6 0xFF) s (fun u => u.rd Reg.CLU_CHAN_CFG 6 != 0) &&
    gives (.channelCfgWrite 0 5 0) (s.setChan 5 { Chan.init with readers := [3] }) (fun u => u.fbit Fld.CLU_CHAN_STATUS_CFG_BUSY 5)) = true := by
  decide +kernel
/-- The clauses on a reply that holds an engine slot, a thread's system registers, one page of the TLB, a core that waits in idle, and a
thread's share. -/
theorem test_chapter_three_edges : (let q := (R.setChan 5 { Chan.init with units := [{ msg1 with eng := some 0 }] }).setThr 0 { Thread.init with engHeld := 1 }
    let e (a : Nat) : TlbEntry := { vbase := a, level := 0, asid := 7, pte := 0 }
    let c := (coreP .m 0x5008 7)
    let tl := c.setCore 1 { c.core 1 with tlb := [e 0x5000, e 0x6000] }
    let idle := ((((coreS 0 0).setCore 1 { (coreS 0 0).core 1 with ie := true, idling := true }).fset Fld.ICU_SRC_STATE_PENDING 3 1).fset Fld.ICU_SRC_CFG_TARGET 3 1).fset Fld.ICU_SRC_CFG_EN 3 1
    gives (.unitMessageCommit 5) q (fun u => (u.thr 0).engHeld == 0 && (u.chan 5).msgs.length == 1) &&
    gives (.tlbinv xc 1 0) tl (fun u => (u.core 1).tlb == [e 0x6000]) && gives (.tlbinv xc 0 2) tl (fun u => (u.core 1).tlb == []) &&
    gives (.tlbinv xc 0 1) tl (fun u => (u.core 1).tlb == [e 0x5000, e 0x6000]) &&
    gives (.extIntTaken 1) idle (fun u => (u.core 1).trapM.trpc == BitVec.ofNat 64 (boot + 4) && !(u.core 1).idling) &&
    gives (.sysset xc 3 1 0xA00) (coreS 1 0) (fun u => (u.core 1).trapM.cause == 1) && gives (.sysset xt 3 0 0) (thrS 5 0) (fun u => (u.thr 0).a.pc != 0 || (u.thr 0).st == .halted) &&
    gives (.threadShareWrite 1 0) (thrS 0 0) (fun u => u.fget Fld.CLU_THR_SHARE_PKT 1 == 1 && u.fget Fld.CLU_THR_SHARE_ENG 1 == 1) &&
    gives (.threadShareWrite 0 0) (thrS 0 0) (fun u => u.fbit Fld.CLU_SHARE_POOL_SHARE_REFUSED 0) &&
    gives (.programMemoryWrite 0 (.entry false 9)) R (fun u => u.fget Fld.CLU_IMAGE_CTL_ENTRY_A 0 == 9)) = true := by decide +kernel
/-! ### Parsing, classification, flow cache and actions (chapter 04) -/

/-- A frame at a stage. -/
def fr (st : Stage) (bytes : List Byte := List.replicate 60 0) : Frame := { Frame.fresh bytes 0 0 0 0 with stage := st }
/-- A state with a frame under handle 9. -/
def withF (f : Frame) (s : State := R) : State := s.setFrame 9 f
/-- The lead state of a packet path: handle 9 is gone. -/
def gone9 (u : State) : Bool := (u.frame? 9).isNone
/-- MAC 0 is UP. -/
def macUp : State := (R.fset Fld.PRT_MAC_STATUS_STATE 0 4).fset Fld.PRT_PORT_CFG_MODE 0 1
/-- One channel of 16 GiB of DDR5. -/
def ddrS (s : State := R) : State := s.fset Fld.MEM_CFG_CH_MASK 0 1

/-- FramesEnterAndParse: the shortest frame, a bad FCS, no room; the walk's three ends; both banks; a commit and one refused. -/
theorem test_frames_enter : (let b : List Byte := List.replicate 60 0
    let full := macUp.setFrame 3 { fr .admitting with cells := 2 ^ 20, charge := .ingress }
    macUp.ingRoom 64 && macUp.srcQueue 0 == 0 && !full.ingRoom 64 && etherType b != 0x8808 && max 64 (macUp.fget Fld.PRT_MAC_CFG_MAX_FRAME 0) ≥ 64 &&
    gives (.frameReceive 0 b ⟨true, {}⟩ false) macUp (fun u => (u.frame? 0).isSome && u.fget Fld.PRTC_RX_FRAMES_COUNT 0 == 1 && u.handles == 1) &&
    gives (.frameReceive 0 b ⟨true, {}⟩ false) full (fun u => u.fget Fld.TMC_ING_FULL_COUNT 0 == 1 && u.handles == 0) &&
    gives (.frameReceive 0 b ⟨false, {}⟩ false) macUp (fun u => u.fget Fld.PRTC_RX_FCS_ERR_COUNT 0 == 1) &&
    gives (.parseWalk 9) (withF (fr (.parse 3))) (fun u => (u.frame? 9).map (·.stage) == some (.classify true))) = true := by decide +kernel
theorem test_parse_memory : ((parseMemAt 0x100000).isSome && (parseMemAt 0x110000).isSome && R.fget Fld.PAR_GRAPH_CTL_ACTIVE 0 == 0 &&
    gives (.parseMemoryWrite 0x110000 (BitVec.allOnes 64)) R (fun u => u.rd Reg.PAR_STATE_W0 256 != 0) &&
    gives (.parseMemoryWrite 0x100000 0xFF) R (fun u => u.fbit Fld.PAR_GRAPH_CTL_GRAPH_WRITE_REFUSED 0) &&
    gives (.parseGraphCommit true) R (fun u => u.fget Fld.PAR_GRAPH_CTL_ACTIVE 0 == 1 &&
      gives (.parseGraphCommit false) u (fun v => v.fbit Fld.PAR_GRAPH_CTL_COMMIT_REFUSED 0)) &&
    gives (.mirrorWrite 63 0) R (fun u => mget 0 u.mirrorCount 63 == 0)) = true := by decide +kernel

/-- Key profile 0 is VALID; the flow cache holds a frame's key with list 7 at its set's first way. -/
def keyS (s : State := R) : State := s.fset Fld.PAR_KEY_PROFILE_VALID 0 1
def key0 : List Byte := keyS.keyOf (fr (.classify false)).hv 0 0
def hash0 : Word := keyS.flowHash 0 key0
def slot0 : Nat := fcSet hash0 * 8
def hitS : State := keyS.setSlot slot0
  { w0 := fieldAt 1 63 ||| fieldAt 7 24 ||| fieldAt key0.length 16 ||| fieldAt (bits hash0 63 48) 0, w1 := BitVec.ofNat 64 (beNat (key0 ++ List.replicate 8 0 |>.take 8)), w2 := 0, w3 := 0, hit := false }
/-- An install message for that key with OP, and it at the front of section 0 of channel 0x8000. -/
def install (op : Nat) : Msg := { src := 7, words := [fieldAt op 36, fieldAt 1 63 ||| fieldAt 5 24 ||| fieldAt key0.length 16, BitVec.ofNat 64 (beNat (key0 ++ List.replicate 8 0 |>.take 8))] }
def unitS (id : Nat) (m : Msg) (s : State := R) : State := s.setChan (chanKey id 0) { Chan.init with msgs := [m] }

/-- ClassificationAndInstalls: a hit, a miss, an exception, a free and a taken DDR5 slot, ageing, and each install. -/
theorem test_classify : (let s := withF (fr (.classify false)) keyS
    let ft := ((withF (fr (.classify false)) keyS).fset Fld.PAR_FC_CFG_LOG2_BUCKETS 0 10).fset Fld.PAR_KEY_PROFILE_MODE 0 1
    !s.earlierFrame (fr (.classify false)) && key0.length ≤ 56 && hitS.fcFind hash0 key0 == some slot0 && (keyS.fcFind hash0 key0).isNone &&
    !s.ftOn && ft.ftOn && !fcToThread (hitS.slot slot0).w0 &&
    gives (.classify 9 true) (withF (fr (.classify false)) hitS) (fun u => (u.frame? 9).map (·.stage) == some (.action (some 7) []) && u.actFifo == [9] && (u.slot slot0).hit) &&
    gives (.classify 9 true) s (fun u => (u.frame? 9).map (·.stage) == some .path) &&
    gives (.classify 9 true) (withF (fr (.classify true)) keyS) (fun u => (u.frame? 9).map (·.stage) == some .path) &&
    gives (.classify 9 true) ft (fun u => (u.frame? 9).map (·.stage) == some .ddr) &&
    gives (.classify 9 false) ft (fun u => (u.frame? 9).map (·.stage) == some .path)) = true := by decide +kernel
theorem test_ddr_result : (let s := ddrS ((withF { fr .ddr with hash := hash0, key := key0 } keyS).fset Fld.PAR_FC_CFG_LOG2_BUCKETS 0 10)
    s.ftBucket hash0 + 512 ≤ s.ddrCapacity && (s.ddrRead (s.ftBucket hash0) 512).1.isSome && 
    ((s.ddrRead (s.ftBucket hash0) 512).1.bind fun b => ftFind b hash0 key0).isNone &&
    gives (.ddrFlowResult 9) s (fun u => (u.frame? 9).map (·.stage) == some .path)) = true := by decide +kernel
theorem test_flow_age : (let s := hitS.fset Fld.PAR_FC_CFG_AGE_PERIOD 0 1
    gives (.flowAgeVisit (slot0 / 8)) R (fun u => u.fc == R.fc) && !s.isCont slot0 && fcIdleTo (s.slot slot0).w0 == 0 &&
    gives (.flowAgeVisit (slot0 / 8)) s (fun u => fcAge (u.slot slot0).w0 == 1 && fcList (u.slot slot0).w0 == 7)) = true := by decide +kernel
theorem test_installs : (let i (op : Nat) (s : State) := unitS 0x8000 (install op) (s.fset Fld.PAR_FC_QUOTA_CAP 0 9)
    installKey (install 1) == some key0 && !(i 1 keyS).ftOn && ((i 1 keyS).fcPlace hash0 0 1).isSome &&
    keyS.fcUsed 0 + slotsFor key0.length ≤ (i 1 keyS).fcCap 0 &&
    gives (.flowInsert 0) (i 1 hitS) (fun u => fcList (u.slot slot0).w0 == 7) && gives (.flowInsert 0) (i 1 keyS) (fun u => u.fc.length == 1) &&
    gives (.flowInsertReplace 0) (i 2 keyS) (fun u => u.fc.length == 1) &&
    gives (.flowRemove 0) (i 3 hitS) (fun u => u.fc == []) && gives (.flowRemove 0) (i 3 keyS) (fun u => u.fc == [])) = true := by decide +kernel

/-- ActionsDisposeOfFrames. -/
theorem test_dispose : (let holds := (withF (fr .path)).setThr 7 { Thread.init with pkts := [9] }
    let m (w : Word) : Msg := { src := 7, words := [w] }
    (unitS 0x8001 (m 0) holds).namedPacket (m 0) == some 9 && (R.namedPacket (m 0)).isNone && isHandoff (m (fieldAt 1 40)) && R.handedOff < 4096 &&
    gives (.actionMessage 0) (unitS 0x8001 (m 0)) (fun u => u.fget Fld.ACTC_NO_PACKET_COUNT 0 == 1) &&
    gives (.handoff 0) (unitS 0x8001 (m (fieldAt 1 40))) (fun u => u.fget Fld.ACTC_NO_PACKET_COUNT 0 == 1) &&
    gives (.actionMessage 0) (unitS 0x8001 (m (fieldAt 1 43 ||| fieldAt 5 44)) holds)
      (fun u => (u.frame? 9).map (·.stage) == some (.action (some 5) []) && u.actFifo == [9] && (u.thr 7).pkts == []) &&
    gives (.handoff 0) (unitS 0x8001 (m (fieldAt 1 40)) holds) (fun u => (u.frame? 9).map (·.stage) == some .handed)) = true := by decide +kernel
theorem test_action_list : (let s (ws : List Word) := { withF (fr (.action none ws)) with actFifo := [9] }
    beforeEnd [0] == [] && gives (.actionListApply 9) (s [0]) (fun u => gone9 u && u.fget Fld.ACTC_NO_QUEUE_COUNT 0 == 1) &&
    gives (.actionListApply 9) (s [BitVec.ofNat 64 (0xC * 2 ^ 60 + (2 ^ 18 - 1)), 0])
      (fun u => (u.frame? 9).map (fun f => (f.stage, f.queue)) == some (.admitting, some (2 ^ 18 - 1)) && u.tmIn == [9]) &&
    gives (.actionListApply 9) (s [BitVec.ofNat 64 (0xE * 2 ^ 60 + 255)]) gone9) = true := by decide +kernel
theorem test_late_check : ([Stage.sending 0, .admitting].all (fun st => gives (.lateCheckFail 9 .ingressFcs) (withF (fr st)) gone9) &&
    gives (.lateCheckFail 9 .ingressFcs) (withF (fr (.host 0))) (fun u => (u.frame? 9).map (·.late != 0) == some true)) = true := by decide +kernel

/-- The same statements' clauses on the FEC's counts, a DDR5 hit with and without a frame of its key on the thread path, the lists that an
action engine runs first in, and a check that can no longer fail for its frame. -/
theorem test_paths_more : (let b : List Byte := List.replicate 60 0
    let e : List Byte := wordBytesLE (fieldAt 1 63 ||| fieldAt 7 24 ||| fieldAt key0.length 16 ||| fieldAt (bits hash0 63 48) 0)
    let d := ddrS ((withF { fr .ddr with hash := hash0, key := key0 } keyS).fset Fld.PAR_FC_CFG_LOG2_BUCKETS 0 10)
    let hit := d.memStore (d.ftBucket hash0) (e ++ (key0 ++ List.replicate 8 0).take 8)
    let wait : PendEntry := ⟨key0, 0x8000, none, [], []⟩
    gives (.frameReceive 0 b ⟨true, ⟨2, 1⟩⟩ false) macUp (fun u => u.fget Fld.PRTC_FEC_CORR_COUNT 0 == 2 && u.fget Fld.PRTC_FEC_UNCORR_COUNT 0 == 1 &&
      (u.frame? 0).isSome) && !d.earlierDdr (fr .ddr) key0 &&
    (match hit.ddrRead (hit.ftBucket hash0) 512 with
     | (some bs, t) => t.frames == hit.frames && ftFind bs hash0 key0 == some 0 && !fcToThread (ftEntry bs 0).1
     | _ => false) &&
    gives (.ddrFlowResult 9) hit (fun u => (u.frame? 9).map (·.stage) == some (.action (some 7) [])) &&
    { hit with pend := [wait] }.keyPending key0 && gives (.ddrFlowResult 9) { hit with pend := [wait] } (fun u => (u.frame? 9).map (·.stage) == some .path) &&
    !lateOpen { fr (.host 0) with passed := true } .ingressFcs && lateOpen (fr (.host 0)) .ingressFcs &&
    gives (.lateCheckFail 9 .ingressFcs) (withF { fr (.host 0) with passed := true }) (fun u => (u.frame? 9).map (·.late) == some 0) &&
    gives (.lateCheckFail 9 .ingressFcs) (withF (fr (.sending 35)) { R with cue := mput [] 3 { CuePort.init0 with last := some 9 } }) (fun u =>
      gone9 u && u.out == [Event.fcsTerminate 35])) = true := by decide +kernel
/-! ### Forwarding tables (chapter 05) -/

/-- LocksPublishAtomically: the last region, a held one, a write in a lock and outside, release with and without OVERFLOW, abort, publish, drain. -/
theorem test_locks : (let r := tblRegion (elemAddr (.em 3 524287))
    let l := after (.tableLock 63 (fieldAt r 0)) R
    let a := elemAddr (.em 3 524287)
    let d : List Byte := List.replicate 31 0 ++ [0]
    let w := after (.tableWindowWrite a d) l
    l.fbit Fld.TBL_LOCK_LOCK 63 && l.fget Fld.TBL_LOCK_REGION 63 == r && l.lockOf r == some 63 && (R.lockOf r).isNone && l.overlayCount < 4096 &&
    gives (.tableLock 0 (fieldAt r 0)) l (fun u => !u.fbit Fld.TBL_LOCK_LOCK 0 && u.fbit Fld.TBL_LOCK_CONFLICT 0) &&
    gives (.tableWindowWrite a d) R (fun u => u.fget Fld.TBLC_EM_UNLOCKED_COUNT 3 == 1) && (mget [] w.overlay 63).length == 1 &&
    gives (.tableRelease 63 0) w (fun u => u.draining.length == 1 && !u.fbit Fld.TBL_LOCK_LOCK 63 && u.fget Fld.TBL_LOCK_GEN 63 == 1 &&
      gives .overlayDrain u (fun v => v.draining == [])) &&
    gives (.tableRelease 63 0) (w.fset Fld.TBL_LOCK_OVERFLOW 63 1) (fun u => u.draining == [] && u.fbit Fld.TBL_LOCK_DISCARDED 63) &&
    gives (.tableLockAbort 63 0) w (fun u => u.draining == [] && mget [] u.overlay 63 == []) &&
    gives (.tablePublish (fieldAt 1 63)) w (fun u => u.draining.length == 1)) = true := by decide +kernel
theorem test_frets : (let v : Word := fieldAt 1 63
    let t := R.wr Reg.TBL_FRET 0 (writeFields false Reg.TBL_FRET 0 v)
    let u := R.wr Reg.TBL_FRET 1 (writeFields false Reg.TBL_FRET 0 v)
    R.tcamUsed == [] && t.fretsOrdered t.validFrets && t.fget Fld.TBL_FRET_PLEN_LO 0 ≤ t.fget Fld.TBL_FRET_PLEN_HI 0 &&
    gives (.fretWrite 0 v) R (fun s => s.fbit Fld.TBL_FRET_VALID 0) &&
    (let w := t.wr Reg.TBL_FRET 1 (writeFields false Reg.TBL_FRET 0 v)
     !w.fretsOrdered w.validFrets && gives (.fretWrite 1 v) t (fun s => s.fbit Fld.TBL_STATUS_FRET_REFUSED 0)) && u.fbit Fld.TBL_FRET_VALID 1) = true := by
  decide +kernel

/-- Table 0 is VALID in bank 0; slot 0 of the first bucket of key (0, inst 3, 0x55) holds it, learned. -/
def tabS (s : State := R) : State := s.fset Fld.TBL_EM_TABLE_VALID 0 1
def ek : EmKey := ⟨0, 3, 0x55, 0, false⟩
def ei : Nat := 4 * ek.b1
def emS : State := tabS.putElem (.em 0 ei) [fieldAt 7 61 ||| fieldAt 3 36, 0x55, 0, 0x77]
def look (w : List Word) : Lookup := ⟨16, 0, 5, 2, w, []⟩
/-- A learn request for that key with OP and DATA. -/
def learnM (op : Nat) (data : List Word) : Msg := { src := 7, words := [fieldAt op 38, fieldAt 3 48 ||| fieldAt 0x55 0] ++ data }

/-- LookupsAndLearning. -/
theorem test_lookups : (let l := look [fieldAt 3 48 ||| fieldAt 0x55 0, 0]
    let s := { emS with lookups := [l] }.setThr 16 { Thread.init with engHeld := 1 }
    let t := { R with draining := [⟨0, elemAddr (.tcam 131071), [fieldAt 1 63 ||| fieldAt 128 48, 1, 2, 0x99]⟩] }
    (s.lookups.find? fun l => s.lkpBank l.profile == 0) == some l && emS.emFind 0 ek == some (.em 0 ei) &&
    gives (.lookupComplete 0 false .clean) s (fun u => u.lookups == [] && (u.thr 16).engHeld == 0 && u.fget Fld.TBLC_LOOKUPS_COUNT 0 == 1) &&
    (emS.emLookup l false .clean).1.map (fun r => (r.index, r.data)) == some (ei, 0x77) &&
    (R.emLookup l false .clean).1 == some (.miss 4) && t.tcamFind 0 0 0 1 2 == some 131071 && (t.tcamFind 0 0 0 1 3).isNone &&
    (t.lpmSearch (look [0, 1, 2]) .clean).1.data == 0x99) = true := by decide +kernel
theorem test_learning : (let m := learnM 0 [0x77]
    let u := learnM 1 []
    let lk (s : State) := after (.tableLock 0 (fieldAt (tblRegion (elemAddr (.em 0 ei))) 0)) s
    emS.learnOk m && emS.learnOk u && emS.learnReady m && !emS.keyLocked 0 ek && (lk emS).keyLocked 0 ek && emLearned ((emS.elem (.em 0 ei)).getD 0 0) &&
    emS.learnFind 0 ek == some (.em 0 ei) && emS.learnKey m == ek &&
    gives (.learn 0) (unitS 0x8002 m emS) (fun t => (t.elem (.em 0 ei)).getD 3 0 == 0x77 && mget 0 t.learnSeq 0 == 1) &&
    gives (.unlearn 0) (unitS 0x8002 u emS) (fun t => !emValid ((t.elem (.em 0 ei)).getD 0 0)) &&
    gives (.learn 0) (lk (unitS 0x8002 m emS)) (fun t => t.parked.length == 1 && (t.resumable 0).isNone) &&
    (let p := { emS with parked := [⟨0, 0, m⟩] }
     p.resumable 0 == some ⟨0, 0, m⟩ && gives (.parkedResume 0) p (fun t => t.parked == []))) = true := by decide +kernel
theorem test_table_ageing : (let due := emS.emAgeSlot true (.em 0 ei)
    let d := ddrS (emS.fset Fld.TBL_SWEEP_CFG_EM_EN 0 1)
    let t := d.writeShadow (.em 0 ei)
    emAge ((due.elem (.em 0 ei)).getD 0 0) == 1 && (emSlots 0 131071).all (fun e => !emValid ((R.elem e).getD 0 0)) &&
    gives (.emAgeScan 0 false 131071 true) R (fun u => u.regs == R.regs) &&
    (d.readShadow (cmpElem false ei)).1.isSome && !d.elemLocked (.em 0 ei) &&
    gives (.shadowCompare false ei .clean) d (fun u => u.tblDiffs.length == 1 &&
      gives (.shadowRecheck false ei) u (fun v => v.tblDiffs == [] && v.fbit Fld.TBL_STATUS_MISMATCH 0)) &&
    gives (.shadowCompare false ei .clean) t (fun u => u.tblDiffs == []) && gives (.shadowRecheck true 0) R (fun u => u.regs == R.regs)) = true := by
  decide +kernel

/-! ### Traffic manager (chapter 06) -/

/-- Queue 262,143 is VALID with room for 2 cells and 9 reserved cells for instance 0. -/
def q9 : Nat := 262143
def tmS : State := ((R.fset Fld.TM_NODE_W0_VALID q9 1).fset Fld.TM_NODE_W4_Q_MAX q9 1).fset Fld.TM_INST_BUF_RESV 0 1
def inQ (s : State) : State := after (.tmEnqueue 9 true) (withF { fr .admitting with queue := some q9 } s)

/-- AdmissionAndFlush. -/
theorem test_admission : (let f := { fr .admitting with queue := some q9 }
    tmS.admitTurn 9 q9 && cellsOf f.lenFcs == 1 && tmS.qlen q9 + tmS.qlenOvf q9 + 1 ≤ tmS.fget Fld.TM_NODE_W4_Q_MAX q9 &&
    tmS.resvUsed 0 + 1 ≤ tmS.fget Fld.TM_INST_BUF_RESV 0 && tmS.fget Fld.TM_WRED_COLOUR_MAXP (ix2 3 0 0) == 0 &&
    (inQ tmS).fifo q9 == [9] && gives (.tmEnqueue 9 true) (withF f) (fun u => gone9 u && u.fget Fld.TMC_NO_QUEUE_CFG_COUNT 0 == 1) &&
    gives (.tmEnqueue 9 true) (withF f (tmS.fset Fld.TM_NODE_W4_Q_MAX q9 0)) (fun u => gone9 u && u.fget Fld.TMC_TAIL_COUNT 0 == 1) &&
    gives (.overflowReadback ⟨q9, by decide⟩) (withF { fr (.queued q9) with charge := .overflow } (inQ tmS)) (fun u => (u.frame? 9).map (·.back) == some true) &&
    gives (.tmFlush (BitVec.ofNat 64 q9)) (inQ tmS) (fun u => gone9 u && u.fbit Fld.TM_FLUSH_BUSY 0 &&
      gives (.tmFlush 0) u (fun v => v.fbit Fld.TM_FLUSH_REFUSED 0) && gives .flushComplete u (fun v => !v.fbit Fld.TM_FLUSH_BUSY 0))) = true := by
  decide +kernel

/-- SelectionAndElements. -/
theorem test_elements : (let n := 348197
    let v := R.fset Fld.TM_NODE_W0_VALID n 1
    let rate := R.fset Fld.TM_NODE_W1_RATE n 1
    gives (.tmElementWrite n 7 5) R (fun u => u.regs == R.regs) && gives (.tmElementWrite n 2 5) v (fun u => u.fget Fld.TMC_STATE_REFUSED_COUNT 0 == 1) &&
    gives (.tmElementWrite n 2 5) R (fun u => u.fget Fld.TM_NODE_W2_F n == 5) && gives (.shaperRefill n) rate (fun u => u.tmTokens n ≥ 0) &&
    gives (.tmSelect 37 false) R (fun u => u.regs == R.regs) && (R.tmParent 0).isSome && gives (.clampSweep 0) R (fun u => u.regs == R.regs) &&
    tmLevel q9 == 4 && tmLevel n != 4 && gives (.tmElementWrite q9 4 (5 <<< 20)) R (fun u => u.fget Fld.TM_NODE_W4_Q_MAX q9 == 5) &&
    gives (.policerWrite 1048575 2 5) R (fun u => u.rd Reg.TM_POL_W2 1048575 == 5) &&
    gives (.policerWrite 1048575 2 5) (R.fset Fld.TM_POL_W0_VALID 1048575 1) (fun u => u.fget Fld.TMC_STATE_REFUSED_COUNT 0 == 1)) = true := by
  decide +kernel
theorem test_buffers : (let big : Word := BitVec.ofNat 64 (2 ^ Fld.TM_INST_BUF_RESV.w - 1)
    let room (v : Word) := decide (524288 - R.ingressCap < R.resvTotal - R.fget Fld.TM_INST_BUF_RESV 4095 + Fld.TM_INST_BUF_RESV.of v)
    !room 1 && room (big <<< Fld.TM_INST_BUF_RESV.lo) && !R.fbit Fld.CAPO_INST_CTL_STRICT 4095 &&
    gives (.instBufWrite 4095 (1 <<< Fld.TM_INST_BUF_RESV.lo)) R (fun u => u.fget Fld.TM_INST_BUF_RESV 4095 == 1) &&
    gives (.instBufWrite 4095 (big <<< Fld.TM_INST_BUF_RESV.lo)) R (fun u => u.fbit Fld.TM_BUF_POOL_RESV_REFUSED 0) &&
    R.resvTotal ≤ 524288 - ingressCells 8 && gives (.ingressCellsWrite (8 <<< Fld.TM_CFG_INGRESS_CELLS.lo)) R (fun u => u.fget Fld.TM_CFG_INGRESS_CELLS 0 == 8) &&
    (let f := R.fset Fld.TM_INST_BUF_RESV 0 524288
     !decide (f.resvTotal ≤ 524288 - ingressCells 8) && gives (.ingressCellsWrite (8 <<< Fld.TM_CFG_INGRESS_CELLS.lo)) f (fun u => u.fbit Fld.TM_BUF_POOL_RESV_REFUSED 0))) = true := by
  decide +kernel
/-! ### Cipher engine (chapter 07) -/

/-- Self-tests are done; firmware core 0 holds the key loading window. -/
def cipS : State := R.fset Fld.CIP_SELFTEST_READY 0 1
def klwS : State := after (.klwClaim 0xE000 0xE000) cipS
/-- Context 65,535 is set for AES-256-GCM and ESP outbound, and its key is loaded. -/
def gcmCfg (s : State) : State := (s.fset Fld.CIP_CTX_W0_ALG 65535 2).fset Fld.CIP_CTX_W0_STATE 65535 0
def loaded9 : State := after .klwCommandDone (after (.klwLoad 0xE000 65535) (gcmCfg klwS))

/-- KeysLoadAndErase: the window's states, a LOAD that stores, one that is refused, erasing, and writes of a context's words. -/
theorem test_key_window : (cipS.klwOwner == 0 && klwS.klwOwner == 0xE000 && !klwS.klwBusy && klwS.klwMay 0xE000 0 &&
    gives (.klwClaim 0xE001 0xE001) klwS (fun u => u.fbit Fld.CIP_KLW_LOCK_CLAIM_REFUSED 0) &&
    gives (.klwRelease 0xE000) klwS (fun u => u.klwOwner == 0) && gives .klwAutoRelease klwS (fun u => u.klwOwner == 0) &&
    gives (.klwDataWrite 0xE000 11 5) klwS (fun u => u.rd Reg.CIP_KLW_DATA 11 == 5) &&
    gives (.klwDataWrite 0xE001 11 5) klwS (fun u => u.fget Fld.CIPC_KLW_REFUSED_COUNT 0 == 1) &&
    gives (.klwErase 0xE000 65535) klwS (fun u => !u.klwBusy && u.fget Fld.CIP_KLW_STATUS_RESULT 0 == 0) &&
    gives (.klwUnwrap 0xE000 0 65535) klwS (fun u => u.klwBusy) &&
    gives (.contextWrite 65535 4 9) klwS (fun u => u.rd Reg.CIP_CTX_W4 65535 != 0) && gives (.contextWrite 0 2 9) klwS (fun u => u.regs == klwS.regs)) = true := by
  decide +kernel
theorem test_key_load : (let run := after (.klwLoad 0xE000 65535) (gcmCfg klwS)
    (run.klwCmd.map (fun k => match run.klwJudge k with | .ok m => m.length | .error _ => 0)) == some 40 &&
    loaded9.ctxState 65535 == 1 && (loaded9.key 65535).length == 40 && !loaded9.klwBusy && loaded9.klwCmd.isNone &&
    (let bad := after (.klwLoad 0xE000 65535) klwS
     (bad.klwCmd.map (fun k => match bad.klwJudge k with | .ok _ => 0 | .error e => e)) != some 0 && gives .klwCommandDone bad (fun u => u.keys == [])) &&
    gives (.contextWrite 65535 0 9) loaded9 (fun u => u.fget Fld.CIPC_CFG_REFUSED_COUNT 0 == 1) &&
    gives (.klwErase 0xE000 65535) loaded9 (fun u => u.ctxState 65535 == 3 && u.csubs == [] &&
      gives (.eraseComplete 65535) u (fun v => v.ctxState 65535 == 0 && v.keys == []))) = true := by decide +kernel

/-- AES-256-GCM on the two simplest test cases published with the mode, for key and nonce zero: no data, and one block of zeros. -/
theorem test_gcm : (let z (n : Nat) : List Byte := List.replicate n 0
    let ct := gcmCrypt (z 32) (z 12) (z 16)
    beNat (gcmTag (z 32) (z 12) [] []) == 0x530f8afbc74536b9a963b4f1c4cb738b && beNat ct == 0xcea7403d4d606b6e074ec5d3baf39d18 &&
    beNat (gcmTag (z 32) (z 12) [] ct) == 0xd0d1c8a799996bf0265b98b5d48ab919) = true := by decide +kernel
/-- CipherSealsAndOpens: what fits, what is dropped, and an ICV that fails. -/
theorem test_esp : (let f := { fr (.cipher 0 65535) with hv := (((fr .path).hv.set 1 0).set 2 0) }
    let s := withF (fr (.cipher 0 65535)) loaded9
    s.cipherTurn 9 0 65535 && !s.noCipher && s.espFits 0 65535 0 && f.bytes.length == 60 && s.fget Fld.CIP_CTX_W2_INV_CNT 65535 + 1 ≤ s.ctxLimit 65535 &&
    gives (.espOutbound 9) (withF (fr (.cipher 0 65535))) (fun u => gone9 u && u.fget Fld.CIPC_KEYLESS_DROP_COUNT 0 == 1)) = true := by decide +kernel
theorem test_csub : (let j : CsubJob := ⟨16, 5, 2, [0, 0, 0, 0], 2, 0⟩
    let s := { loaded9 with csubs := [j] }.setThr 16 { Thread.init with engHeld := 1 }
    gives .csubComplete s (fun u => u.csubs == [] && (u.thr 16).engHeld == 0 && u.mem == s.mem)) = true := by decide +kernel
theorem test_alarm : (gives (.keyAlarm 5) loaded9 (fun u => u.keys == [] && u.ctxState 65535 == 0 && u.keyless && u.noCipher) &&
    gives (.selftestComplete false) loaded9 (fun u => u.keys == [] && u.keyless) &&
    gives .selftestRun loaded9 (fun u => u.fbit Fld.CIP_SELFTEST_RUNNING 0 &&
      gives (.selftestComplete true) u (fun v => v.fbit Fld.CIP_SELFTEST_READY 0 && (v.key 65535).length == 40))) = true := by decide +kernel

/-! ### Ports and Cuelrun (chapter 08) -/

/-- LinkStates: every state of a link of MAC 31, MODE at both ends and past it. -/
theorem test_link_states : (let p := R.fset Fld.PRT_PORT_CFG_MODE 3 3
    let at_ (n : Nat) := p.fset Fld.PRT_MAC_STATUS_STATE 31 n
    p.linkExists 31 && (at_ 5).pllOk 31 && gives (.linkEnable 31) (p.fset Fld.PRT_PORT_CFG_AN_EN 3 0) (fun u => u.linkSt 31 == 2) &&
    gives (.linkEnable 31) p (fun u => u.linkSt 31 == 1) && gives (.linkDisable 31) (at_ 4) (fun u => u.linkSt 31 == 0) &&
    gives (.anComplete 31 true false) (at_ 1) (fun u => u.linkSt 31 == 2) && gives (.anComplete 31 false false) (at_ 1) (fun u => mget 0 u.anFail 31 == 1) &&
    gives (.trainingComplete 31) (at_ 2) (fun u => u.linkSt 31 == 3) && gives (.trainingTimeout 31) (at_ 2) (fun u => u.linkSt 31 == 5) &&
    gives (.linkAligned 31) (at_ 3) (fun u => u.linkSt 31 == 4 && mget false u.latch 529) && gives (.alignTimeout 31) (at_ 3) (fun u => u.linkSt 31 == 5) &&
    gives (.linkLoss ⟨31, {}⟩) (at_ 4) (fun u => u.linkSt 31 == 5) && gives (.faultRetry 31) (at_ 5) (fun u => u.linkSt 31 == 1) &&
    gives (.faultRetry 31) { at_ 5 with portPll := mset false [] 3 true } (fun u => u.linkSt 31 == 5) &&
    gives (.portModeWrite 3 (4 <<< 8)) R (fun u => u.fget Fld.PRT_PORT_CFG_MODE 3 == 4) &&
    gives (.portModeWrite 3 (5 <<< 8)) R (fun u => u.fbit Fld.PRT_PORT_CFG_MODE_UNSUPPORTED 3) &&
    gives (.tsPop 31) { R with tsFifo := mset [] [] 31 [(1, 2)] } (fun u => mget [] u.tsFifo 31 == []) && gives (.todStep 7) R (fun u => u.time == 7)) = true := by
  decide +kernel

/-- Port 3 runs Cuelrun and is UP, and this adapter is device 5. -/
def cueS : State := ((R.fset Fld.PRT_PORT_CFG_MODE 3 4).fset Fld.PRT_MAC_STATUS_STATE 24 4).fset Fld.CUE_CFG_DEVICE_ID 0 5
def cueF (type : Nat) (payload : List Byte := []) : CueFrame :=
  { dst := 5, src := 9, hops := 1, cls := 0, type := type, win := 63, wgen := 0, seq := 0, deadline := 100, tag := 3, wrapped := false, status := 0, payload := payload }
/-- CuelrunDeliversInOrder. -/
theorem test_cuelrun : (let p (c : CuePort) := { cueS with cue := mput [] 3 c }
    let un := { CuePort.init0 with unacked := [cueF 1, { cueF 1 with seq := 65535 }] }
    cueS.cueUp 3 && cueS.devId == 5 && cueS.isCue 3 && (un.unacked.findIdx? fun f => f.seq == 65535) == some 1 &&
    gives (.cuelrunReceive 3 (cueF 1) ⟨.good, {}⟩) cueS (fun u => (u.cuePort 3).rxSeq == 1 && u.peerIn.length == 1) &&
    gives (.cuelrunReceive 3 { cueF 1 with seq := 1 } ⟨.good, {}⟩) cueS (fun u => (u.cuePort 3).nakSent && u.peerIn == []) &&
    gives (.cuelrunReceive 3 (cueF 1) ⟨.bad, {}⟩) cueS (fun u => (u.cuePort 3).nakSent && u.fget Fld.CUEC_CRC_ERR_COUNT 3 == 1) &&
    gives (.cuelrunReceive 3 (cueF 1) ⟨.stomped, {}⟩) cueS (fun u => u.fget Fld.CUEC_STOMP_RX_COUNT 3 == 1) &&
    gives (.linkAck 3 65535) (p un) (fun u => (u.cuePort 3).unacked == []) &&
    gives (.linkNak 3 65535) ((p un).fset Fld.CUE_CFG_RETRY_MAX 0 2) (fun u => u.out.length == 1 && (u.cuePort 3).retries == 1) &&
    gives (.linkNak 3 65535) ((p un).fset Fld.CUE_CFG_RETRY_MAX 0 1) (fun u => u.linkSt 24 == 5) &&
    gives (.replayTimeout 3) ((p un).fset Fld.CUE_CFG_RETRY_MAX 0 2) (fun u => u.out.length == 2) &&
    gives (.nakBusy 3 65535) (p un) (fun u => (u.cuePort 3).busy == some 65535 &&
      gives (.nakBusyReplay 3) (u.fset Fld.CUE_CFG_RETRY_MAX 0 2) (fun v => (v.cuePort 3).busy == none && v.out.length == 1)) &&
    gives (.initReceived 3 5 false 9) (cueS.fset Fld.PRT_MAC_STATUS_STATE 24 3) (fun u => u.fbit Fld.CUE_PORT_STATUS_ID_CONFLICT 3) &&
    gives (.linkAligned 24) (after (.initReceived 3 6 false 9) (cueS.fset Fld.PRT_MAC_STATUS_STATE 24 3)) (fun u => u.linkSt 24 == 4)) = true := by decide +kernel

/-- PeerWindows: window 63 takes WRITEs of one byte, at its last one. -/
theorem test_peer_windows : (let w := ((((cueS.fset Fld.CUE_WIN_AC_W0_BASE 63 boot).fset Fld.CUE_WIN_AC_W1_LIMIT 63 7).fset Fld.CUE_WIN_AC_W3_WRITE 63 1).fset
      Fld.CUE_WIN_AC_W3_READ 63 1).fset Fld.CUE_WIN_AC_W3_VALID 63 1
    let fw := cueF 1 (natBE 8 (7 * 65536) ++ [0xAB])
    let at_ (f : CueFrame) (s : State) := { s with peerIn := [(3, f)] }
    let rd (st : ReadState) (f : CueFrame) := { at_ f cueS with cueReads := [⟨3, 0, 0, st⟩] }
    w.winCheck fw == 0 && cueS.winCheck fw != 0 && cueOffset fw == 7 && cueLen fw == 1 &&
    gives .peerWrite (at_ fw w) (fun u => u.memByte (boot + 7) == 0xAB && u.peerIn == []) && gives .peerWrite (at_ fw cueS) (fun u => u.mem == [] && u.peerIn == []) &&
    gives .peerRead (at_ (cueF 2 (natBE 8 0)) w) (fun u => u.peerIn == []) &&
    (let m := (w.fset Fld.CUE_WIN_AC_W2_KIND 63 1).fset Fld.CUE_WIN_AC_W2_CH 63 0x8000
     let f := cueF 4 (natBE 8 7 ++ List.replicate 8 0x11)
     m.winCheck f == 0 && gives .peerMsg (at_ f m) (fun u => u.peerIn == [])) &&
    gives .peerResp (rd .waiting (cueF 3 [1])) (fun u => u.cueReads == [⟨3, 0, 0, .data [1]⟩]) &&
    gives .peerResp (rd .dead (cueF 3 [1])) (fun u => u.cueReads == [] && u.fget Fld.CUEC_LATE_RESP_COUNT 0 == 1) &&
    gives (.readTimeout 3) (rd .waiting (cueF 3)) (fun u => u.cueReads.length == 2) && gives (.readTagRelease 3) (rd .dead (cueF 3)) (fun u => u.cueReads == []) &&
    (let c := (R.fset Fld.CUE_WIN_SH_W0_BASE 63 boot).fset Fld.CUE_WIN_SH_W1_LIMIT 63 7
     c.winRangeOk boot 7 && gives (.windowCommit 63) c (fun u => u.fget Fld.CUE_WIN_CTL_GEN 63 == 1 && u.fget Fld.CUE_WIN_AC_W0_BASE 63 == boot &&
       mget 0 u.winCommit 63 != 0 && gives (.windowCommit 63) u (fun v => v.fbit Fld.CUE_WIN_CTL_COMMIT_REFUSED 63)))) = true := by decide +kernel

/-! ### Host endpoint (chapter 09) -/

/-- PF 0 is ready, with its memory space and Bus Master enabled. -/
def pfS : State := (R.fset Fld.PCI_READY_CFG 0 15).setFunc 0 { Func.init with bme := true, mem := true }
/-- ResetKinds. -/
theorem test_resets : (let s := (loaded9.fset Fld.PCI_SEG_STATUS_LINK_UP 2 1)
    !mget false s.hold 0 && s.leadSeg 2 == 2 && !s.held_ && s.leadSeg 0 == 0 &&
    gives (.fundamentalReset .perst0) s (fun u => u.keys == [] && mget false u.hold 0 && u.ctxState 65535 == 0 &&
      gives (.perstNDeassertion 0 3) u (fun v => !mget false v.hold 0 && v.split == 0 && v.fbit Fld.PCI_STRAP_SPLIT_INVALID 0)) &&
    gives (.fundamentalReset .fuseFault) s (fun u => mget false u.hold 3) && gives (.fundamentalReset .powerOn) s (fun u => u.seqLeft == 4 && u.regs == []) &&
    gives (.segmentPerst 2) s (fun u => !u.fbit Fld.PCI_SEG_STATUS_LINK_UP 2 && u.fbit Fld.PCI_SEG_STATUS_PERST 2 &&
      gives (.perstNDeassertion 2 0) u (fun v => !v.fbit Fld.PCI_SEG_STATUS_PERST 2)) &&
    gives (.hotReset 2) s (fun u => !u.fbit Fld.PCI_SEG_STATUS_LINK_UP 2) && gives (.linkDown 2) s (fun u => !u.fbit Fld.PCI_SEG_STATUS_LINK_UP 2) &&
    gives (.pfFlr 0) pfS (fun u => u.func 0 == Func.init) && gives (.linkInL0 2 8 7 true) s (fun u => u.fget Fld.PCI_SEG_STATUS_WIDTH 2 == 8) &&
    gives (.pciReadyWrite 1) R (fun u => u.rd Reg.PCI_READY 0 == 1)) = true := by decide +kernel
/-- VF 1 of PF 0 is instance 4 upwards: its number is the first that is not a PF's. -/
def vf : Nat := (List.range 64).find? (fun i => i != 0 && pfOf i == 0 && vfOf i == 1) |>.getD 0
theorem test_vf_flr : (let s := pfS.setFunc 0 { Func.init with bme := true, mem := true, vfEn := true, numVfs := 1, vfMem := true }
    s.funcExists vf && 4 ≤ vf && gives (.vfFlr (Fin.ofNat 4096 vf)) (s.setFunc vf { Func.init with bme := true }) (fun u => u.func vf == Func.init)) = true := by decide +kernel

/-- HostAccesses. -/
theorem test_host_accesses : (pfS.funcExists 0 && pfS.memEnabled 0 && !pfS.retryStatus 0 && R.retryStatus 0 && R.funcExists 0 && !R.memEnabled 0 &&
    hasBar 0 0 && barSizeOk 0x7F8 8 && !barSizeOk 0x7FC 8 && pfS.barPlace 0 0 8 == .reserved && pfS.barPlace 0 0 0 == .status 0 &&
    (match pfS.barPlace 0 4 0x17FF4 with | .msixTab o => o == 0x7FF4 | _ => false) &&
    gives (.pciConfigWrite 0 (.busMaster false)) pfS (fun u => !(u.func 0).bme) && gives (.pciConfigWrite 0 (.busMaster true)) R (fun u => u.funcs == [] && u.out == [Event.cfgRetry 0]) &&
    gives (.hostBarWrite 0 0 0x7FC 8 0 .good) pfS (fun u => u.fget Fld.PCIC_BAR_BAD_SIZE_COUNT 0 == 1) &&
    gives (.hostBarRead 0 0 0 4 ⟨.good, false⟩) pfS (fun u => u.out.length == 1) && gives (.hostBarWrite 0 0 8 4 0 .good) pfS (fun u => u.fget Fld.PCIC_BAR_RESERVED_COUNT 0 == 1) &&
    gives (.hostBarWrite 0 4 0x17FF4 4 7 .good) pfS (fun u => u.msixWord 0 0x1FFD == 7) && gives (.ltrCfgWrite 3 5) R (fun u => u.out == []) &&
    gives (.ltrCfgWrite 0 (BitVec.allOnes 64)) (pfS.setFunc 0 { pfS.func 0 with ltr := true }) (fun u => u.out.length == 1) &&
    gives (.doeObject 0 0 [0] []) pfS (fun u => u.out.length == 1) && gives (.doeObject 0 1 [0] []) pfS (fun u => (mget DoeBox.init u.doe 0).object == some (1, [0])) &&
    gives (.doeAbort 0) pfS (fun u => u.doe == [])) = true := by decide +kernel
theorem test_invalidate : (let e (q : Bool) : ReadEntry := { inst := 0, tag := 5, sn := 1, read := 7, part := 0, xlat := none, used := some 3, len := 1, got := [], quar := q }
    let s := { pfS with atsCache := [⟨0, 3, 9, true, true⟩] }
    gives (.atsInvalidate 0 3 3 1) s (fun u => u.atsCache == [] && u.atsInv.length == 1) &&
    (let v (q : Bool) := { pfS with atsInv := [⟨0, 1, [1]⟩], entries := [e q] }
     gives (.invalidationCompletion 0 1) (v false) (fun u => u.atsInv.length == 1) && gives (.invalidationCompletion 0 1) (v true) (fun u => u.atsInv == []))) = true := by decide +kernel

/-- ReadTracking: one read of one byte under tag 5. -/
theorem test_read_tracking : (let e : ReadEntry := { inst := 0, tag := 5, sn := 1, read := 7, part := 0, xlat := none, used := none, len := 1, got := [], quar := false }
    let r : HostRead := { id := 7, who := .pageLog 0, inst := 0, gen := 0, ats := false, parts := [⟨0x1000, 1, true, none⟩], res := none }
    let s := { pfS with entries := [e], hreads := [r] }
    (s.entries.find? fun e => e.inst == 0 && e.tag == 5) == some e && (s.hreads.find? fun r => r.id == e.read && r.res.isNone) == some r &&
    gives (.completionReceived 0 5 .good (.data [0xAA])) s (fun u => u.entries == [] && u.hreads.map (·.res) == [some (.ok [0xAA])]) &&
    gives (.completionReceived 0 6 .good (.data [0xAA])) s (fun u => u.fget Fld.PCIC_UNEXP_CPL_COUNT 0 == 1) &&
    gives (.completionTimeout 0 5) s (fun u => u.hreads.map (·.res) == [some .fail] && u.fget Fld.PCIC_CTO_COUNT 0 == 1 &&
      gives (.quarantineEnd 0 5) u (fun v => v.entries == [])) &&
    gives (.tagQuotaWrite 4095 (1 <<< Fld.PCI_TAG_QUOTA_MIN.lo)) R (fun u => u.fget Fld.PCI_TAG_QUOTA_MIN 4095 == 1) &&
    gives (.tagQuotaWrite 4095 (BitVec.allOnes 64)) R (fun u => u.fbit Fld.PCI_TAG_POOL_QUOTA_REFUSED (ctlOf 4095))) = true := by decide +kernel
/-! ### Rings and jobs (chapter 10) -/

/-- Instance 0 of a ready PF has rings 0 to 255 of each kind, a CQ 255 and an RQ 255 that are ACTIVE, of 64 entries. -/
def ringMapS : State := after (.ringMapWrite 0 2 (BitVec.ofNat 64 (256 * 2 ^ Fld.HQE_INST_RINGS_COUNT.lo))) (after (.ringMapWrite 0 1 (BitVec.ofNat 64 (256 * 2 ^ Fld.HQE_INST_RINGS_COUNT.lo))) pfS)
def w0 (cq : Nat) : Word := fieldAt 6 52 ||| fieldAt cq 0 ||| fieldAt 1 63
def cqS : State := after (.ringEnable 2 255 (w0 0)) ringMapS
def rqS : State := after (.ringEnable 1 255 (w0 255)) cqS
/-- RingsAndDoorbells. -/
theorem test_ring_map : (let fld := Fld.HQE_INST_RINGS_COUNT
    ringMapS.ringBlock 0 1 == (0, 256) && R.listed Reg.HQE_INST_RINGS == [] && R.liveRings 0 == [] && fld.lo + Fld.HQE_INST_RINGS_BASE.lo ≥ 0 &&
    gives (.ringMapWrite 4095 2 (BitVec.allOnes 64)) R (fun u => u.fbit Fld.HQE_STATUS_MAP_REFUSED 0) &&
    ringMapS.ringOwner 2 255 == some (0, 255) && (ringMapS.ringOwner 2 256).isNone && ringMapS.mayEnable 2 255 (w0 0) && !ringMapS.mayEnable 2 256 (w0 0) &&
    cqS.ringSt 2 255 == 1 && rqS.ringSt 1 255 == 1 && gives (.ringEnable 2 256 (w0 0)) ringMapS (fun u => u.fbit Fld.HQE_STATUS_ENABLE_REFUSED 0) &&
    gives (.ringEnable 1 255 (w0 255)) rqS (fun u => u.fget Fld.HQEC_CFG_REFUSED_COUNT 0 == 1) &&
    gives (.ringElementWrite 1 0 1 (fieldAt 7 12)) R (fun u => u.fget (rBase 1) 0 == 7) && gives (.ringElementWrite 1 0 2 7) R (fun u => u.regs == R.regs)) = true := by
  decide +kernel
theorem test_ring_off : (let d := after (.ringDisable 1 255) rqS
    d.ringSt 1 255 == 4 && d.onChip 1 255 == 0 && gives (.ringDrainComplete true 255) d (fun u => u.ringSt 1 255 == 0 && u.ringX 1 255 == RingX.init) &&
    gives (.ringDisable 2 255) cqS (fun u => u.ringSt 2 255 == 0) && rqS.liveRings 1 == [255] && rqS.fget (rCq 1) 255 == 255) = true := by decide +kernel
theorem test_doorbells : (let db (v : BitVec 16) (s : State) := after (.sqRqDoorbell 0 true 255 v) s
    rqS.ringGlobal 0 1 255 == some 255 && (R.ringGlobal 0 1 255).isNone && !rqS.frozen 0 && !rqS.ringNvme 1 255 && rqS.uc == [] &&
    (db 64 rqS).fget (rHi 1) 255 == 64 && (db 65 rqS).ringSt 1 255 == 3 && (db 65 rqS).fget (rCause 1) 255 == 1 &&
    (db 1 (db 64 rqS)).fget Fld.HQEC_DB_STALE_COUNT 0 == 1 && gives (.sqRqDoorbell 0 true 255 1) R (fun u => u.fget Fld.HQEC_DB_UNMAPPED_COUNT 0 == 1) &&
    gives (.sqRqDoorbell 0 true 255 1) { rqS with dark := true } (fun u => u.darkDb.length == 1) &&
    gives (.sqRqDoorbell 0 true 255 7) (rqS.fset Fld.CAPO_INST_STATUS_STATE 0 3) (fun u => u.fget (rHi 1) 255 == 0) &&
    gives (.cqDoorbell 0 255 0 false) rqS (fun u => u.fget (rLo 2) 255 == 0) && gives (.cqDoorbell 0 255 65535 false) (rqS.fset (rHi 2) 255 64) (fun u => u.ringSt 2 255 == 3) &&
    gives (.doorbellRead 0 1 255) rqS (fun u => u.out.length == rqS.out.length + 1)) = true := by decide +kernel

/-- JobsMoveFrames: one RQ entry of 256 bytes arrives; a fetch fails; a frame enters; one leaves to a buffer and one nowhere. -/
def rqEnt : List Byte := natLE 8 0x8000000000000100 ++ natLE 8 0x1000 ++ List.replicate 16 0
def fetchS (r : ReadRes) : State :=
  { rqS.setRingX 1 255 { rqS.ringX 1 255 with fetches := [(0, 1)], next := 1 } with
    hreads := [{ id := 7, who := .fetch 1 255 0, inst := 0, gen := 0, ats := false, parts := [], res := some r }] }
theorem test_descriptors : (entryCheck 1 6 0 0 (entryWords 32 0 rqEnt) == 0 && ((fetchS (.ok rqEnt)).takeRead (.fetch 1 255 0)).isSome &&
    gives (.descriptorData true 255) (fetchS (.ok rqEnt)) (fun u => (u.ringX 1 255).chip.length == 1 && u.fget (rLo 1) 255 == 1) &&
    gives (.descriptorData true 255) (fetchS .fail) (fun u => u.ringSt 1 255 == 3 && u.fget (rCause 1) 255 == 2)) = true := by decide +kernel
theorem test_jobs : (let j : TxJob := ⟨3, 0, 0, [⟨0, [fieldAt 1 63 ||| fieldAt 64 0]⟩], false⟩
    let rd (r : ReadRes) : HostRead := { id := 7, who := .payload 1 0, inst := 0, gen := 0, ats := false, parts := [], res := some r }
    let s (r : ReadRes) := { pfS with txJobs := [(1, j)], hreads := [rd r] }
    let q := after (.descriptorData true 255) (fetchS (.ok rqEnt))
    let h := { (withF (fr (.host 0)) q) with hostOut := [9] }
    ((s (.ok [1])).payload 1 1).isSome && (s (.ok [1])).ingRoom 5 && (s (.ok [1])).srcQueue 36 < 64 && !bit j.first 57 &&
    gives (.txPayloadDone 1) (s (.ok (List.replicate 60 1))) (fun u => (u.frame? 0).isSome && u.txJobs == []) &&
    gives (.txPayloadDone 1) (s .fail) (fun u => u.txJobs == [] && u.frames == []) &&
    gives (.txDeparture 1) { pfS with txJobs := [(1, { j with handed := true })], txGone := [(1, none)] } (fun u => u.txJobs == [] && u.txGone == []) &&
    h.rqOf 0 == some 255 && h.usable 0 && ((fillBuffers (h.ringX 1 255).chip (List.replicate 60 0)).2 == []) && h.stalledOf 255 == [] &&
    gives (.rxFrame 9) h (fun u => gone9 u && (u.ringX 1 255).chip == []) &&
    gives (.rxFrame 9) { withF (fr (.host 5)) with hostOut := [9] } gone9) = true := by decide +kernel
theorem test_host_frames : (let s := { (withF (fr (.host 0)) { R with genCount := mset 0 [] 0 1 }) with hostOut := [9] }
    let e : RingEntry := ⟨0, [fieldAt 1 63 ||| fieldAt 64 0]⟩
    let j : TxJob := ⟨3, 0, 5, [e], false⟩
    s.frameOrphan (fr (.host 0)) && gives (.rxFrame 9) s gone9 && !pfS.handleWaits j &&
    gives (.sqRqDoorbell 0 true 255 3) rqS (fun u => mget [] u.ucDoorbells (ringKey 1 255) == [fieldAt 3 0]) &&
    gives (.doorbellRead 0 1 255) { rqS with dark := true } (fun u => u.out.head? == some (Event.barAnswer 0 (some 0)))) = true := by decide +kernel
theorem test_cq_timers : (let c : CplRec := ⟨1, 255, 0, 0, 0, 0, 0, 0, 0, none, 255⟩
    let f := (rqS.setHeld 255 [c]).fset (rState 2) 255 2
    let t := { ((rqS.fset Fld.HQE_CQ_W2_ARMED 255 1).fset (rHi 2) 255 1) with fullerT := mset 0 [] 255 1 }
    gives (.fullTimeout 255) f (fun u => u.ringSt 2 255 == 3 && u.fget (rCause 2) 255 == 8) && gives (.fullTimeout 255) rqS (fun u => u.regs == rqS.regs) &&
    t.ringOcc 2 255 == 1 && gives (.fullerTimer 255) t (fun u => !u.fbit Fld.HQE_CQ_W2_ARMED 255 && u.fget Fld.HQEC_VECTORS_COUNT 0 == 1)) = true := by decide +kernel

/-! ### Microcode (chapter 11) -/

/-- Context 255 of lane 31 stands in a state at the first word of patch RAM, which is `ws`; its instance is 0. -/
def ucS (ws : List Word) (st : Nat := 1) (c : UcCtx := { UcCtx.init with bind := some (0, 0) }) : State :=
  { (R.setUcSt 255 st).setUcPc 255 0x4000 with ucPatch := mset [] [] 0 ws, uc := mset UcCtx.init [] 255 c }
/-- A word of a SEQOP with a target. -/
def mw (seqop target : Nat) (w1 : Word := 0) : List Word := [fieldAt seqop 56 ||| fieldAt target 34, w1, 0, 0]

/-- MicrowordsIssue: each SEQOP, an ADD to the last register, a ninth call, a bad word, a reserved one, another SEQOP's command. -/
theorem test_microwords : (let add : Word := fieldAt 1 58 ||| fieldAt 31 53 ||| fieldAt 31 48 ||| fieldAt 31 43
    let one (k : Nat) : UcCtx := { UcCtx.init with bind := some (0, 0), r := { UcRegs.init with cr := UcRegs.init.cr.set 31 (BitVec.ofNat 64 k), stack := [7] } }
    let deep : UcCtx := { UcCtx.init with r := { UcRegs.init with stack := [1, 2, 3, 4, 5, 6, 7, 8] } }
    let m : Micro := ⟨fieldAt 3 56, 0, 0, 0⟩
    (ucS (mw 0 0)).ucTurn 31 == some 255 && !(ucS (mw 0 0)).ucBreak 255 && !m.illegal && !m.safept && m.uop == 0 && (R.ucTurn 31).isNone &&
    gives (.ucNext 31 .clean) (ucS (mw 0 0 add) 1 (one 3)) (fun u => (u.ucCtx 255).r.get 31 == 6 && u.ucPc 255 == 0x4001) &&
    gives (.ucJump 31 .clean) (ucS (mw 1 0x7FFF)) (fun u => u.ucPc 255 == 0x7FFF) && gives (.ucBranch 31 .clean) (ucS (mw 2 9)) (fun u => u.ucSt 255 == 1) &&
    gives (.ucCall 31 .clean) (ucS (mw 3 9)) (fun u => u.ucPc 255 == 9 && (u.ucCtx 255).r.stack == [0x4001]) &&
    gives (.ucReturn 31 .clean) (ucS (mw 4 9) 1 (one 0)) (fun u => u.ucPc 255 == 7 && (u.ucCtx 255).r.stack == []) &&
    gives (.ucWait 31 .clean) (ucS (mw 6 9)) (fun u => u.ucSt 255 == 2) && gives (.ucEnd 31 .clean) (ucS (mw 7 9)) (fun u => u.ucSt 255 == 0 && u.uc == []) &&
    gives (.ucDispatch 31 .clean) (ucS [fieldAt 5 56 ||| fieldAt 9 34 ||| fieldAt 1 30, 0, 0, 0]) (fun u => u.ucPc 255 == 9) &&
    gives (.ucCall 31 .clean) (ucS (mw 3 9) 1 deep) (fun u => u.ucSt 255 == 4) && gives (.ucNext 31 .both) (ucS (mw 0 0)) (fun u => u.ucSt 255 == 4) &&
    gives (.ucNext 31 .clean) (ucS [1, 0, 0, 0]) (fun u => u.ucSt 255 == 4 && mget false u.latch 531) &&
    gives (.ucJump 31 .clean) (ucS (mw 0 0)) (fun u => u.regs == (ucS (mw 0 0)).regs)) = true := by decide +kernel
/-- PATCH_STATUS at a value: what it reads as at reset holds the ROM's identity, which the model leaves open. -/
def patchAt (v : Word) : State := { R with regs := [(Reg.HQE_PATCH_STATUS.key 0, v)] }
def noPatch : State := patchAt 0
/-- MicrocodeControl. -/
theorem test_microcode_control : (gives (.ucWaitEvent 255) (ucS (mw 0 0) 2) (fun u => u.ucSt 255 == 1 && u.ucPc 255 == 0x4001) &&
    gives (.ucResume 255) (ucS (mw 0 0) 3) (fun u => u.ucSt 255 == 1) && gives (.ucRollfwd 255) (ucS (mw 0 0) 3) (fun u => u.fbit Fld.HQE_UC_CTX_STATUS_ROLLFWD_ACTIVE 255) &&
    gives (.ucRestart 255) ((ucS (mw 0 0) 4).fset Fld.HQE_UC_CTX_STATUS_RESTARTS 255 2) (fun u => u.ucSt 255 == 1 && u.fget Fld.HQE_UC_CTX_STATUS_RESTARTS 255 == 3 &&
      gives (.ucRestart 255) (u.setUcSt 255 4) (fun v => v.ucSt 255 == 4)) &&
    !noPatch.fbit Fld.HQE_PATCH_STATUS_BUSY 0 && (List.range 256).all (fun x => noPatch.ucSt x == 0) && !noPatch.fbit Fld.HQE_MODE_STARTED 0 &&
    (let p := noPatch.fset Fld.HQE_MODE_STARTED 0 1; !p.fbit Fld.HQE_PATCH_STATUS_BUSY 0 && p.fbit Fld.HQE_MODE_STARTED 0) &&
    (let p := ddrS (patchAt (fieldAt 1 63))
     p.fbit Fld.HQE_PATCH_STATUS_BUSY 0 && (p.ddrRead (p.fget Fld.HQE_PATCH_LOAD_ADDR 0) (p.fget Fld.HQE_PATCH_STATUS_LEN 0)).1 == some [] && (patchCheck [] matches .error 1)) &&
    gives (.regimeWrite 2) noPatch (fun u => u.fget Fld.HQE_MODE_REGIME 0 == 2) && gives (.regimeWrite 2) (noPatch.fset Fld.HQE_MODE_MODE_PENDING 0 1) (fun u => u.fget Fld.HQE_MODE_REGIME 0 == R.fget Fld.HQE_MODE_REGIME 0) &&
    (let d (st : Nat) := ((ucS (mw 0 0) st { UcCtx.init with prev := 1 }).fset Fld.HQE_MODE_REGIME 0 2).fset Fld.HQE_MODE_DEBUG_EN 0 1
     gives (.ucDbgHalt 31 (fieldAt 7 16)) R (fun u => u.fbit Fld.HQE_MODE_DBG_REFUSED 0) && gives (.ucDbgHalt 31 (fieldAt 7 16)) (d 1) (fun u => u.ucSt 255 == 5) &&
     gives (.ucDbgRun 31 (fieldAt 7 16)) (d 5) (fun u => u.ucSt 255 == 1) && gives (.ucDbgStep 31 (fieldAt 7 16) .clean) (d 5) (fun u => u.ucSt 255 == 5 && u.ucPc 255 == 0x4001))) = true := by
  decide +kernel
/-- A dispatched routine: lane 31 has idle contexts (which one is taken is a free value). -/
theorem test_uc_dispatch : ((4095 % 32 == 31) && R.ucSt 248 == 0) = true := by decide +kernel

/-! ### Instances and Capo (chapter 12) -/

/-- Instance 4,095 has a range and a tag quota; it stands in a state. -/
def inst (st : Nat) : State :=
  (((R.fset Fld.PCI_HB_RANGE_LO_VALID (ix2 16 4095 0) 1).fset Fld.PCI_TAG_QUOTA_MIN 4095 2).fset Fld.CAPO_INST_STATUS_STATE 4095 st)
/-- STATE, RESULT and the generation of instance 4,095. -/
def instBool (u : State) (st result gen : Nat) : Bool :=
  u.instState 4095 == st && u.fget Fld.CAPO_INST_STATUS_RESULT 4095 == result && u.gen 4095 == gen
/-- InstanceStates. -/
theorem test_instances : ((inst 0).createOk 4095 && !R.createOk 4095 && (inst 1).ucBound 4095 == [] && !(inst 2).oldWork 4095 && !(inst 3).startedJobs 4095 &&
    gives (.instanceCreate 4095) (inst 0) (fun u => instBool u 1 0 1) && gives (.instanceCreate 4095) R (fun u => u.fget Fld.CAPO_INST_STATUS_RESULT 4095 == 2) &&
    gives (.instanceReset 4095) (inst 0) (fun u => u.fget Fld.CAPO_INST_STATUS_RESULT 4095 == 1) && gives (.instanceDestroy 4095) (inst 1) (fun u => u.instState 4095 == 2 && mget false u.capoOff 4095 &&
      gives (.resetComplete 4095) u (fun v => v.instState 4095 == 0)) &&
    gives (.instanceReset 4095) (inst 1) (fun u => u.instState 4095 == 2 && u.gen 4095 == 1) && gives (.resetComplete 4095) (inst 2) (fun u => u.instState 4095 == 1 && mget false u.latch 532) &&
    gives (.instanceFreeze 4095) (inst 1) (fun u => instBool u 3 0 0) && gives (.freezeDrainDone 4095) (inst 3) (fun u => instBool u 4 0 0) &&
    gives (.freezeTimeout 4095) (inst 3) (fun u => instBool u 4 0 1) &&
    gives (.instanceUnfreeze 4095) ((inst 4).fset Fld.CAPO_INST_STATUS_SAVED 4095 1) (fun u => u.instState 4095 == 4) &&
    (let j : TxJob := ⟨3, 4095, 0, [], true⟩
     ({ inst 3 with txJobs := [(1, j)] }).startedJobs 4095 && gives (.freezeDrainDone 4095) { inst 3 with txJobs := [(1, j)] } (fun u => u.instState 4095 == 3))) = true := by
  decide +kernel

/-- The host read of the image of instance 4,095, with what came of it. -/
def imgRead (r : ReadRes) : HostRead := { id := 7, who := .image 4095, inst := pfOf 4095, gen := 0, ats := false, parts := [], res := some r }
/-- SaveRestoreAndLog. -/
theorem test_transfers : ((inst 4).saveCheck 4095 == 0 && ((inst 4).fset Fld.CAPO_XFER_STATUS_BUSY 0 1).saveCheck 4095 == 3 && (List.range 3).all (fun k => (inst 4).ringsOf k 4095 == []) &&
    gives (.instanceSave 4095) (inst 4) (fun u => u.instState 4095 == 5 && u.fbit Fld.CAPO_XFER_STATUS_BUSY 0 &&
      gives (.saveComplete 4095 {}) u (fun v => v.instState 4095 == 4 && v.fget Fld.CAPO_INST_STATUS_RESULT 4095 == 4)) &&
    gives (.instanceSave 4095) ((inst 4).fset Fld.CAPO_XFER_STATUS_BUSY 0 1) (fun u => u.fget Fld.CAPO_INST_STATUS_RESULT 4095 == 3) &&
    gives (.instanceRestore 4095) (inst 4) (fun u => u.instState 4095 == 6 && u.hreads.map (fun r => (r.who, r.inst)) == [(.image 4095, pfOf 4095)]) &&
    gives (.restoreComplete 4095 [] []) { (inst 6).fset Fld.CAPO_XFER_CFG_LEN 0 32 with hreads := [imgRead .fail] } (fun v =>
      v.instState 4095 == 4 && v.fget Fld.CAPO_INST_STATUS_RESULT 4095 == 10)) = true := by decide +kernel
/-- Context 7 is a transport key that seals (DIR = 0) or opens, READY, in an engine in service. -/
def mtkS (dir : Nat) (s : State) : State :=
  ({ s with keys := mset [] s.keys 7 (List.replicate 40 0x5A) }.fset Fld.CIP_CTX_W0_STATE 7 1).fset Fld.CIP_CTX_W0_ALG 7 2
    |>.fset Fld.CIP_CTX_W0_USE 7 3 |>.fset Fld.CIP_CTX_W0_DIR 7 dir |>.fset Fld.CIP_SELFTEST_READY 0 1 |>.fset Fld.CAPO_XFER_CFG_MTK_CTX 0 7
/-- VF instance `vf` of PF 0 stands in a state; PF 0 may write its first megabyte, and an image may have 64 KiB. -/
def xferS (dir st : Nat) : State :=
  ((((mtkS dir pfS).fset Fld.PCI_HB_RANGE_LO_VALID 0 1).fset Fld.PCI_HB_RANGE_LO_W 0 1).fset Fld.PCI_HB_RANGE_HI_LIMIT 0 255).fset
    Fld.CAPO_INST_STATUS_STATE vf st |>.fset Fld.CAPO_XFER_CFG_LEN 0 65536
/-- The header of an image of `n` sections and `len` bytes under Device Serial Number 7. -/
def hdr7 (n len : Nat) : List Byte :=
  wordBytesLE (fieldAt 0x4341504F 32 ||| fieldAt 1 16 ||| fieldAt n 0) ++ natLE 8 0 ++ natLE 8 len ++ natLE 8 7
/-- A section of an image under header `hdr`, by its TYPE, its invocation number and the bytes it holds sealed. -/
def sec7 (hdr : List Byte) (type n : Nat) (ct : List Byte) : List Byte :=
  let sh := wordBytesLE (fieldAt type 56 ||| fieldAt ct.length 0) ++ natLE 8 n
  let key : List Byte := List.replicate 40 0x5A
  sh ++ ct ++ gcmTag (key.take 32) ((key.drop 32).take 4 ++ natBE 8 n) (hdr ++ sh) ct
/-- An image of an instance that owns nothing: a ledger, and the end. -/
def img7 : List Byte := hdr7 2 6240 ++ sec7 (hdr7 2 6240) 4 1 (List.replicate 6144 0) ++ sec7 (hdr7 2 6240) 15 2 []
/-- The image has been read into an instance that stands in RESTORING. -/
def read7 (bs : List Byte) : State :=
  { xferS 1 6 with hreads := [{ id := 7, who := .image vf, inst := 0, gen := 0, ats := false, parts := [], res := some (.ok bs) }] }
/-- A save seals and writes its image, unless LEN is less than it has. -/
theorem test_save : gives (.saveComplete (Fin.ofNat 4096 vf) {}) (xferS 0 5) (fun u => u.instState vf == 4 &&
    u.fbit Fld.CAPO_INST_STATUS_SAVED vf && u.fget Fld.CAPO_INST_STATUS_RESULT vf == 0 && u.out.length == 52) = true := by decide +kernel
theorem test_save_small : gives (.saveComplete (Fin.ofNat 4096 vf) {}) ((xferS 0 5).fset Fld.CAPO_XFER_CFG_LEN 0 6559)
    (fun u => u.fget Fld.CAPO_INST_STATUS_RESULT vf == 4) = true := by decide +kernel
/-- A save that finds its transport key lost erases it, tells firmware, and ends with BAD_CTX; a lost state word gives full buckets and BURST
(Table 19-9). -/
theorem test_upsets : (let s := (((xferS 0 5).fset Fld.TM_POL_W0_CBS 1048575 5000).fset Fld.TM_POL_W1_EBS_PBS 1048575 6000).fset Fld.TM_NODE_W1_BURST 348159 9000
    let found : Upsets := ⟨[7], [.policer 1048575, .element 348159]⟩
    gives (.saveComplete (Fin.ofNat 4096 vf) found) s (fun u => u.fget Fld.CAPO_INST_STATUS_RESULT vf == 6 && u.ctxState 7 == 0 && u.key 7 == [] &&
      u.fget Fld.TM_POL_W2_TC 1048575 == 5000 && u.fget Fld.TM_POL_W2_TE_TP 1048575 == 6000 && u.tmTokens 348159 == 9000 &&
      u.fget Fld.SP_ERR_COUNT_COUNT 1 == 1 && u.fget Fld.SP_ERR_COUNT_COUNT 2 == 2) &&
    gives (.saveComplete (Fin.ofNat 4096 vf) found) (s.fset Fld.CAPO_INST_STATUS_STATE vf 4) (fun u => u.ctxState 7 == 1) &&
    gives (.restoreComplete (Fin.ofNat 4096 vf) [7] []) (read7 img7) (fun u => u.fget Fld.CAPO_INST_STATUS_RESULT vf == 6) &&
    ((s.fset Fld.TM_NODE_W0_VALID 348159 1).tmParent 348159).isSome) = true := by decide +kernel
/-- A sound image is restored, and one with a wrong tag, or of another kind, is refused. -/
theorem test_restore : gives (.restoreComplete (Fin.ofNat 4096 vf) [] []) (read7 img7)
    (fun u => u.instState vf == 4 && u.fget Fld.CAPO_INST_STATUS_RESULT vf == 0) = true := by decide +kernel
theorem test_restore_refused : (let bad := hdr7 1 64 ++ wordBytesLE (fieldAt 15 56) ++ natLE 8 1 ++ List.replicate 16 0
    gives (.restoreComplete (Fin.ofNat 4096 vf) [] []) (read7 bad) (fun u => u.instState vf == 4 && u.fget Fld.CAPO_INST_STATUS_RESULT vf == 7) &&
    gives (.restoreComplete (Fin.ofNat 4096 vf) [] []) (read7 (bad.set 4 0)) (fun u => u.fget Fld.CAPO_INST_STATUS_RESULT vf == 11)) = true := by decide +kernel
/-- A generation past 2^16, a freeze that keeps a started transmit job only, the end of a controller reset, and what the dark period drops. -/
theorem test_instances_more : (let j (h : Bool) : TxJob := ⟨3, 4095, 0, [], h⟩
    let keep := { inst 1 with txJobs := [(1, j false), (2, j true)] }
    let d := { (R.fset Fld.STO_CTRL_W0_NVME 4095 1) with dark := true }
    gives (.instanceReset 4095) { inst 1 with genCount := mset 0 [] 4095 65535 } (fun u => u.gen 4095 == 65536 && u.fget Fld.CAPO_INST_STATUS_GEN 4095 == 0) &&
    gives (.instanceFreeze 4095) keep (fun u => u.txJobs.map (fun x => x.2.tsReq || x.1 == 2) == [true]) &&
    (let rdy := { (inst 2).fset Fld.STO_CTRL_W1_RDY 4095 1 with ccReset := mset false [] 4095 true }
     gives (.resetComplete 4095) rdy (fun u => u.instState 4095 == 1 && !u.fbit Fld.STO_CTRL_W1_RDY 4095)) &&
    gives (.resetComplete 4095) { (inst 2).setUcSt 255 1 with uc := mset UcCtx.init [] 255 { UcCtx.init with bind := some (4095, 0) } } (fun u => u.instState 4095 == 2) &&
    gives (.filterClear 4095) ((inst 4).fset Fld.CAPO_INST_STATUS_SAVED 4095 1) (fun u => u.fget Fld.CAPO_INST_STATUS_RESULT 4095 == 1) &&
    gives (.mailboxGo 3 0) { R with dark := true } (fun u => u.fget Fld.PCIC_DARK_WRITES_COUNT 3 == 1) && d.nvmeOn 4095 &&
    gives (.nvmeCcWrite 4095 1) d (fun u => u.fget Fld.PCIC_DARK_WRITES_COUNT 3 == 1 && u.latch == d.latch) &&
    gives (.adminDoorbell 4095 true 1) d (fun u => u.fget Fld.PCIC_DARK_WRITES_COUNT 3 == 1)) = true := by decide +kernel
theorem test_mailbox_and_log : (gives (.mailboxGo 3 (fieldAt 7 32)) R (fun u => u.fbit Fld.PCI_MBX_CTL_BUSY 3 && u.fget Fld.PCI_MBX_CTL_SEQ 3 == 7 && mget false u.latch 523 &&
      gives (.mailboxGo 3 0) u (fun v => v.fbit Fld.PCI_MBX_CTL_REFUSED 3) && gives (.mailboxDone 3 (fieldAt 9 24)) u (fun v => !v.fbit Fld.PCI_MBX_CTL_BUSY 3 && v.fget Fld.PCI_MBX_CTL_RESULT 3 == 9)) &&
    gives (.hbRangeWrite 4095 15 true (BitVec.allOnes 64)) R (fun u => u.rd Reg.PCI_HB_RANGE_HI (ix2 16 4095 15) != 0) &&
    gives (.filterClear 4095) { R with logFilter := mset false [] (4095 * 2 ^ 52) true } (fun u => u.logFilter == []) &&
    gives (.logEnableWrite 4095 (fieldAt 1 31)) (inst 1) (fun u => u.fbit Fld.CAPO_INST_CTL_LOG_EN 4095) &&
    gives (.logConsumerRead 4095) { R with hreads := [{ id := 7, who := .pageLog 4095, inst := 0, gen := 0, ats := false, parts := [], res := some (.ok [5, 0, 0, 0, 0, 0, 0, 0]) }] }
      (fun u => mget 0 u.logCons 4095 == 5)) = true := by decide +kernel

/-! ### Storage (chapter 13) -/

/-- Instance 4,095 is a controller. -/
def nvmeS : State := R.fset Fld.STO_CTRL_W0_NVME 4095 1
def enS : State := nvmeS.fset Fld.STO_CTRL_W0_CC 4095 1
/-- NvmeController. -/
theorem test_controller : (nvmeS.nvmeOn 4095 && vfOf 4095 != 0 && !R.msixOpen 4095 0 && (enS.fget Fld.STO_CTRL_W0_CC 4095).testBit 0 && gives (.nvmeCcWrite 4095 1) nvmeS (fun u => mget false u.latch 533 && u.fget Fld.STO_CTRL_W0_CC 4095 == 1) &&
    gives (.nvmePersonalityWrite 4095 true) R (fun u => u.nvmeOn 4095) && gives (.nvmePersonalityWrite 0 true) R (fun u => !u.nvmeOn 0) &&
    gives (.nvmeCcWrite 4095 0) (enS.fset Fld.CAPO_INST_STATUS_STATE 4095 1) (fun u => u.instState 4095 == 2 && u.gen 4095 == 1) &&
    gives (.nvmeAdminCfgWrite 4095 0 7) nvmeS (fun u => u.fget Fld.STO_CTRL_W2_AQA 4095 == 7) && gives (.nvmeAdminCfgWrite 4095 2 7) enS (fun u => u.fget Fld.STOC_CFG_REFUSED_COUNT 0 == 1) &&
    gives (.adminDoorbell 4095 false 9) nvmeS (fun u => u.fget Fld.STO_CTRL_W5_ASQ_TAIL 4095 == 9) && gives (.adminDoorbell 4095 true 9) nvmeS (fun u => u.fget Fld.STO_CTRL_W5_ACQ_HEAD 4095 == 9) &&
    gives (.nvmeIoDoorbell 4095 65 false 9) nvmeS (fun u => u.fget Fld.HQEC_DB_UNMAPPED_COUNT 0 == 1 && mget false u.latch 533) &&
    gives (.nvmeIoDoorbell 4095 64 false 9) nvmeS (fun u => u.regs == (after (.sqRqDoorbell 4095 false 63 9) nvmeS).regs) &&
    gives (.admIrq 4095) nvmeS (fun u => mget false u.msixPba (4095 * 2048))) = true := by decide +kernel
theorem test_namespace : (let el := 65535
    let v := R.fset Fld.STO_NS_W0_VALID el 1
    gives (.namespaceWrite 4095 15 1 9) v (fun u => u.fget Fld.STOC_CFG_REFUSED_COUNT 0 == 1) && gives (.namespaceWrite 4095 15 0 0) v (fun u => !u.fbit Fld.STO_NS_W0_VALID el) &&
    gives (.namespaceWrite 4095 15 1 9) R (fun u => u.rd (nsReg 1) el == 9) && !R.nsConnsOk 4095 el (fieldAt 1 63) &&
    gives (.namespaceWrite 4095 15 0 (fieldAt 1 63)) R (fun u => u.fget Fld.STOC_CFG_REFUSED_COUNT 0 == 1 && !u.fbit Fld.STO_NS_W0_VALID el)) = true := by decide +kernel

/-- A command of an opcode on SQ 3 of instance 0, on namespace 1 of 8 blocks of 4 KiB behind connection 9, of one block from LBA 7. -/
def cmd (op : Nat) (st : StoStage := .fetched) : StoCmd :=
  { n := 3, inst := 0, gen := 0, ent := ⟨0, [fieldAt op 0 ||| fieldAt 1 32, 0, 0, 0x1000, 0, if op == 9 || op == 0 then 0 else 7, 0, 0]⟩,
    ns := [fieldAt 1 63 ||| fieldAt 1 60, 8, 0, 0], conn := 9, slot := none, pages := [], prps := [], list := none, data := [], digestBad := false, dataBad := false,
    waited := false, stage := st, detached := false }
/-- SQ 3 is ACTIVE, and connection 9 is in a state with 4 MiB of staging. -/
def stoS (c : StoCmd) (conn : Nat := 2) : State :=
  { (((R.fset (rState 0) 3 1).fset Fld.STO_CONN_W0_STATE 9 conn).fset Fld.STO_CONN_W7_STAGE_CAP 9 4194303) with stoCmds := [(1, c)] }
/-- NvmeCommands. -/
theorem test_commands : ([0, 1, 2, 8, 9].all (fun op => (R.nvmeCheck (cmd op)).isNone) &&
    (R.nvmeCheck { cmd 2 with ns := [0, 8, 0, 0] }) == some (0, 0x0B, true) && (R.nvmeCheck { cmd 2 with ns := [fieldAt 1 63, 7, 0, 0] }) == some (0, 0x80, true) &&
    (stoS (cmd 2)).connSt 9 == 2 && (stoS (cmd 2)).connCmds 9 == [] && (stoS (cmd 2)).ringSt 0 3 == 1 && (cmd 1).len == 4096 &&
    gives (.nvmeRead 3) (stoS (cmd 1)) (fun u => u.stoCmds == (stoS (cmd 1)).stoCmds) && gives (.nvmeRead 3) (stoS { cmd 2 with ns := [0, 8, 0, 0] }) (fun u => u.stoCmds == []) &&
    gives (.nvmeRead 3) (stoS (cmd 2) 1) (fun u => u.stoCmds.map (fun c => c.2.stage) == [.waiting])) = true := by decide +kernel
theorem test_staging : (let s (r : ReadRes) (conn : Nat) := { stoS { cmd 1 .reading with prps := [(0x1000, 4)], pages := [0], slot := some 0 } conn with
      hreads := [{ id := 7, who := .storage 1 0, inst := 0, gen := 0, ats := false, parts := [], res := some r }] }
    ((s (.ok [1, 2, 3, 4]) 2).takeRead (.storage 1 0)).isSome && !(cmd 1).xts &&
    gives (.stagingDone 1) (s (.ok [1, 2, 3, 4]) 1) (fun u => u.stoCmds.map (fun c => c.2.stage) == [.staged]) &&
    gives (.stagingDone 1) (s (.ok [1, 2, 3, 4]) 2) (fun u => u.stoCmds.map (fun c => c.2.stage) == [.sent] && (u.connX 9).snd != []) &&
    gives (.stagingDone 1) (s .fail 2) (fun u => u.stoCmds == [])) = true := by decide +kernel

/-- Connections: each state, the last element word that takes writes, timers and what stands behind an exception. -/
theorem test_connections : (let c (st : Nat) := (R.fset Fld.STO_CONN_W0_STATE 9 st)
    let sending := ((c 2).setConnX 9 { ConnX.init with snd := [⟨[1, 2, 3], none⟩], ackDue := true })
    let flying := (sending.fset Fld.STO_CONN_W8_SND_NXT 9 2)
    gives (.connSetup 9 0) (c 0) (fun u => u.connSt 9 == 1) && gives (.connSetup 9 0) (c 3) (fun u => u.connSt 9 == 1) && gives (.connLive 9 0) (c 1) (fun u => u.connSt 9 == 2) &&
    gives (.connIdle 9 0) (c 2) (fun u => u.connSt 9 == 0) && gives (.connIdle 9 0) { c 2 with stoCmds := [(1, cmd 2 .sent)] } (fun u => u.fget Fld.STOC_CFG_REFUSED_COUNT 0 == 1) &&
    gives (.connIdle 9 0) (c 3) (fun u => u.connSt 9 == 0) && gives (.connElementWrite 9 13 7) (c 0) (fun u => u.regs == (c 0).regs) &&
    gives (.connElementWrite 9 12 (BitVec.allOnes 64)) (c 0) (fun u => u.rd (connReg 12) 9 != 0) && gives (.connElementWrite 9 12 7) (c 3) (fun u => u.fget Fld.STOC_CFG_REFUSED_COUNT 0 == 1) &&
    gives (.connLive 9 0) { (c 1).fset (rState 0) 3 1 with stoCmds := [(1, { cmd 2 .sent with slot := some 0 })] } (fun u => u.stoCmds.map (fun c => c.2.stage) == [.sent] && (u.connX 9).snd != []) &&
    gives (.reconnectExpiry 9) (c 3) (fun u => u.connCmds 9 == []) && gives (.segmentTransmit 9) (c 2) (fun u => u.regs == (c 2).regs) &&
    gives (.ackDelayTimer 9) sending (fun u => !(u.connX 9).ackDue) && gives (.ackDelayTimer 9) (c 2) (fun u => u.regs == (c 2).regs) && flying.flight 9 == 2 &&
    gives (.retransmitTimeout 9) flying (fun u => u.connSt 9 == 3 && u.fget Fld.STO_CONN_W13_CAUSE 9 == 3 && u.fget Fld.STO_CONN_W8_SND_NXT 9 == 0) &&
    gives (.retransmitTimeout 9) (flying.fset Fld.STO_CONN_W11_RTO_MAX 9 2) (fun u => u.connSt 9 == 2 && u.fget Fld.STO_CONN_W13_RTO_COUNT 9 == 1) &&
    gives (.excTimeout 9) ((c 2).setConnX 9 { ConnX.init with exc := true }) (fun u => u.connSt 9 == 3 && u.fget Fld.STO_CONN_W13_CAUSE 9 == 7)) = true := by decide +kernel
theorem test_exceptions : (let c (st : Nat) (m : Msg) := unitS 0x8003 m ((R.fset Fld.STO_CONN_W0_STATE 9 st).setConnX 9 { ConnX.init with exc := true })
    let m (op : Nat) : Msg := { src := 7, words := [fieldAt op 56 ||| fieldAt 9 0, fieldAt 5 0] }
    gives (.excDone 0) (c 2 (m 1)) (fun u => !(u.connX 9).exc && u.fget Fld.STO_CONN_W10_CWND 9 == 5) && gives (.excRetransmit 0) (c 2 (m 3)) (fun u => !(u.connX 9).exc) &&
    gives (.excFail 0) (c 2 (m 0)) (fun u => u.connSt 9 == 3 && u.fget Fld.STO_CONN_W13_CAUSE 9 == 6) && gives (.excFail 0) (c 2 (m 4)) (fun u => u.connSt 9 == 3) &&
    gives (.excDone 0) (unitS 0x8003 (m 1)) (fun u => u.fget Fld.STOC_RET_STRAY_COUNT 0 == 1) &&
    gives (.commandDetach 0) { stoS (cmd 2 .sent) with stoCmds := [(1, { cmd 2 .sent with gen := 1 })] } (fun u => u.stoCmds.map (fun c => c.2.detached) == [true])) = true := by decide +kernel

/-! ### Bow (chapter 14) -/

/-- Channel 511 stands in a state with PENDING, in chain mode or not. -/
def bowS (st p : Nat) (chain : Bool := false) (s : State := R) : State :=
  (((s.fset Fld.BOW_CH_STATUS_STATE 511 st).fset Fld.BOW_CH_STATUS_PENDING 511 p).fset Fld.BOW_CH_CFG_MODE 511 (b2n chain)).fset Fld.BOW_CH_CFG_RETRY 511 1
/-- BowChannelsAndQueues. -/
theorem test_bow_channels : (!(bowS 0 0).bowChain 511 && (bowS 0 0 true).bowChain 511 && [0, 1, 2, 3, 4, 5, 6].all (fun n => (bowS n 0).bowSt 511 == n) &&
    gives (.bowEnable 511) (bowS 0 9) (fun u => u.bowSt 511 == 1 && u.fget Fld.BOW_CH_STATUS_PENDING 511 == 0) &&
    gives (.bowEnable 511) (bowS 6 0) (fun u => u.bowSt 511 == 6 && u.fbit Fld.BOW_CH_STATUS_ENABLE_REFUSED 511) &&
    gives (.bowEnable 511) (bowS 3 9) (fun u => u.regs == (bowS 3 9).regs) && 
    gives (.bowDisable 511) (bowS 0 9) (fun u => u.bowSt 511 == 0) && !(bowS 6 0).bowReadsOut 511 && gives (.bowDisableDone 511) (bowS 6 0) (fun u => u.bowSt 511 == 0) &&
    (let o := { bowS 6 0 with cueReads := [⟨0, 511, 0, .waiting⟩] }; o.bowReadsOut 511 && gives (.bowDisableDone 511) o (fun u => u.bowSt 511 == 6)) &&
    gives (.bowStart 511) (bowS 0 0) (fun u => u.fget Fld.BOWC_TRIG_DROPPED_COUNT 0 == 1) && gives (.bowStart 511) (bowS 4 255) (fun u => u.fget Fld.BOWC_TRIG_LOST_COUNT 0 == 1) &&
    gives (.bowStart 511) (bowS 1 254) (fun u => u.fget Fld.BOW_CH_STATUS_PENDING 511 == 255) && gives (.bowArm 511) (bowS 0 0) (fun u => u.bowArmed 511 &&
      gives (.bowShadowWrite 511 3 7) u (fun v => v.fbit Fld.BOW_CH_STATUS_SHADOW_BUSY 511 && v.rd (bowShadow 3) 511 == 0) && gives (.bowDisarm 511) u (fun v => !v.bowArmed 511)) &&
    gives (.bowArm 511) (bowS 0 0 true) (fun u => !u.bowArmed 511) && gives (.bowShadowWrite 511 3 7) (bowS 0 0) (fun u => u.rd (bowShadow 3) 511 == 7) &&
    gives (.bowCfgWrite 511 (BitVec.allOnes 64)) (bowS 0 0) (fun u => u.bowChain 511) && gives (.bowCfgWrite 511 0) (bowS 1 0) (fun u => u.fget Fld.BOWC_CFG_REFUSED_COUNT 0 == 1)) = true := by
  decide +kernel
theorem test_bow_queues : (let t := (R.fset Fld.BOW_TIMER_EN 63 1).fset Fld.BOW_TIMER_ONESHOT 63 1
    let q := (R.fset Fld.BOW_CQ_CFG_EN 15 1).fset Fld.BOW_CQ_IDX_TAIL 15 9
    gives (.bowTimerWrite 63 (BitVec.allOnes 64)) R (fun u => u.fbit Fld.BOW_TIMER_EN 63) && gives (.bowTimerFire 63) R (fun u => u.regs == []) &&
    (let c := ((bowS 1 0 false t).fset Fld.BOW_CH_CFG_TRIG_SRC 511 1).fset Fld.BOW_CH_CFG_TRIG_SEL 511 63
     c.bowSelected 1 63 == [511] && gives (.bowTimerFire 63) c (fun u => u.fget Fld.BOW_CH_STATUS_PENDING 511 == 1 && !u.fbit Fld.BOW_TIMER_EN 63)) &&
    gives (.bowCqCfgWrite 15 (BitVec.allOnes 64)) q (fun u => u.fbit Fld.BOW_CQ_CFG_EN 15 && u.fget Fld.BOW_CQ_CFG_LOG2SIZE 15 == q.fget Fld.BOW_CQ_CFG_LOG2SIZE 15) &&
    gives (.bowCqCfgWrite 15 (fieldAt 1 63 ||| fieldAt 6 54)) (R.fset Fld.BOW_CQ_IDX_TAIL 15 9) (fun u => u.fbit Fld.BOW_CQ_CFG_EN 15 && u.fget Fld.BOW_CQ_IDX_TAIL 15 == 0) &&
    gives (.bowCqCfgWrite 15 (fieldAt 1 63 ||| fieldAt 5 54)) (R.fset Fld.BOW_CQ_IDX_TAIL 15 9) (fun u => !u.fbit Fld.BOW_CQ_CFG_EN 15 && u.fget Fld.BOW_CQ_IDX_TAIL 15 == 9) &&
    gives (.bowCqHeadWrite 15 10) q (fun u => u.fbit Fld.BOW_CQ_IDX_HEAD_REFUSED 15) && gives (.bowCqHeadWrite 15 9) q (fun u => u.fget Fld.BOW_CQ_IDX_HEAD 15 == 9)) = true := by
  decide +kernel

/-- A fill of `n` bytes of 0x11 to DDR5 at 48, of a kind and flags. -/
def fill (n : Nat) (top : Word := 0) : List Word := [fieldAt 1 56 ||| top, 0x1111111111111111, 48, fieldAt n 32]
def blk (ws : List Word) : BowBlk := ⟨0, ws, 0, 0, 0, 0, 0, [], 0, 0, none, none⟩
/-- Channel 511 runs a block, or waits for a fetch, with DDR5. -/
def bowR (x : BowX) (chain : Bool := false) : State := (bowS 2 0 chain (ddrS)).setBowX 511 x
/-- An ended block that raises an interrupt, and one that makes a record. -/
def ended (top : Word) (stalled : Bool := false) : BowEnd := ⟨0, fill 16 (fieldAt 1 62 ||| top), 0, 0, 0, 0, 16, 0, false, stalled⟩
/-- BowBlocks. -/
theorem test_bow_triggers : (let act (ws : List Word) := ((bowS 1 3 false ddrS).fset Fld.BOW_CH_STATUS_ACTIVE_VALID 511 1).setBowActive 511 ws
    !R.dark && gives (.bowTriggerConsume 511) (bowS 1 3 true) (fun u => u.bowSt 511 == 2 && (u.bowX 511).fetch.isSome && u.fget Fld.BOW_CH_STATUS_PENDING 511 == 2) &&
    gives (.bowTriggerConsume 511) (bowS 1 3) (fun u => u.bowSt 511 == 1 && u.fget Fld.BOWC_TRIG_DROPPED_COUNT 0 == 1) &&
    (act (fill 16)).bowActiveWords 511 == fill 16 && blkBad (fill 0) false && gives (.bowTriggerConsume 511) (act (fill 0)) (fun u => u.bowSt 511 == 5 && u.fget Fld.BOW_CH_STATUS_ERR 511 == 3) &&
    !blkBad (fill 16) false && !blkFence (fill 16) && gives (.bowTriggerConsume 511) (act (fill 16)) (fun u => u.bowSt 511 == 2 && (u.bowX 511).blk.isSome)) = true := by decide +kernel
theorem test_bow_blocks : (let f : BowFetch := ⟨64, 0, false, 0⟩
    let x0 := { BowX.init with fetch := some f }
    let no : BowFetch := ⟨2 ^ 47, 0, false, 1⟩
    (bowR x0).bowFetched f == some [0, 0, 0, 0] && !blkEnd [0, 0, 0, 0] && (bowR x0).fget Fld.BOW_CH_CHAIN_TAP_TAP 511 == 0 &&
    gives (.bowDescArrive 511) (bowR { x0 with blk := some (blk (fill 16)) }) (fun u => (u.bowX 511).next.isSome && (u.bowX 511).fetch.isNone) &&
    (let m := (bowR x0 true).memStore 64 ((fill 16).map wordBytesLE).flatten
     m.bowFetched f == some (fill 16) && !blkBad (fill 16) true && gives (.bowDescArrive 511) m (fun u => (u.bowX 511).blk.isSome && u.bowSt 511 == 2)) &&
    (let r := bowR { BowX.init with blk := some (blk (fill 16)) }
     (r.bowRun 511 (blk (fill 16))).2.2 == .fin && r.region 48 == .ddr && r.bowEnabled == [511] && (r.bowX 511).late == [] && gives (.bowBlockEnd 511) r (fun u => u.bowSt 511 == 1 && u.memByte 63 == 0x11 && u.memByte 64 == 0 &&
       (u.bowX 511).ended.map (fun e => e.status) == [0])) &&
    (let b := { blk ((fill 16).set 3 (fieldAt 16 32 ||| fieldAt 1 30)) with gen := 1 }
     let r := bowR { BowX.init with blk := some b }
     (r.bowRun 511 b).2.2 == .orphan && gives (.bowBlockEnd 511) r (fun u => (u.bowX 511).ended.map (fun e => e.status) == [2])) &&
    (let b := blk [fieldAt 0 56, 0, 48, fieldAt 16 32 ||| fieldAt 1 31]
     ((bowR { BowX.init with blk := some b }).bowRun 511 b).2.2 == .wait) &&
    (let b := { blk ((fill 16).set 2 (fieldAt 1 47)) with tries := 1 }
     let r := bowR { BowX.init with blk := some b }
     (r.bowRun 511 b).2.2 == .failWrite && r.bowRetry 511 == 1 && gives (.bowAccessFail 511) r (fun u => u.bowSt 511 == 5 && u.fget Fld.BOW_CH_STATUS_ERR 511 == 1 && mget false u.latch 535)) &&
    (bowR x0).bowFetched no == none && gives (.bowAccessFail 511) (bowR { x0 with fetch := some { no with tries := 0 } }) (fun u => u.fget Fld.BOWC_RETRIES_COUNT 0 == 1) &&
    gives (.bowAccessFail 511) (bowR { x0 with fetch := some no }) (fun u => u.bowSt 511 == 5 && u.fget Fld.BOW_CH_STATUS_ERR 511 == 4)) = true := by decide +kernel
theorem test_bow_completion : (let s (e : BowEnd) := (bowR { BowX.init with ended := [e], back := some 2 }).fset Fld.BOW_CQ_CFG_LOG2SIZE 0 6
    let q (e : BowEnd) := (s e).fset Fld.BOW_CQ_CFG_EN 0 1
    !(s (ended 0)).bowWritesOut 511 0 && !(s (ended 0)).blkOrphan (ended 0).words 0 && (s (ended 0)).bowSelected 2 511 == [] &&
    gives (.bowBlockComplete 511) (s (ended 0)) (fun u => (u.bowX 511).ended == [] && u.fget Fld.BOWC_BLOCKS_COUNT 0 == 1 && mget false u.latch 511) &&
    (let rec_ := fieldAt 1 61
     (q (ended rec_)).bowCqRoom 0 && gives (.bowBlockComplete 511) (q (ended rec_)) (fun u => u.fget Fld.BOW_CQ_IDX_TAIL 0 == 1) &&
     (let full (e : BowEnd) := (q e).fset Fld.BOW_CQ_IDX_TAIL 0 64
      !(full (ended rec_)).bowCqRoom 0 && gives (.bowBlockComplete 511) (full (ended rec_)) (fun u => u.bowSt 511 == 3 && u.fget Fld.BOWC_CQ_STALL_COUNT 0 == 1)) &&
     gives (.bowCqRoom 511) (q (ended rec_ true)) (fun u => u.bowSt 511 == 2 && u.fget Fld.BOW_CQ_IDX_TAIL 0 == 1))) = true := by decide +kernel

/-! ### The interrupt controller (chapter 15) -/

/-- A source is pending, enabled, at a PRIO, for core 15. -/
def pend (i prio : Nat) (s : State := R) : State :=
  (((s.fset Fld.ICU_SRC_STATE_PENDING i 1).fset Fld.ICU_SRC_CFG_EN i 1).fset Fld.ICU_SRC_CFG_PRIO i prio).fset Fld.ICU_SRC_CFG_TARGET i 15
/-- InterruptsAreServedInOrder. -/
theorem test_interrupt_sources : (let asleep := (R.fset Fld.PWR_DOM_STATUS_DEPTH 21 1).fset Fld.ICU_SRC_CFG_TARGET 539 15
    gives (.interruptEdge 539) R (fun u => mget false u.latch 539) && gives (.interruptEdge 540) R (fun u => u.latch == []) && gives (.interruptEdge 2047) R (fun u => u.fbit Fld.ICU_SRC_STATE_PENDING 2047) &&
    gives (.edgeToPending 539) { R with latch := [(539, true)] } (fun u => u.fbit Fld.ICU_SRC_STATE_PENDING 539 && u.latch == []) && gives (.edgeToPending 539) R (fun u => u.regs == []) &&
    gives (.icuSet 1024) R (fun u => u.fbit Fld.ICU_SRC_STATE_PENDING 1024) && gives (.icuSet 1023) R (fun u => u.regs == []) && (let s := pend 539 1; gives (.icuSet 539) s (fun u => u == s)) &&
    (let s := R.fset Fld.PWR_DOM_STATUS_DEPTH 32 1
     gives (.edgeToPending 539) { s with latch := [(539, true)] } (fun u => u.phase 32 == 3)) &&
    asleep.icuTarget 539 == 15 && !asleep.coreAwake 15 && gives (.icuSet 539) asleep (fun u => mget 0 u.icuHold 539 == 1 &&
      gives (.redirectHoldExpiry 539) u (fun v => mget 0 v.icuHold 539 == 2 && v.fget Fld.ICUC_REDIRECTS_COUNT 0 == 1)) &&
    gives (.icuSet 539) (asleep.fset Fld.ICU_SRC_CFG_WAKE_EN 539 1) (fun u => mget false u.wakeReq 21) &&
    gives (.icuPendingClear 539) (pend 539 1) (fun u => !u.fbit Fld.ICU_SRC_STATE_PENDING 539) && gives (.redirectHoldExpiry 539) R (fun u => u.regs == []) &&
    gives (.icuSrcCfgWrite 2031 (BitVec.allOnes 64)) R (fun u => u.fbit Fld.ICU_SRC_CFG_EN 2031) && gives (.icuSrcCfgWrite 2032 (BitVec.allOnes 64)) R (fun u => u.regs == [])) = true := by decide +kernel
theorem test_interrupt_claims : (let s := pend 2031 1 (pend 9 2)
    s.icuBest 15 == some 2031 && s.icuDeliverable 9 15 && R.icuBest 15 == none &&
    gives (.icuClaim 0xE000 15) s (fun u => u.out == [.readAnswer 0xE000 (fieldAt 1 31)] && u.fget Fld.ICUC_SPURIOUS_COUNT 0 == 1 &&
      u.icuBest 15 == some 2031) && gives (.icuClaim 0xE00F 15) R (fun u => u.fget Fld.ICUC_SPURIOUS_COUNT 0 == 1) &&
    gives (.icuClaim 0xE00F 15) s (fun u => u.out == [.readAnswer 0xE00F (claimWord 2031 1)] && u.icuStackOf 15 == [(1, 2031)] &&
      gives (.icuEoi 0xE00F 15 2031) u (fun v => v.icuStackOf 15 == [] && !v.fbit Fld.ICU_SRC_STATE_ACTIVE 2031) &&
      gives (.icuEoi 0xE00F 15 9) u (fun v => v.icuStackOf 15 == [(1, 2031)] && v.fget Fld.ICU_CORE_STATUS_PSF_EOI 15 == 9 && v.fbit Fld.ICU_SRC_STATE_PENDING 2047) &&
      gives (.icuEoi 0xE000 15 2031) u (fun v => v.icuStackOf 15 == [(1, 2031)])) &&
    gives (.icuClaim 0xE00F 15) (after (.interruptEdge 2047) R) (fun u => u.icuStackOf 15 == [] && !u.fbit Fld.ICU_SRC_STATE_PENDING 2047)) = true := by decide +kernel

/-! ### Power (chapter 16) -/

/-- Domain 14 (CORE0), whose cores wait in idle, stands in a phase and a depth, with a target. -/
def domS (phase depth target : Nat) : State :=
  { ((R.fset Fld.PWR_DOM_STATUS_PHASE 14 phase).fset Fld.PWR_DOM_STATUS_DEPTH 14 depth).fset Fld.PWR_DOM_CFG_MAX_DEPTH 14 3 with
    pwrTarget := mset 0 [] 14 target, cores := [0, 1].map fun k => (k, { Core.init with running := true, idling := true }) }
/-- DomainDepths. -/
theorem test_domains : (
    let gov := ((domS 0 0 0).fset Fld.PWR_CFG_GOV_EN 0 1).fset Fld.PWR_DOM_CFG_AUTO 14 1
    (List.range 4).all (fun p => (domS p 1 2).phase 14 == p) && gov.domAllowed 14 == 3 && gives (.domainIdleEntry 14 4) gov (fun u => u.phase 14 == 1 && mget 0 u.pwrTarget 14 == 3) &&
    gives (.domainIdleEntry 14 0) gov (fun u => u.phase 14 == 0) && (domS 0 0 0).deepest 14 == 3 && (domS 0 0 0).domAllowed 14 == 3 &&
    gives (.domainRequest 14 4) (domS 0 0 0) (fun u => u.fget Fld.PWR_DOM_STATUS_LAST_RESULT 14 == 5 && mget false u.latch 538) && gives (.domainRequest 14 1) (domS 0 1 0) (fun u => u.fget Fld.PWR_DOM_STATUS_LAST_RESULT 14 == 1) &&
    (let d := (R.fset Fld.PWR_DOM_CFG_MAX_DEPTH 22 2); d.deepest 22 == 2 && d.domAllowed 22 == 0 && gives (.domainRequest 22 2) d (fun u => u.fget Fld.PWR_DOM_STATUS_LAST_RESULT 22 == 4)) &&
    gives (.domainRequest 14 3) (domS 0 1 0) (fun u => u.phase 14 == 1 && mget 0 u.pwrTarget 14 == 3 && mget false u.pwrByReq 14) && gives (.domainRequest 14 3) (domS 3 1 0) (fun u => u.phase 14 == 3) &&
    gives (.domainWakeWrite 14 0) (domS 1 0 2) (fun u => u.phase 14 == 0 && u.fget Fld.PWR_DOM_STATUS_LAST_RESULT 14 == 2) && gives (.domainWakeWrite 14 0) (domS 2 0 2) (fun u => u.phase 14 == 3 && mget false u.pwrRev 14) &&
    gives (.domainWakeWrite 14 0) (domS 0 2 2) (fun u => u.phase 14 == 3) && gives (.domainWake 14 (some 3)) (domS 0 2 2) (fun u => u.phase 14 == 0) &&
    gives (.domainWake 14 (some 2)) { (domS 0 2 2).fset Fld.PWR_DOM_CFG_WAKE_EN 14 4 with wakeReq := [(14, true)] } (fun u => u.phase 14 == 3) && gives (.domainWake 14 none) (domS 0 2 2) (fun u => u.phase 14 == 3) &&
    gives (.domainAck 14) (domS 1 0 2) (fun u => u.phase 14 == 2) && gives (.domainAck 14) (domS 0 0 2) (fun u => u.phase 14 == 0) &&
    gives (.depthReached 14) (domS 2 0 2) (fun u => u.depth 14 == 2 && u.fget Fld.PWR_DOM_STATUS_LAST_RESULT 14 == 1) && gives (.depthReached 14) (domS 3 0 2) (fun u => u.depth 14 == 0) &&
    gives (.wakeComplete 14 true) { domS 3 3 0 with pwrRev := [(14, true)] } (fun u => u.depth 14 == 0 && u.phase 14 == 0 && u.fget Fld.PWR_DOM_STATUS_LAST_RESULT 14 == 3 && u.fget Fld.PWRC_RESTORE_ERR_COUNT 0 == 1) &&
    gives (.wakeComplete 14 true) (domS 2 1 0) (fun u => u.phase 14 == 2)) = true := by decide +kernel

/-- A wake from depth 3 wakes the sleeping MEM0 (R361), one from depth 2 does not; a core issues only while its domain's clocks run. -/
theorem test_sleep : (
    let mem (d : Nat) := (domS 0 d 0).fset Fld.PWR_DOM_STATUS_DEPTH 30 2
    let core (d : Nat) := { domS 0 d 0 with cores := [(1, { Core.init with running := true })] }
    gives (.domainWakeWrite 14 0) (mem 3) (fun u => u.phase 14 == 3 && u.phase 30 == 3 && u.phase 31 == 0) &&
    gives (.domainWakeWrite 14 0) (mem 2) (fun u => u.phase 14 == 3 && u.phase 30 == 0) &&
    (core 0).canIssue (.core 1) && !(core 1).canIssue (.core 1)) = true := by decide +kernel

/-- Sixteen sensors at a temperature, in eighths of a degree. -/
def temps (t : Int) : Vector (BitVec 16) 16 := Vector.replicate 16 (BitVec.ofInt 16 t)
/-- Sensor offsets of zero, a TJ and no trip: the offsets' factory values are left open. -/
def tjS (tj : Int) : State :=
  ({ R with regs := (List.range 16).map fun k => (Reg.SP_TUNE.key (128 + k), 0) }).fset Fld.PWR_THERMAL_TJ 0 (BitVec.ofInt 16 tj).toNat
/-- LoadsAndTemperature. -/
theorem test_power : (gives (.loadWindow (List.replicate 34 9)) R (fun u => u.fget Fld.PWR_DOM_STATUS_LOAD 33 == 9) && gives (.budgetWrite (.inst 4095) (BitVec.allOnes 64)) R (fun u => u.rd Reg.PWR_INST_BUD 4095 != 0) &&
    gives (.budgetWrite (.dom 14) 0) (domS 0 2 0) (fun u => u.phase 14 == 3) && !(tjS 0).fbit Fld.SP_TAMPER_TRIP_HELD 0 && ((tjS 0).hottest (temps 919)).1 == 919 && ((tjS 0).hottest (temps 920)).1 == 920 &&
    ((tjS 0).hottest (temps (-361))).1 == -361 && (BitVec.ofNat 16 ((tjS (-361)).fget Fld.PWR_THERMAL_TJ 0)).toInt == -361 && nextLevel 0 800 == 1 && nextLevel 0 919 == 2 && nextLevel 2 800 == 1 && nextLevel 2 760 == 1 && nextLevel 1 760 == 0 &&
    gives (.thermalSample (temps 919)) (tjS 0) (fun u => u.fget Fld.PWR_THERMAL_LEVEL 0 == 2 && mget false u.latch 536) && gives (.thermalSample (temps (-361))) (tjS (-361)) (fun u => !u.keyless) &&
    gives (.telemetrySample 6 5 7) R (fun u => u.fget Fld.PWR_RAIL_MV 6 == 5 && u.fget Fld.PWR_TOTAL_MW 0 == 7)) = true := by decide +kernel
/-- A voltage step: where the regulator stands on the target, and from any other voltage some next one. -/
theorem test_avs (s : State) : { s with vddCore := s.avsTarget.1 }.vddCore = { s with vddCore := s.avsTarget.1 }.avsTarget.1 := rfl

/-! ### Boot, memory and Soundpost (chapters 17 to 20) -/

/-- No hold stands: Soundpost may boot. -/
def freeS : State := { R with hold := [], seqLeft := 0 }
/-- BootWarmAndClocks. -/
theorem test_boot : (!freeS.held_ && freeS.warm == 0 && freeS.fget Fld.SP_BOOT_STATUS_PHASE 0 == 0 && gives (.flashVerify .absent .unreadable true) { freeS with hold := [(1, true)] } (fun u => u.fget Fld.SP_BOOT_STATUS_PHASE 0 == 0) &&
    gives (.flashVerify .absent .unreadable false) freeS (fun u => u.keyless && u.fget Fld.SP_BOOT_STATUS_PHASE 0 == 4) && slotResult .absent == 1 && slotResult .unreadable == 6 &&
    gives (.flashVerify .absent .unreadable true) freeS (fun u => u.fget Fld.SP_BOOT_STATUS_PHASE 0 == 4 && u.fget Fld.SP_BOOT_STATUS_RESULT_B 0 == 6) &&
    gives (.coreRelease (fieldAt 1 63 ||| 64)) R (fun u => (mget Core.init u.cores 15).running && ((mget Core.init u.cores 15).a.pc == 64) && u.cores.length == 1) &&
    gives (.warmRestartRequest (fieldAt 0x5A 16)) R (fun u => u.fbit Fld.SP_WARM_CTL_REFUSED 0) && gives (.warmRestartRequest 0) R (fun u => u.warm == 0) &&
    gives (.warmRestartRequest (fieldAt 0x5A 16)) pfS (fun u => u.warm == 1 && u.dark && gives .warmDrainLimit u (fun v => v.warm == 2 && gives .warmEscalate v (fun w => w.warm == 0))) &&
    gives .warmDrainLimit { ucS (mw 0 0) with warm := 1 } (fun u => u.warm == 0) && gives .warmDrainLimit R (fun u => u.regs == []) &&
    pllSys .core == some 3 && gives (.pllLockLoss .core) R (fun u => mget false u.hold 23) && gives (.pllLockRegained .core) { R with hold := [(23, true)] } (fun u => u.hold == []) &&
    pllPort (.port 3) == some (3, 3) && (let up := R.fset Fld.PRT_MAC_STATUS_STATE 31 4; gives (.pllLockLoss (.lane 31)) up (fun u => u.linkSt 31 == 5 && mget false u.portPll 35)) &&
    gives (.pllLockLoss (.pcie 1)) pfS (fun u => u.regs != []) && R.fbit Fld.SP_APPROVED_ACTIVE 0 == false) = true := by decide +kernel
/-- SHA-384 of "abc" (FIPS 180-4's example), and twice the base point of P-384. -/
theorem test_p384 : (beNat (sha384 [0x61, 0x62, 0x63]) == 0xcb00753f45a35e8bb5a03d699ac65007272c32ab0eded1631a8b605a43ff5bed8086072ba1e7cc2358baeca134c825a7 &&
    (p384Add (some p384G) (some p384G)).map (·.1) == some 0x08d999057ba3d2d969260045c55b97f089025959a6f434d651d207d19fb96e9e4fe0e86ebe0e64f85b96a9c75295df61 &&
    ((p384Add (some p384G) (some p384G)).map onP384) == some true) = true := by decide +kernel
/-- An image passes every check where its key is enrolled, its SVN is not below the minimum and its signature is good: what is open is open. -/
theorem test_image (h1 : Config.svnMin 1 = 0) (h2 : Config.enrolled 0 = true)
    (h3 : signed 0 (imageBytes ([fieldAt 0x51424F54 32 ||| fieldAt 1 16 ||| 16, 0, 4096] ++ List.replicate 13 0) (List.replicate 4096 0)) [] = true) :
    slotResult (.image ([fieldAt 0x51424F54 32 ||| fieldAt 1 16 ||| 16, 0, 4096] ++ List.replicate 13 0) (List.replicate 4096 0) []) = 0 := by
  have hb : (List.replicate 4096 (0 : Byte)).length = 4096 := List.length_replicate
  generalize List.replicate 4096 (0 : Byte) = body at hb h3
  unfold slotResult
  simp_all +decide [bits]

/-- MemoryAndAliases. -/
theorem test_memory : (let ch (st : Nat) := R.fset Fld.MEM_CH_BOOT_STATE 7 st
    let on := ((ddrS).fset Fld.MEM_CFG_SCRUB_H 0 1)
    gives (.memTrain 7) R (fun u => u.fget Fld.MEM_CH_BOOT_STATE 7 == 1) && gives (.memTrain 7) (ch 1) (fun u => u.regs == (ch 1).regs) && gives (.memRestore 7) (ch 4) (fun u => u.fget Fld.MEM_CH_BOOT_STATE 7 == 2) &&
    gives (.memRestore 7) (ch 1) (fun u => u.regs == (ch 1).regs) && gives (.memTrainDone 7 none) (ch 1) (fun u => u.fget Fld.MEM_CH_BOOT_STATE 7 == 3) && gives (.memTrainDone 7 none) (ch 2) (fun u => u.regs == (ch 2).regs) &&
    (ch 2).maskOk 0x80 && !R.maskOk 0x80 && gives (.memCfgWrite (Fld.MEM_CFG_CH_MASK.ins 0 0x80)) R (fun u => u.fbit Fld.MEM_STATUS_CFG_REFUSED 0) &&
    gives (.memCfgWrite (Fld.MEM_CFG_CH_MASK.ins 0 0x80)) (ch 2) (fun u => u.fget Fld.MEM_CFG_CH_MASK 0 == 0x80) && gives .memLock R (fun u => u.fbit Fld.MEM_CFG_LOCK 0 &&
      gives (.memCfgWrite (Fld.MEM_CFG_CH_MASK.ins 0 0x80)) u (fun v => v.fget Fld.MEM_CFG_CH_MASK 0 == 0 && v.fbit Fld.MEM_STATUS_LOCKED_WRITE 0) &&
      gives (.secretRegionWrite 14 true 7) u (fun v => v.fbit Fld.MEM_STATUS_LOCKED_WRITE 0)) &&
    gives .l3ModeSwitch R (fun u => u.fbit Fld.MEM_L3_CTL_MODE 0 && gives .l3ModeSwitch u (fun v => v.regs == u.regs)) && gives (.scrubRead 9 .uncorrectable) R (fun u => u.regs == []) &&
    decide (64 * 9 < on.ddrCapacity) && on.depth 30 == 0 && !on.poisoned 576 64 && gives (.scrubRead 9 .clean) on (fun u => u.regs == on.regs) && gives (.scrubRead 9 .uncorrectable) on (fun u => u.poisoned 576 64) &&
    gives (.scrubRead 9 .clean) (after (.scrubRead 9 .uncorrectable) on) (fun u => u.fget Fld.MEMC_UNCORR_COUNT 0 == 2) &&
    gives (.scrubRead 9 .corrected) on (fun u => u.fget Fld.MEMC_SCRUB_FIX_COUNT 0 == 1)) = true := by decide +kernel
theorem test_aliases : (let a (A S x : Nat) : Nat := 0x030000000000 + A * 2 ^ 32 + S * 2 ^ 27 + x
    let s := R.fset Fld.PCI_READY_CFG 0 0
    s.region (a 0x5F 31 0) == .aliases && aliasArray 0x3F == none && gives (.aliasWrite 0xE000 (a 0x3F 16 0) 8 1) s (fun u => u.fbit Fld.MEM_STATUS_ALIAS_BAD 0) &&
    aliasArray 4 == some (Reg.BOW_TIMER.base, 8, 64) && gives (.aliasWrite 0xE000 (a 4 17 0) 8 1) s (fun u => u.fbit Fld.MEM_STATUS_ALIAS_BAD 0) &&
    gives (.aliasWrite 0xE000 (a 4 16 8) 8 1) s (fun u => u.fbit Fld.MEM_STATUS_ALIAS_BAD 0) && gives (.aliasWrite 0xE000 (a 4 16 0) 2 1) s (fun u => u.fbit Fld.MEM_STATUS_ALIAS_BAD 0) &&
    gives (.aliasWrite 0xE000 (a 4 15 0) 8 1) s (fun u => u.fbit Fld.MEM_STATUS_ALIAS_BAD 0) && gives (.aliasWrite 0xE000 (a 4 16 0) 8 (BitVec.allOnes 64)) s (fun u => u.fget Fld.MEMC_ALIAS_WRITES_COUNT 0 == 1 &&
      (List.range 64).all (fun k => u.fbit Fld.BOW_TIMER_EN k)) &&
    gives (.aliasRead 0xE000 (a 4 16 0) 8) s (fun u => u.out == [.readAnswer 0xE000 0] && u.fget Fld.MEMC_ALIAS_READS_COUNT 0 == 1)) = true := by decide +kernel

/-- The newest management response. -/
def resp (code : Nat) (u : State) : Bool := match u.out with | .mgmtResponse c _ :: _ => c == code | _ => false
/-- TEST_MODE is low, with CTRL_EN. -/
def mgS : State := pfS.fset Fld.SP_MGMT_CFG_CTRL_EN 0 1
/-- ManagementPort. -/
theorem test_management : (!mget false R.hold 1 && gives (.setEndpointId 0) R (resp 2) && gives (.setEndpointId 8) R (fun u => u.fget Fld.SP_MGMT_CFG_EID 0 == 8 && resp 0 u) && gives (.setTid 255) R (resp 2) &&
    gives (.setTid 8) R (fun u => u.tid == 8) && gives (.getPldmVersion 1) R (resp 0x83) && gives (.getPldmCommands 0x3E) R (resp 0x83) && gives (.readCrashLog 2047 30) R (resp 0) && gives (.readCrashLog 2048 1) R (resp 2) &&
    gives .clearCrashLog R (resp 0x80) && gives .clearCrashLog mgS (resp 0) && gives (.requestReset 0) mgS (fun u => u.warm == 1 && resp 0 u) && gives (.requestReset 0) (mgS.fset Fld.SP_WARM_CTL_IN_PROGRESS 0 1) (resp 0x81) &&
    gives (.requestReset 1) mgS (resp 0) && gives (.requestReset 2) mgS (resp 2) && gives (.forcePowerOff (BitVec.ofNat 34 (2 ^ 32))) mgS (resp 0x81) &&
    gives (.spdmRequest false [1]) R (fun u => u.spdmBox == [] && u.out.length == 1) && gives (.spdmRequest false [1]) (R.fset Fld.SP_BOOT_STATUS_PHASE 0 3) (fun u => u.spdmBox.length == 1 &&
      gives .spdmBusy u (fun v => v.spdmBox == [] && v.out.length == 1)) && gives .spdmBusy R (fun u => u.out == []) && gives .getTid { R with hold := [(1, true)] } (fun u => u.out == [])) = true := by decide +kernel

/-- TUNE items 144 to 151 with no user's offset: their factory values are left open. -/
def untuned : State := { R with regs := (List.range 8).map fun k => (Reg.SP_TUNE.key (144 + k), 0) }
/-- SoundpostGuards. -/
theorem test_guards : (let w := (R.fset Fld.SP_WDOG_EN 0 1).fset Fld.SP_WDOG_WARN_MS 0 5
    let act := w.fset Fld.SP_WDOG_ACTION 0 1
    gives .logClear R (fun u => u.fget Fld.SP_LOG_STATUS_HEAD 0 == 0) && gives (.wdogStart (fieldAt 9 32)) R (fun u => u.fbit Fld.SP_WDOG_EN 0) &&
    gives (.wdogKick 0xC3) w (fun u => u.wdogNs == u.ns) && gives (.wdogKick 0x11) act (fun u => u.fget Fld.SP_RESET_CAUSE_LAST 0 == 2) && !w.wdogHeld && gives .wdogWarning w (fun u => u.fbit Fld.SP_WDOG_STATUS_WARNED 0) &&
    gives .wdogBite act (fun u => u.fget Fld.SP_RESET_CAUSE_LAST 0 == 2) && gives .wdogBite ((pfS.fset Fld.SP_WDOG_EN 0 1)) (fun u => u.warm == 1) && gives .wdogBite R (fun u => u.regs == []) &&
    (let ap := R.fset Fld.SP_APPROVED_ACTIVE 0 1; gives (.jtagDbgToken []) ap (fun u => u.fget Fld.SP_DBG_RESULT 0 == 7) && gives .dbgTokenGo ap (fun u => u.fget Fld.SP_DBG_RESULT 0 == 7)) &&
    R.tokenResult [] == 2 && gives (.jtagDbgToken []) { R with chalValid := true } (fun u => u.fget Fld.SP_DBG_RESULT 0 == 2 && !u.chalValid) &&
    untuned.approvedReason == 4 && gives .approvedEnter untuned (fun u => u.fbit Fld.SP_APPROVED_REFUSED 0) &&
    (let ok := untuned.fset Fld.CIP_SELFTEST_READY 0 1; ok.approvedReason == 0 && gives .approvedEnter ok (fun u => u.fbit Fld.SP_APPROVED_ACTIVE 0)) &&
    R.jtagActs (.other 3) == .bypass && (R.fset Fld.SP_DBG_UNLOCKED 0 1).jtagActs (.other 3) == .other 3 && R.jtagActs .samplePreload == .samplePreload &&
    gives .diceSeal R (fun u => u.diceSealed) && gives (.rngRead 0xE000) { R with rngDead := true } (fun u => u.out == [.readAnswer 0xE000 0]) && gives .drbgReseed { R with drbgCount := 9 } (fun u => u.drbgCount == 0) &&
    gives (.entropySample false) R (fun u => u.rngDead && u.keyless) && gives .shieldBreach R (fun u => u.keyless) && gives (.testModePin true) R (fun u => mget false u.hold 1) && gives (.testModePin false) R (fun u => !mget false u.hold 1) &&
    gives (.supplyOutOfRange 6) { R with seqLeft := 4 } (fun u => u.regs == []) && gives (.supplyOutOfRange 6) freeS (fun u => mget false u.hold 16) && gives (.railReturns 6) { freeS with hold := [(16, true)] } (fun u => u.hold == []) &&
    gives .seqStage { R with seqLeft := 4 } (fun u => u.seqLeft == 3 && u.out == [.seqEn 0 true]) && gives .seqStage { R with seqLeft := 1 } (fun u => u.seqLeft == 0) && gives .seqStage freeS (fun u => u.seqLeft == 0) &&
    gives .seqFail { R with seqLeft := 2 } (fun u => u.seqLeft == 4)) = true := by decide +kernel

/-! ### The block as a whole -/

/-- EveryStepKeepsInv: a state that meets it, whose step answers a next state. -/
theorem reset_inv : R.Inv := ⟨⟨.nil, fun _ h => nomatch h⟩, fun _ h => nomatch h⟩
/-- StepRunsTheFrontCommand, and the three frames: a command of each list, with a next state. -/
theorem test_step : (gives (.extIntTaken 0) R (fun _ => true) && (match step { R with pending := [.memLock] } with | .next u => u.pending == [] && u.fbit Fld.MEM_CFG_LOCK 0 | _ => false) &&
    (match step R with | .next u => u.ns == R.ns + 1 | _ => false) && setsRegistersOnly .memLock && !mayStore .memLock && !mayChangeKeys .memLock && gives .memLock R (fun _ => true)) = true := by decide +kernel

/-! ### Well-formedness: each check, with a term at its bound that passes and one past it that is refused -/

theorem test_wf_operands : (Instr.wf (.registerWrite 0x10000 (2 ^ 48 - 1) 1 0) && !Instr.wf (.registerWrite 0x10001 0 8 0) && !Instr.wf (.registerWrite 0 (2 ^ 48) 8 0) && !Instr.wf (.registerWrite 0 0 3 0) &&
    !Instr.wf (.aliasWrite 0x10001 0 8 0) && !Instr.wf (.aliasWrite 0 (2 ^ 48) 8 0) && !Instr.wf (.aliasWrite 0 0 0 0) && !Instr.wf (.aliasRead 0x10001 0 8) && !Instr.wf (.aliasRead 0 (2 ^ 48) 8) && !Instr.wf (.aliasRead 0 0 16) &&
    [Instr.sendPortGo 0x10001 0 0 0, .sendPortAbort 0x10001 0, .sendDataWrite 0x10001 0 0 0, .klwClaim 0x10001 0, .klwRelease 0x10001, .klwDataWrite 0x10001 0 0, .klwLoad 0x10001 0, .klwUnwrap 0x10001 0 0,
      .klwErase 0x10001 0, .icuClaim 0x10001 0, .icuEoi 0x10001 0 0, .rngRead 0x10001].all (fun c => !c.wf) &&
    Instr.wf (.messageDelivered ⟨0x10038, false⟩) && !Instr.wf (.messageDelivered ⟨0x10039, false⟩) && !Instr.wf (.messageDelivered ⟨0x4000, false⟩) && !Instr.wf (.wordReserved 0x8800) && !Instr.wf (.unitMessageCommit 0x8003) &&
    Instr.wf (.holdWatchdogExpiry 0x3FFF) && !Instr.wf (.holdWatchdogExpiry 0x4000) && !Instr.wf (.holdWatchdogExpiry 0x18000) &&
    Instr.wf (.parseWalk (2 ^ 24 - 1)) && [Instr.parseWalk (2 ^ 24), .classify (2 ^ 24) true, .ddrFlowResult (2 ^ 24), .actionListApply (2 ^ 24), .tmEnqueue (2 ^ 24) true, .espOutbound (2 ^ 24), .espInbound (2 ^ 24),
      .rxFrame (2 ^ 24), .tcpSegment (2 ^ 24)].all (fun c => !c.wf) && !Instr.wf (.lateCheckFail (2 ^ 24) .ingressFcs)) = true := by decide +kernel
theorem test_wf_encodings : (Instr.wf (.illegalEncoding xt 0) && !Instr.wf (.illegalEncoding xt (BitVec.ofNat 32 (2 ^ 31))) && !Instr.wf (.illegalEncoding xt (BitVec.ofNat 32 (2 ^ 28))) &&
    !Instr.wf (.illegalEncoding xt (BitVec.ofNat 32 (0x01 * 2 ^ 22))) && Instr.wf (.illegalEncoding xt (BitVec.ofNat 32 (0x01 * 2 ^ 22 + 0x0E)))) = true := by decide +kernel
theorem test_wf_indices : (Instr.wf (.programMemoryWrite 0 (.bytes 0x7FFFF [0])) && !Instr.wf (.programMemoryWrite 0 (.bytes 0x80000 [0])) && Instr.wf (.parseMemoryWrite 0xFFFFF8 0) && !Instr.wf (.parseMemoryWrite 0x1000000 0) &&
    !Instr.wf (.parseMemoryWrite 4 0) && Instr.wf (.flowAgeVisit 131071) && !Instr.wf (.flowAgeVisit 131072) && !Instr.wf (.tableWindowWrite (2 ^ 48) [0]) && !Instr.wf (.tableWindowWrite 0 []) &&
    Instr.wf (.emAgeScan 0 true (2 ^ 24 - 1) true) && !Instr.wf (.emAgeScan 0 true (2 ^ 24) true) && !Instr.wf (.emAgeScan 0 false 131072 true) && !Instr.wf (.shadowCompare true 131072 .clean) && !Instr.wf (.shadowCompare false 2097152 .clean) &&
    Instr.wf (.shadowCompare false 2097151 .clean) && !Instr.wf (.shadowRecheck true 131072) && !Instr.wf (.shadowRecheck false 2097152) && Instr.wf (.clampSweep 348197) && !Instr.wf (.clampSweep 348198) &&
    !Instr.wf (.shaperRefill 348198) && !Instr.wf (.tmElementWrite 348198 0 0)) = true := by decide +kernel
theorem test_wf_frames : ((cueF 1).wf && !{ cueF 1 with dst := 2 ^ 16 }.wf && !{ cueF 1 with src := 2 ^ 16 }.wf && !{ cueF 1 with hops := 256 }.wf && !{ cueF 1 with cls := 8 }.wf && !{ cueF 1 with type := 8 }.wf &&
    !{ cueF 1 with win := 64 }.wf && !{ cueF 1 with wgen := 256 }.wf && !{ cueF 1 with seq := 2 ^ 16 }.wf && !{ cueF 1 with deadline := 2 ^ 24 }.wf && !{ cueF 1 with tag := 2 ^ 16 }.wf && !{ cueF 1 with status := 8 }.wf &&
    !Instr.wf (.cuelrunReceive 0 { cueF 1 with hops := 256 } ⟨.good, {}⟩) && (Tlp.ideFail 35).wf && !(Tlp.ideFail 36).wf && !(Tlp.unprotected 36).wf && Instr.wf (.hostBarWrite 0 0 0 8 0 .good) && !Instr.wf (.hostBarWrite 0 0 0 9 0 .good) &&
    !Instr.wf (.hostBarRead 0 0 0 0 ⟨.good, false⟩) && !Instr.wf (.hostBarRead 0 0 0 4 ⟨(.ideFail 36), false⟩) && !Instr.wf (.hostBarWrite 0 0 0 4 0 (.ideFail 36)) && !Instr.wf (.pciConfigWrite 0 (.tagBits 9)) && !Instr.wf (.pciConfigWrite 0 (.numVfs (2 ^ 16))) &&
    !Instr.wf (.completionReceived 0 (2 ^ 14) .good (.data [])) && !Instr.wf (.completionReceived 0 0 (.ideFail 36) (.data [])) && !Instr.wf (.completionTimeout 0 (2 ^ 14)) && !Instr.wf (.quarantineEnd 0 (2 ^ 14)) &&
    !Instr.wf (.atsInvalidate 0 1 0 0) && !Instr.wf (.atsInvalidate 0 0 0 32) && !Instr.wf (.invalidationCompletion 0 32) && Instr.wf (.doeObject 0 0 [] [35]) && !Instr.wf (.doeObject 0 0 [] [36])) = true := by decide +kernel
theorem test_wf_lists : ((FlashSlot.image (List.replicate 16 0) [] []).wf && !(FlashSlot.image [] [] []).wf && !Instr.wf (.flashVerify .absent (.image [] [] []) true) && !Instr.wf (.flashVerify (.image [] [] []) .absent true) &&
    Instr.wf (.loadWindow (List.replicate 34 0)) && !Instr.wf (.loadWindow []) && Instr.wf (.memTrainDone 0 none) && !Instr.wf (.memTrainDone 0 (some ⟨0, 0, []⟩)) && !Instr.wf (.scrubRead (2 ^ 33) .clean) &&
    !Instr.wf (.jtagDbgToken []) && Instr.wf (.jtagDbgToken (List.replicate 20 0))) = true := by decide +kernel

end Sys2Proof.Tests
end

section
/-! PROOFS. What the statements on frames and queues need of the state: maps that are written twice, fields of other registers, frames that
are entered, replaced and dropped, and what a dropped frame leaves. -/

open Sys2Proof.Claims

namespace Sys2Proof.Machine

/-! ### Maps -/

/-- An erased index is not found, and every other index is found as before. -/
theorem mfind_merase {α : Type} (m : SMap α) (i j : Nat) : mfind (merase m i) j = if j = i then none else mfind m j := by
  induction m with
  | nil => simp [merase, mfind]
  | cons c m ih =>
    obtain ⟨k, w⟩ := c
    unfold merase
    split
    · subst i; rw [ih, mfind]; split <;> rfl
    · simp only [mfind, ih]
      split
      · subst j; rw [if_neg (Ne.symm ‹¬ i = k›)]
      · rfl

/-- Of two values put at one index the second stands, whatever the order of the list. -/
theorem mput_mput {α : Type} (m : SMap α) (i : Nat) (v w : α) : mput (mput m i v) i w = mput m i w := by
  induction m with
  | nil => simp [mput]
  | cons c m ih =>
    obtain ⟨k, x⟩ := c
    by_cases hlt : i < k
    · simp [mput, hlt]
    · by_cases heq : i = k
      · simp [mput, heq]
      · simp [mput, hlt, heq, ih]

/-- Of two values written at one index, neither the default, the second stands, whatever the order of the list. -/
theorem mset_mset {α : Type} [DecidableEq α] (d : α) (m : SMap α) (i : Nat) {v w : α} (hv : v ≠ d) (hw : w ≠ d) :
    mset d (mset d m i v) i w = mset d m i w := by
  simp only [mset, if_neg hv, if_neg hw, mput_mput]

/-! ### Fields of other registers -/

theorem State.fget_of_regs {s u : State} (h : u.regs = s.regs) (f : Field) (i : Nat) : u.fget f i = s.fget f i := by
  unfold State.fget State.rd; rw [h]

theorem State.fget_fadd_reg (s : State) (f g : Field) {i j : Nat} (n : Nat) (hi : i < 2 ^ 40) (hj : j < 2 ^ 40)
    (h : f.reg.rid ≠ g.reg.rid ∨ i ≠ j) : (s.fadd f i n).fget g j = s.fget g j :=
  s.fget_fset_reg f g _ hi hj h

theorem State.fget_bump_reg (s : State) (f g : Field) {i j : Nat} (hi : i < 2 ^ 40) (hj : j < 2 ^ 40)
    (h : f.reg.rid ≠ g.reg.rid ∨ i ≠ j) : (s.bump f i).fget g j = s.fget g j :=
  s.fget_fadd_reg f g 1 hi hj h

/-! ### Registers and fields written twice -/

/-- Of two words written to a register, neither its reset value, the second stands. -/
theorem State.wr_wr (s : State) (r : RegDesc) (i : Nat) {v w : Word} (hv : v ≠ resetValue r i) (hw : w ≠ resetValue r i) :
    (s.wr r i v).wr r i w = s.wr r i w :=
  congrArg (fun regs => { s with regs := regs }) (mset_mset _ s.regs (r.key i) hv hw)

/-- Of two values that a field is set to the second stands. -/
theorem Field.ins_ins (f : Field) (old : Word) (v w : Nat) (h : f.lo + f.w ≤ 64) : f.ins (f.ins old v) w = f.ins old w := by
  apply BitVec.eq_of_getLsbD_eq
  intro k _
  simp only [f.getLsbD_ins _ _ _ h]
  split <;> rfl

/-- A one-bit field that is set reads as the bit. -/
theorem State.fbit_fset_b2n (s : State) (f : Field) (i : Nat) (b : Bool) (h : f.lo + f.w ≤ 64) (hw : f.w = 1) :
    (s.fset f i (b2n b)).fbit f i = b := by
  rw [State.fbit_eq, State.fget_fset_same _ _ _ _ h, hw]
  cases b <;> rfl

/-! ### Frames -/

@[simp] theorem State.frame?_setFrame_same (s : State) (h : Nat) (f : Frame) : (s.setFrame h f).frame? h = some f := by
  simp [State.frame?, State.setFrame, mfind_mput]

theorem State.frame?_of_frames {s u : State} (h : u.frames = s.frames) (j : Nat) : u.frame? j = s.frame? j := by
  unfold State.frame?; rw [h]

theorem State.freeFrame_eq (s : State) (h : Nat) :
    s.freeFrame h = { s with frames := (s.freeFrame h).frames, pend := (s.freeFrame h).pend, tmFifo := (s.freeFrame h).tmFifo,
                             actFifo := (s.freeFrame h).actFifo, tmIn := (s.freeFrame h).tmIn, hostOut := (s.freeFrame h).hostOut } := by
  unfold State.freeFrame
  split <;> rfl

/-- A drop changes what holds and awaits frames, and nothing else. -/
theorem State.dropFrame_eq (s : State) (h : Nat) :
    s.dropFrame h = { s with frames := (s.dropFrame h).frames, pend := (s.dropFrame h).pend, tmFifo := (s.dropFrame h).tmFifo,
                             actFifo := (s.dropFrame h).actFifo, tmIn := (s.dropFrame h).tmIn, hostOut := (s.dropFrame h).hostOut,
                             txGone := (s.dropFrame h).txGone } := by
  unfold State.dropFrame
  split
  · rfl
  · dsimp only
    split <;> (rw [State.freeFrame_eq])

theorem State.dropFrame_regs (s : State) (h : Nat) : (s.dropFrame h).regs = s.regs := by rw [State.dropFrame_eq]

@[simp] theorem State.fget_dropFrame (s : State) (h : Nat) (f : Field) (i : Nat) : (s.dropFrame h).fget f i = s.fget f i :=
  State.fget_of_regs (s.dropFrame_regs h) f i

/-- A drop frees the frame as it was and tells its job. -/
theorem State.dropFrame_frames (s : State) (h : Nat) : (s.dropFrame h).frames = (s.freeFrame h).frames := by
  unfold State.dropFrame
  split
  · rename_i hf; unfold State.freeFrame; rw [hf]
  · dsimp only; split <;> rfl

theorem State.dropFrame_tmFifo (s : State) (h : Nat) : (s.dropFrame h).tmFifo = (s.freeFrame h).tmFifo := by
  unfold State.dropFrame
  split
  · rename_i hf; unfold State.freeFrame; rw [hf]
  · dsimp only; split <;> rfl

theorem State.frame?_freeFrame (s : State) (h j : Nat) : (s.freeFrame h).frame? j = if j = h then none else s.frame? j := by
  unfold State.freeFrame
  split
  · split
    · subst j; assumption
    · rfl
  · exact mfind_merase s.frames h j

/-- A dropped frame is gone, and every other frame stands. -/
theorem State.frame?_dropFrame (s : State) (h j : Nat) : (s.dropFrame h).frame? j = if j = h then none else s.frame? j := by
  rw [State.frame?_of_frames (s.dropFrame_frames h), State.frame?_freeFrame]

theorem State.gone_dropFrame (s : State) (h : Nat) : gone (s.dropFrame h) h := by
  rw [gone, State.frame?_dropFrame, if_pos rfl]

/-- An empty queue stays empty when a frame is dropped. -/
theorem State.fifo_dropFrame_nil {s : State} {q : Nat} (h : Nat) (hq : s.fifo q = []) : (s.dropFrame h).fifo q = [] := by
  unfold State.fifo at hq ⊢
  rw [State.dropFrame_tmFifo]
  unfold State.freeFrame
  split
  · exact hq
  · dsimp only
    split
    · rename_i q' _
      rw [mget_mset]
      split
      · subst q'; rw [hq]; rfl
      · exact hq
    · exact hq

/-! ### What a command leaves -/

theorem leaves_trans {s t u : State} (h : leaves s t) (h' : leaves t u) : leaves s u := by
  obtain ⟨hm, ht, hc, hch, hp, hk, hq⟩ := h
  obtain ⟨hm', ht', hc', hch', hp', hk', hq'⟩ := h'
  exact ⟨hm'.trans hm, ht'.trans ht, hc'.trans hc, hch'.trans hch, hp'.trans hp, hk'.trans hk, hq'.trans hq⟩

theorem leaves_of_regs {s u : State} (h : u = { s with regs := u.regs }) : leaves s u := by
  rw [h]; exact ⟨rfl, rfl, rfl, rfl, rfl, rfl, rfl⟩

theorem leaves_bump (s : State) (f : Field) (i : Nat) : leaves s (s.bump f i) := leaves_of_regs rfl

theorem leaves_dropFrame (s : State) (h : Nat) : leaves s (s.dropFrame h) := by
  rw [State.dropFrame_eq]; exact ⟨rfl, rfl, rfl, rfl, rfl, rfl, rfl⟩

end Sys2Proof.Machine
end

section
/-! PROOFS. Frames enter and are parsed (O21). -/

open Sys2Proof.Claims

namespace Sys2Proof.Machine

/-! ### Arrival (R12, R153, R191) -/

/-- The state once a MAC has counted a frame it accepts. -/
def State.rxCount (s : State) (m : Nat) (bytes : List Byte) : State :=
  (s.bump Fld.PRTC_RX_FRAMES_COUNT m).fadd Fld.PRTC_RX_BYTES_COUNT m (bytes.length + 4)

/-- Counting a frame changes no field but those of the two counters. -/
theorem State.fget_rxCount (s : State) (g : Field) {m j : Nat} (bytes : List Byte) (hm : m < 2 ^ 40) (hj : j < 2 ^ 40)
    (hf : Reg.PRTC_RX_FRAMES.rid ≠ g.reg.rid) (hb : Reg.PRTC_RX_BYTES.rid ≠ g.reg.rid) :
    (s.rxCount m bytes).fget g j = s.fget g j := by
  rw [State.rxCount, State.fget_fadd_reg _ _ g _ hm hj (.inl hb), State.fget_bump_reg _ _ g hm hj (.inl hf)]

/-- With MACsec off a frame passes as it came (R193). -/
theorem State.macsecRx_off {s : State} {m : Nat} (d : List Byte) (h : s.fget Fld.PRT_MAC_CFG_MACSEC m = 0) :
    s.macsecRx m d = (.pass d false, s) := by
  simp [State.macsecRx, h]

theorem State.arrive_of_full {s : State} {f : Frame} (h : s.ingRoom f.lenFcs = false) : s.arrive f = s.bump Fld.TMC_ING_FULL_COUNT := by
  simp [State.arrive, h]

theorem State.arrive_of_room {s : State} {f : Frame} (h : s.ingRoom f.lenFcs = true) (hq : s.srcQueue f.src < 64) :
    s.arrive f = (s.newFrame f).2 := by
  simp [State.arrive, h, Nat.not_le.mpr hq]

theorem State.frame?_newFrame (s : State) (f : Frame) :
    (s.newFrame f).2.frame? (s.handles % 2 ^ 24) = some { f with arr := s.arrivals } := by
  simp [State.newFrame, State.frame?, mfind_mput]

/-- What comes before a MAC's checks of a frame: its link is UP in an Ethernet mode and no warm restart is dark (R191, R387). -/
def macServes (s : State) (m : Fin 32) : Prop :=
  s.dark = false ∧ s.fget Fld.PRT_MAC_STATUS_STATE m = 4 ∧ s.fget Fld.PRT_PORT_CFG_MODE (m / 8) ≠ 4

/-- The command's own test of service fails on a MAC in service. -/
theorem serviceTest_false {s : State} {m : Fin 32} (h : macServes s m) :
    (s.dark || decide (s.fget Fld.PRT_MAC_STATUS_STATE m ≠ 4) || decide (s.fget Fld.PRT_PORT_CFG_MODE (m / 8) = 4)) = false := by
  obtain ⟨hdark, hup, hmode⟩ := h
  simp [hdark, hup, hmode]

section
variable {m : Fin 32} {bytes : List Byte} {fec : FecNote} {r : State}

theorem execFrameReceive_runt {ok early : Bool} (h : macServes (r.fecCount (m.val / 8) fec) m) (hl : bytes.length + 4 < 64) :
    execFrameReceive m bytes ⟨ok, fec⟩ early r = .next ((r.fecCount (m.val / 8) fec).bump Fld.PRTC_RX_RUNT_COUNT m) := by
  simp only [execFrameReceive, serviceTest_false h, if_pos hl, Bool.false_eq_true, if_false]

/-- An oversize frame is counted as such whatever its FCS and an early end (log entry 23). -/
theorem execFrameReceive_oversize {ok early : Bool} (h : macServes (r.fecCount (m.val / 8) fec) m)
    (hl : max 64 ((r.fecCount (m.val / 8) fec).fget Fld.PRT_MAC_CFG_MAX_FRAME m) < bytes.length + 4) :
    execFrameReceive m bytes ⟨ok, fec⟩ early r = .next ((r.fecCount (m.val / 8) fec).bump Fld.PRTC_RX_OVERSIZE_COUNT m) := by
  have hmin : ¬ bytes.length + 4 < 64 := by omega
  simp only [execFrameReceive, serviceTest_false h, if_neg hmin, if_pos hl, Bool.false_eq_true, if_false]

theorem execFrameReceive_badFcs (h : macAccepts (r.fecCount (m.val / 8) fec) m bytes) :
    execFrameReceive m bytes ⟨false, fec⟩ false r = .next ((r.fecCount (m.val / 8) fec).bump Fld.PRTC_RX_FCS_ERR_COUNT m) := by
  obtain ⟨hdark, hup, hmode, hmin, hmax, -, -⟩ := h
  simp only [execFrameReceive, serviceTest_false ⟨hdark, hup, hmode⟩, if_neg (Nat.not_lt.mpr hmin), if_neg (Nat.not_lt.mpr hmax),
    Bool.not_false, Bool.false_eq_true, if_true, if_false]

/-- A frame that passes every check is counted and goes to the packet path. -/
theorem execFrameReceive_accepted (h : macAccepts (r.fecCount (m.val / 8) fec) m bytes) :
    let t := (r.fecCount (m.val / 8) fec).rxCount m bytes
    execFrameReceive m bytes ⟨true, fec⟩ false r = .next (t.arrive (t.wireFrame m bytes (t.stamp (t.fget Fld.PRT_PTP_DELAY_RX m)) false)) := by
  obtain ⟨hdark, hup, hmode, hmin, hmax, htype, hsec⟩ := h
  have hm : m.val < 2 ^ 40 := by omega
  have hoff := State.macsecRx_off bytes
    ((State.fget_rxCount _ Fld.PRT_MAC_CFG_MACSEC bytes hm hm (by decide) (by decide)).trans hsec)
  rw [State.rxCount] at hoff
  simp only [execFrameReceive, serviceTest_false ⟨hdark, hup, hmode⟩, if_neg (Nat.not_lt.mpr hmin), if_neg (Nat.not_lt.mpr hmax), htype, hoff,
    Bool.not_true, Bool.false_eq_true, if_false]
  rfl

end

/-! ### Parsing (R93 to R96) -/

/-- What a walk that ended in `e` makes of the state: the frame is as `walked` says, and gone where that is none. -/
def State.walkEnds (s : State) (h : Nat) (f : Frame) (w : WalkSt) : WalkEnd → State
  | .drop => (s.bump Fld.PARC_PARSE_DROP_COUNT f.src).dropFrame h
  | .accept p => s.setFrame h { f with hv := metadata f w none p, profile := p, stage := .classify false }
  | .exc c => (s.bump Fld.PARC_PARSE_EXC_COUNT f.src).setFrame h
      { f with hv := metadata f w (some c) 15, profile := 15, stage := .classify true }

theorem State.frame?_walkEnds (s : State) (h : Nat) (f : Frame) (w : WalkSt) (e : WalkEnd) : (s.walkEnds h f w e).frame? h = walked f w e := by
  cases e with
  | drop => exact State.gone_dropFrame _ h
  | accept p => exact State.frame?_setFrame_same _ h _
  | exc c => exact State.frame?_setFrame_same _ h _

theorem leaves_walkEnds (s : State) (h : Nat) (f : Frame) (w : WalkSt) (e : WalkEnd) : leaves s (s.walkEnds h f w e) := by
  cases e with
  | drop => exact leaves_trans (leaves_bump _ _ _) (leaves_dropFrame _ h)
  | accept p => exact ⟨rfl, rfl, rfl, rfl, rfl, rfl, rfl⟩
  | exc c => exact ⟨rfl, rfl, rfl, rfl, rfl, rfl, rfl⟩

theorem execParseWalk_eq {s : State} {h start : Nat} {f : Frame} (hf : frameAt s h f) (hs : f.stage = .parse start) :
    let r := s.parseFrom (s.fget Fld.PAR_GRAPH_CTL_ACTIVE 0) f.bytes 32 start { off := 0, hv := hvBlank, chk := 0 }
    execParseWalk h s = .next ((s.parQueue f.src r.1.visited).walkEnds h f r.1 r.2) := by
  unfold frameAt at hf
  simp only [execParseWalk, hf, hs]
  cases (s.parseFrom (s.fget Fld.PAR_GRAPH_CTL_ACTIVE 0) f.bytes 32 start { off := 0, hv := hvBlank, chk := 0 }).2 <;> rfl

/-! ### Graph commits (R95) -/

theorem State.fget_commit_active (s : State) (walking : Bool) :
    ((s.fset Fld.PAR_GRAPH_CTL_ACTIVE 0 (s.fget Fld.PAR_GRAPH_CTL_ACTIVE 0 + 1)).fset Fld.PAR_GRAPH_CTL_PENDING 0 (b2n walking)).fget
      Fld.PAR_GRAPH_CTL_ACTIVE 0 = 1 - s.fget Fld.PAR_GRAPH_CTL_ACTIVE 0 := by
  rw [State.fget_fset_bits _ Fld.PAR_GRAPH_CTL_PENDING Fld.PAR_GRAPH_CTL_ACTIVE _ _ (by decide) rfl (by decide),
    State.fget_fset_same _ _ _ _ (by decide)]
  have hlt : s.fget Fld.PAR_GRAPH_CTL_ACTIVE 0 < 2 := s.fget_lt Fld.PAR_GRAPH_CTL_ACTIVE 0
  change (s.fget Fld.PAR_GRAPH_CTL_ACTIVE 0 + 1) % 2 = _
  omega

/-! ### The statement -/

/-- An accepted frame that finds room enters under the next handle. -/
theorem frameReceive_enters {m : Fin 32} {bytes : List Byte} {fec : FecNote} {r : State} (h : macAccepts (r.fecCount (m.val / 8) fec) m bytes)
    (hroom : ((r.fecCount (m.val / 8) fec).rxCount m bytes).ingRoom (bytes.length + 4) = true)
    (hq : ((r.fecCount (m.val / 8) fec).rxCount m bytes).srcQueue m < 64) :
    let s := r.fecCount (m.val / 8) fec
    ∃ u f, exec (.frameReceive m bytes ⟨true, fec⟩ false) r = .next u ∧ frameAt u (s.handles % 2 ^ 24) f ∧ f.bytes = bytes ∧ f.src = m.val ∧
      f.inst = s.fget Fld.PAR_SRC_CFG_INSTANCE m ∧ f.stage = .parse (s.fget Fld.PAR_SRC_CFG_START m) ∧
      f.cells = (bytes.length + 4 + 255) / 256 ∧ f.charge = .ingress ∧
      u.handles = s.handles + 1 ∧ u.mem = s.mem ∧ u.threads = s.threads ∧ u.chans = s.chans := by
  intro s
  have hm : m.val < 2 ^ 40 := by omega
  let t := s.rxCount m bytes
  let f := t.wireFrame m bytes (t.stamp (t.fget Fld.PRT_PTP_DELAY_RX m)) false
  have hrun : exec (.frameReceive m bytes ⟨true, fec⟩ false) r = .next (t.newFrame f).2 :=
    (execFrameReceive_accepted h).trans (congrArg _ (State.arrive_of_room hroom hq))
  refine ⟨_, _, hrun, State.frame?_newFrame t f, rfl, rfl, ?_, ?_, rfl, rfl, rfl, rfl, rfl, rfl⟩
  · exact State.fget_rxCount s Fld.PAR_SRC_CFG_INSTANCE bytes hm hm (by decide) (by decide)
  · exact congrArg Stage.parse (State.fget_rxCount s Fld.PAR_SRC_CFG_START bytes hm hm (by decide) (by decide))

theorem parseWalk_leaves_walked {h start : Nat} {f : Frame} {s : State} (hf : frameAt s h f) (hs : f.stage = .parse start) :
    let r := s.parseFrom (s.fget Fld.PAR_GRAPH_CTL_ACTIVE 0) f.bytes 32 start { off := 0, hv := hvBlank, chk := 0 }
    ∃ u, exec (.parseWalk h) s = .next u ∧ leaves s u ∧ u.frame? h = walked f r.1 r.2 :=
  ⟨_, execParseWalk_eq hf hs, leaves_walkEnds (s.parQueue f.src _) h f _ _, State.frame?_walkEnds _ h f _ _⟩

theorem parseMemoryWrite_eq {o : Nat} {r : RegDesc} {i b : Nat} (v : Word) (s : State) (h : parseMemAt o = some (r, i, b)) :
    exec (.parseMemoryWrite o v) s = .next (s.parseMemWrite r i b v) := by
  change execParseMemoryWrite o v s = _
  rw [execParseMemoryWrite, h]

/-- Settles O21: each clause is the command's equation for its case; entry and parsing turn on where the frame then stands. -/
theorem framesEnterAndParse : Obligations.FramesEnterAndParse := by
  unfold Obligations.FramesEnterAndParse
  refine ⟨?enter, ?counted, ?walk, ?memory, ?commit, fun _ _ => rfl, ?mirror⟩
  case enter =>
    intro m bytes fec r s h t _
    refine ⟨frameReceive_enters h, fun hfull => ?_, execFrameReceive_badFcs h⟩
    exact (execFrameReceive_accepted h).trans (congrArg _ (State.arrive_of_full hfull))
  case counted =>
    intro m bytes ok early fec r s hdark hup hmode
    exact ⟨execFrameReceive_runt ⟨hdark, hup, hmode⟩, execFrameReceive_oversize ⟨hdark, hup, hmode⟩⟩
  case walk =>
    intro h f start s hf hs r
    obtain ⟨u, hu, ⟨hmem, hthr, -, hch, -⟩, hfr⟩ := parseWalk_leaves_walked hf hs
    exact ⟨u, hu, hmem, hthr, hch, fun f' hw => hfr.trans hw, fun hw => hfr.trans hw⟩
  case memory =>
    intro o v r i b s h
    rw [parseMemoryWrite_eq v s h, State.parseMemWrite]
    exact ⟨fun hb => by rw [if_neg hb], fun hb => by rw [if_pos hb]⟩
  case commit =>
    intro walking s
    refine ⟨fun hp => ⟨_, ?_, s.fget_commit_active walking, State.fbit_fset_b2n _ _ 0 walking (by decide) rfl⟩, fun hp => ?_⟩
    · change execParseGraphCommit walking s = _
      simp [execParseGraphCommit, hp]
    · change execParseGraphCommit walking s = _
      simp [execParseGraphCommit, hp]
  case mirror =>
    intro k v s
    exact ⟨_, rfl, mget_mset_same (0 : Nat) s.mirrorCount k 0, State.rd_wr_same s Reg.ACT_MIRROR k _⟩

end Sys2Proof.Machine
end

section
/-! PROOFS. Admission, overflow readback and flush (O26). -/

open Sys2Proof.Claims

namespace Sys2Proof.Machine

/-! ### Rejection (R13, R154) -/

theorem gone_rejectFrame (s : State) (h : Nat) (f : Frame) (q : Nat) (cnt : Field) : gone (s.rejectFrame h f q cnt) h := by
  unfold State.rejectFrame
  exact State.gone_dropFrame _ h

/-- A rejected frame is counted once in the counter of its reason, where that is neither DROP_PKTS nor MIRROR_DROP. -/
theorem State.fget_rejectFrame (s : State) (h : Nat) (f : Frame) {q : Nat} (cnt : Field) (hq : q < 2 ^ 40) (hw : cnt.lo + cnt.w ≤ 64)
    (hd : Reg.TM_QCNT_DROP_PKTS.rid ≠ cnt.reg.rid) (hm : Reg.ACTC_MIRROR_DROP.rid ≠ cnt.reg.rid) :
    (s.rejectFrame h f q cnt).fget cnt 0 = min (s.fget cnt 0 + 1) (2 ^ cnt.w - 1) := by
  have h0 : 0 < 2 ^ 40 := by decide
  have hcount : ((s.bump cnt).bump Fld.TM_QCNT_DROP_PKTS_COUNT q).fget cnt 0 = min (s.fget cnt 0 + 1) (2 ^ cnt.w - 1) := by
    rw [State.fget_bump_reg _ _ cnt hq h0 (.inl hd), State.fget_bump _ _ _ hw]
  unfold State.rejectFrame
  rw [State.fget_dropFrame]
  split
  · rw [State.fget_bump_reg _ _ cnt h0 h0 (.inl hm), hcount]
  · exact hcount

/-! ### Admission (R154, R155) -/

/-- A frame whose turn it is leaves the line of those that wait and is judged. -/
theorem tmEnqueue_of_turn {s : State} {h q : Nat} {f : Frame} (rate : Bool) (hf : frameAt s h f) (hs : f.stage = .admitting)
    (hq : f.queue = some q) (ht : f.copy = true ∨ s.admitTurn h q = true) :
    exec (.tmEnqueue h rate) s = .next ({ s with tmIn := s.tmIn.erase h }.enqueue h f q rate) := by
  unfold frameAt at hf
  change execTmEnqueue h rate s = _
  simp [execTmEnqueue, hf, hs, hq, ht]

section
variable {s : State} {h q : Nat} {f : Frame} {rate : Bool}

theorem State.enqueue_invalid (hv : s.fbit Fld.TM_NODE_W0_VALID q = false) :
    s.enqueue h f q rate = s.rejectFrame h f q Fld.TMC_NO_QUEUE_CFG_COUNT := by
  simp [State.enqueue, hv]

theorem State.enqueue_tail (hv : s.fbit Fld.TM_NODE_W0_VALID q = true)
    (hmax : s.fget Fld.TM_NODE_W4_Q_MAX q < s.qlen q + s.qlenOvf q + cellsOf f.lenFcs) :
    s.enqueue h f q rate = s.rejectFrame h f q Fld.TMC_TAIL_COUNT := by
  simp [State.enqueue, hv, hmax]

/-- Without WRED for a colour its test never drops, and only the average moves (R156). -/
theorem State.wred_off {c : Nat} (hq : q < 2 ^ 40) (hc : c < 3)
    (h0 : s.fget Fld.TM_WRED_COLOUR_MAXP (ix2 3 (s.fget Fld.TM_NODE_W4_PROFILE q) c) = 0) :
    ∃ avg, s.wred q c = (false, s.fset Fld.TM_NODE_W6_AVG q avg) := by
  have hp : s.fget Fld.TM_NODE_W4_PROFILE q < 2 ^ 8 := s.fget_lt Fld.TM_NODE_W4_PROFILE q
  have hk : ix2 3 (s.fget Fld.TM_NODE_W4_PROFILE q) c < 2 ^ 40 := by unfold ix2; omega
  unfold State.wred
  dsimp only
  rw [if_pos (by rw [State.fget_fset_reg _ _ Fld.TM_WRED_COLOUR_MAXP _ hq hk (.inl (by decide)), h0])]
  exact ⟨_, rfl⟩

/-- A frame that WRED cannot touch and that fits in the cells reserved for it is admitted to them. -/
theorem State.enqueue_resv (hq : q < 2 ^ 40) (hv : s.fbit Fld.TM_NODE_W0_VALID q = true)
    (hmax : s.qlen q + s.qlenOvf q + cellsOf f.lenFcs ≤ s.fget Fld.TM_NODE_W4_Q_MAX q)
    (hwred : s.fget Fld.TM_WRED_COLOUR_MAXP (ix2 3 (s.fget Fld.TM_NODE_W4_PROFILE q) f.colour) = 0) (hovf : s.qlenOvf q = 0)
    (hresv : s.resvUsed (s.fget Fld.TM_NODE_W4_INSTANCE q) + cellsOf f.lenFcs ≤ s.fget Fld.TM_INST_BUF_RESV (s.fget Fld.TM_NODE_W4_INSTANCE q)) :
    ∃ avg, s.enqueue h f q rate =
      (s.fset Fld.TM_NODE_W6_AVG q avg).enqueued h f q .resv (s.fget Fld.TM_NODE_W4_INSTANCE q) := by
  have hcol : f.colour < 3 := by unfold Frame.colour; omega
  obtain ⟨avg, hw⟩ := State.wred_off hq hcol hwred
  have hi : s.fget Fld.TM_NODE_W4_INSTANCE q < 2 ^ 40 := Nat.lt_trans (s.fget_lt Fld.TM_NODE_W4_INSTANCE q) (by decide)
  have hinst : (s.fset Fld.TM_NODE_W6_AVG q avg).fget Fld.TM_NODE_W4_INSTANCE q = s.fget Fld.TM_NODE_W4_INSTANCE q :=
    State.fget_fset_reg _ _ _ _ hq hq (.inl (by decide))
  have hcap := State.fget_fset_reg s Fld.TM_NODE_W6_AVG Fld.TM_INST_BUF_RESV avg hq hi (.inl (by decide))
  have hovf' : (s.fset Fld.TM_NODE_W6_AVG q avg).qlenOvf q = 0 := hovf
  have hresv' : (s.fset Fld.TM_NODE_W6_AVG q avg).resvUsed (s.fget Fld.TM_NODE_W4_INSTANCE q) + cellsOf f.lenFcs ≤
      s.fget Fld.TM_INST_BUF_RESV (s.fget Fld.TM_NODE_W4_INSTANCE q) := hresv
  refine ⟨avg, ?_⟩
  simp [State.enqueue, hv, Nat.not_lt.mpr hmax, hw, hinst, hcap, hovf', hresv']

end

/-- The virtual times of a queue that becomes backlogged are registers (R145, R151). -/
theorem State.tmJoin_eq (s0 : State) (k : Nat) (s : State) (n : Nat) : s0.tmJoin k s n = { s with regs := (s0.tmJoin k s n).regs } := by
  induction k generalizing s n with
  | zero => rfl
  | succ k ih =>
    unfold State.tmJoin
    split
    · rfl
    · split
      · rfl
      · rw [ih]; rfl

section
variable (s : State) (h : Nat) (f : Frame) (q : Nat) (ch : Charge) (inst : Nat)

theorem State.enqueued_eq : s.enqueued h f q ch inst =
    { s with regs := (s.enqueued h f q ch inst).regs,
             frames := mput s.frames h
               { f with stage := .queued q, charge := ch, chargeInst := inst, qgen := s.gen inst, cells := cellsOf f.lenFcs },
             tmFifo := mset [] s.tmFifo q (s.fifo q ++ [h]) } := by
  unfold State.enqueued
  dsimp only
  rw [State.tmJoin_eq]
  rfl

theorem State.frame?_enqueued : (s.enqueued h f q ch inst).frame? h =
    some { f with stage := .queued q, charge := ch, chargeInst := inst, qgen := s.gen inst, cells := cellsOf f.lenFcs } := by
  rw [State.enqueued_eq, State.frame?, mfind_mput, if_pos rfl]

theorem State.fifo_enqueued : (s.enqueued h f q ch inst).fifo q = s.fifo q ++ [h] := by
  rw [State.enqueued_eq, State.fifo, mget_mset_same]

theorem State.enqueued_tmIn : (s.enqueued h f q ch inst).tmIn = s.tmIn := by rw [State.enqueued_eq]

theorem leaves_enqueued : leaves s (s.enqueued h f q ch inst) := by
  rw [State.enqueued_eq]; exact ⟨rfl, rfl, rfl, rfl, rfl, rfl, rfl⟩

end

/-! ### Overflow readback (R154, R158) -/

/-- A frame whose cells are the overflow's and that is not on chip. -/
def State.offChip (s : State) (h : Nat) : Bool := match s.frame? h with | some f => f.charge == .overflow && !f.back | none => false

theorem overflowReadback_eq {s : State} {q : Fin 262144} {h : Nat} {f : Frame} (hfind : (s.fifo q).find? s.offChip = some h)
    (hf : frameAt s h f) : exec (.overflowReadback q) s = .next (s.setFrame h { f with back := true }) := by
  have hrun : exec (.overflowReadback q) s = match (s.fifo q).find? s.offChip with
      | some h => (match s.frame? h with | some f => .next (s.setFrame h { f with back := true }) | none => .next s)
      | none => .next s := rfl
  unfold frameAt at hf
  rw [hrun, hfind]
  dsimp only
  rw [hf]

/-! ### Flush (R159) -/

/-- A word whose BUSY bit is set is not the reset value. -/
theorem flushBusy_ne_reset {w : Word} (h : Fld.TM_FLUSH_BUSY.of w ≠ 0) : w ≠ resetValue Reg.TM_FLUSH 0 := by
  rintro rfl
  exact h (by decide)

/-- The clearing of REFUSED does not show where the flush is refused after all: BUSY keeps the register off its reset value. -/
theorem State.flushRefused_clear {s : State} (hb : s.fbit Fld.TM_FLUSH_BUSY 0 = true) :
    (s.fset Fld.TM_FLUSH_REFUSED 0 0).fset Fld.TM_FLUSH_REFUSED 0 1 = s.fset Fld.TM_FLUSH_REFUSED 0 1 := by
  have hbusy : Fld.TM_FLUSH_BUSY.of (s.rd Reg.TM_FLUSH 0) ≠ 0 := bne_iff_ne.mp hb
  have hne (v : Nat) : Fld.TM_FLUSH_REFUSED.ins (s.rd Reg.TM_FLUSH 0) v ≠ resetValue Reg.TM_FLUSH 0 :=
    flushBusy_ne_reset (by rwa [Field.of_ins_ne _ _ _ _ (by decide) (by decide)])
  rw [State.fset, State.rd_fset_same, Field.ins_ins _ _ _ _ (by decide)]
  exact State.wr_wr s Reg.TM_FLUSH 0 (hne 0) (hne 1)

/-- The register's REFUSED bit once a flush command has cleared it where its bit 62 says so. -/
def State.flushClear (s : State) (v : Word) : State := if bit v 62 then s.fset Fld.TM_FLUSH_REFUSED 0 0 else s

theorem State.flushClear_eq (s : State) (v : Word) : s.flushClear v = { s with regs := (s.flushClear v).regs } := by
  unfold State.flushClear
  split <;> rfl

theorem State.fbit_flushClear_busy (s : State) (v : Word) : (s.flushClear v).fbit Fld.TM_FLUSH_BUSY 0 = s.fbit Fld.TM_FLUSH_BUSY 0 := by
  unfold State.flushClear
  split
  · rw [State.fbit_eq, State.fget_fset_bits s Fld.TM_FLUSH_REFUSED Fld.TM_FLUSH_BUSY 0 0 (by decide) rfl (by decide), ← State.fbit_eq]
  · rfl

theorem State.tmFlush_of_busy {s : State} (v : Word) (hb : s.fbit Fld.TM_FLUSH_BUSY 0 = true) :
    s.tmFlush v = s.fset Fld.TM_FLUSH_REFUSED 0 1 := by
  have hrun : s.tmFlush v = (s.flushClear v).fset Fld.TM_FLUSH_REFUSED 0 1 := if_pos ((s.fbit_flushClear_busy v).trans hb)
  rw [hrun, State.flushClear]
  split
  · exact State.flushRefused_clear hb
  · rfl

/-- A flush has begun: the register holds the queue's number and BUSY, and the queue has let go of its frames. -/
def State.flushBegin (s : State) (v : Word) : State :=
  (((s.flushClear v).fset Fld.TM_FLUSH_QUEUE 0 (Fld.TM_FLUSH_QUEUE.of v)).fset Fld.TM_FLUSH_BUSY 0 1).setFifo (Fld.TM_FLUSH_QUEUE.of v) []

/-- A frame of a flushed queue is counted and dropped. -/
def State.flushFrame (q : Nat) (s : State) (h : Nat) : State :=
  ((s.bump Fld.TM_QCNT_DROP_PKTS_COUNT q).bump Fld.TMC_FLUSHED_COUNT).dropFrame h

theorem State.tmFlush_of_idle {s : State} (v : Word) (hb : s.fbit Fld.TM_FLUSH_BUSY 0 = false) :
    s.tmFlush v = (s.fifo (Fld.TM_FLUSH_QUEUE.of v)).foldl (State.flushFrame (Fld.TM_FLUSH_QUEUE.of v)) (s.flushBegin v) := by
  have hidle : ¬ (s.flushClear v).fbit Fld.TM_FLUSH_BUSY 0 = true := by rw [s.fbit_flushClear_busy v, hb]; decide
  have hfifo : (s.flushClear v).fifo (Fld.TM_FLUSH_QUEUE.of v) = s.fifo (Fld.TM_FLUSH_QUEUE.of v) := by rw [State.flushClear_eq]; rfl
  rw [← hfifo]
  exact if_neg hidle

section
variable (s : State) (v : Word)

theorem State.flushBegin_eq : s.flushBegin v =
    { s with regs := (s.flushBegin v).regs, tmFifo := mset [] s.tmFifo (Fld.TM_FLUSH_QUEUE.of v) [] } := by
  unfold State.flushBegin
  rw [State.flushClear_eq]
  rfl

theorem State.fget_flushBegin_busy : (s.flushBegin v).fget Fld.TM_FLUSH_BUSY 0 = 1 :=
  State.fget_fset_same _ Fld.TM_FLUSH_BUSY 0 1 (by decide)

theorem State.fifo_flushBegin : (s.flushBegin v).fifo (Fld.TM_FLUSH_QUEUE.of v) = [] := by
  rw [State.flushBegin_eq, State.fifo, mget_mset_same]

theorem leaves_flushBegin : leaves s (s.flushBegin v) := by
  rw [State.flushBegin_eq]; exact ⟨rfl, rfl, rfl, rfl, rfl, rfl, rfl⟩

end

/-- What holds when the flush of a queue begins and is kept by each frame that it drops: BUSY, the empty queue, and what the command leaves. -/
def flushing (s : State) (q : Nat) (u : State) : Prop := u.fget Fld.TM_FLUSH_BUSY 0 = 1 ∧ u.fifo q = [] ∧ leaves s u

theorem flushing_flushFrame {s u : State} {q : Nat} (h : Nat) (hq : q < 2 ^ 40) (hu : flushing s q u) : flushing s q (u.flushFrame q h) := by
  obtain ⟨hbusy, hfifo, hleaves⟩ := hu
  have h0 : 0 < 2 ^ 40 := by decide
  refine ⟨?_, State.fifo_dropFrame_nil h hfifo, ?_⟩
  · rw [State.flushFrame, State.fget_dropFrame, State.fget_bump_reg _ _ Fld.TM_FLUSH_BUSY h0 h0 (.inl (by decide)),
      State.fget_bump_reg _ _ Fld.TM_FLUSH_BUSY hq h0 (.inl (by decide)), hbusy]
  · exact leaves_trans hleaves (leaves_trans (leaves_trans (leaves_bump _ _ _) (leaves_bump _ _ _)) (leaves_dropFrame _ h))

theorem flushing_foldl {s u : State} {q : Nat} (hs : List Nat) (hq : q < 2 ^ 40) (hu : flushing s q u) :
    flushing s q (hs.foldl (State.flushFrame q) u) := by
  induction hs generalizing u with
  | nil => exact hu
  | cons h hs ih => exact ih (flushing_flushFrame h hq hu)

/-- Every frame that is flushed is gone, and one that was gone stays so. -/
theorem gone_foldl_flushFrame {s : State} {q j : Nat} (hs : List Nat) (hj : j ∈ hs ∨ gone s j) :
    gone (hs.foldl (State.flushFrame q) s) j := by
  induction hs generalizing s with
  | nil => simpa using hj
  | cons h hs ih =>
    refine ih ?_
    rw [gone, State.flushFrame, State.frame?_dropFrame]
    by_cases e : j = h
    · simp [e]
    · simp only [List.mem_cons, e, false_or] at hj
      rw [if_neg e]
      exact hj

/-! ### The statement -/

/-- A frame that fits in the cells reserved for it joins the tail of its queue. -/
theorem tmEnqueue_joins {s : State} {h q : Nat} {f : Frame} {rate : Bool} (hq : q < 262144)
    (hrun : exec (.tmEnqueue h rate) s = .next ({ s with tmIn := s.tmIn.erase h }.enqueue h f q rate))
    (hv : s.fbit Fld.TM_NODE_W0_VALID q = true)
    (hmax : s.qlen q + s.qlenOvf q + cellsOf f.lenFcs ≤ s.fget Fld.TM_NODE_W4_Q_MAX q)
    (hwred : s.fget Fld.TM_WRED_COLOUR_MAXP (ix2 3 (s.fget Fld.TM_NODE_W4_PROFILE q) f.colour) = 0) (hovf : s.qlenOvf q = 0)
    (hresv : s.resvUsed (s.fget Fld.TM_NODE_W4_INSTANCE q) + cellsOf f.lenFcs ≤ s.fget Fld.TM_INST_BUF_RESV (s.fget Fld.TM_NODE_W4_INSTANCE q)) :
    let i := s.fget Fld.TM_NODE_W4_INSTANCE q
    ∃ u, exec (.tmEnqueue h rate) s = .next u ∧ u.fifo q = s.fifo q ++ [h] ∧ u.tmIn = s.tmIn.erase h ∧ leaves s u ∧
      frameAt u h { f with stage := .queued q, charge := .resv, chargeInst := i, qgen := s.gen i, cells := cellsOf f.lenFcs } := by
  intro i
  obtain ⟨avg, hadm⟩ := State.enqueue_resv (s := { s with tmIn := s.tmIn.erase h }) (h := h) (rate := rate) (Nat.lt_trans hq (by decide))
    hv hmax hwred hovf hresv
  refine ⟨_, hrun.trans (congrArg _ hadm), State.fifo_enqueued _ h f q .resv i, State.enqueued_tmIn _ h f q .resv i,
    leaves_enqueued _ h f q .resv i, State.frame?_enqueued _ h f q .resv i⟩

/-- A flush that finds none running empties its queue. -/
theorem tmFlush_empties {s : State} (v : Word) (hb : s.fbit Fld.TM_FLUSH_BUSY 0 = false) :
    ∃ u, exec (.tmFlush v) s = .next u ∧ u.fbit Fld.TM_FLUSH_BUSY 0 = true ∧ u.fifo (Fld.TM_FLUSH_QUEUE.of v) = [] ∧
      (∀ h ∈ s.fifo (Fld.TM_FLUSH_QUEUE.of v), gone u h) ∧ leaves s u := by
  have hq : Fld.TM_FLUSH_QUEUE.of v < 2 ^ 40 := Nat.lt_trans (Nat.mod_lt _ (Nat.two_pow_pos _)) (by decide : 2 ^ 18 < 2 ^ 40)
  obtain ⟨hbusy, hfifo, hleaves⟩ := flushing_foldl (s.fifo (Fld.TM_FLUSH_QUEUE.of v)) hq
    ⟨s.fget_flushBegin_busy v, s.fifo_flushBegin v, leaves_flushBegin s v⟩
  exact ⟨_, congrArg Host.Outcome.next (State.tmFlush_of_idle v hb), by rw [State.fbit_eq, hbusy]; rfl, hfifo,
    fun h hh => gone_foldl_flushFrame _ (.inl hh), hleaves⟩

/-- Settles O26: admission by its branches, readback by the frame that it finds, and a flush by induction on the frames of its queue. -/
theorem admissionAndFlush : Obligations.AdmissionAndFlush := by
  unfold Obligations.AdmissionAndFlush
  refine ⟨?admission, fun q h f s => overflowReadback_eq, ?flush, ?complete⟩
  case admission =>
    intro h q f rate s hq hf hs hqueue hturn
    have hq' : q < 2 ^ 40 := Nat.lt_trans hq (by decide)
    have hrun := tmEnqueue_of_turn rate hf hs hqueue hturn
    refine ⟨fun hv => ?_, fun hv hmax => ?_, fun hv hmax hwred hovf hresv => tmEnqueue_joins hq hrun hv hmax hwred hovf hresv⟩
    · exact ⟨_, hrun.trans (congrArg _ (State.enqueue_invalid hv)), gone_rejectFrame _ h f q _,
        State.fget_rejectFrame _ h f _ hq' (by decide) (by decide) (by decide)⟩
    · exact ⟨_, hrun.trans (congrArg _ (State.enqueue_tail hv hmax)), gone_rejectFrame _ h f q _,
        State.fget_rejectFrame _ h f _ hq' (by decide) (by decide) (by decide)⟩
  case flush =>
    intro v s
    exact ⟨fun hb => congrArg Host.Outcome.next (State.tmFlush_of_busy v hb), tmFlush_empties v⟩
  case complete =>
    intro s
    refine ⟨s.fset Fld.TM_FLUSH_BUSY 0 0, rfl, ?_, rfl⟩
    rw [State.fbit_eq, State.fget_fset_same _ _ _ _ (by decide)]
    rfl

end Sys2Proof.Machine
end

section
/-! PROOFS. Channel configuration and the send ports (O20). -/

namespace Sys2Proof.Machine

/-! ### Channels -/

@[simp] theorem State.chan_setChan_same (s : State) (k : Nat) (c : Chan) : (s.setChan k c).chan k = c :=
  mget_mset_same Chan.init s.chans k c

theorem State.chan_finc (s : State) (f : Field) (i k : Nat) : (s.finc f i).chan k = s.chan k := rfl

/-- A channel is in use while it holds or reserves a word or has a waiter (R74). -/
def Chan.inUse (c : Chan) : Prop := c.committed + c.reserved ≠ 0 ∨ c.readers ≠ [] ∨ c.writers ≠ []

theorem State.chanCfgWrite_index_zero {s : State} {id : Nat} (v : Word) (h : id % 2048 = 0) : s.chanCfgWrite id v = s := if_pos h

theorem State.chanCfgWrite_inUse {s : State} {id : Nat} (v : Word) (h : id % 2048 ≠ 0) (hc : (s.chan id).inUse) :
    s.chanCfgWrite id v = s.fset Fld.CLU_CHAN_STATUS_CFG_BUSY id 1 := by
  unfold Chan.inUse at hc
  rw [State.chanCfgWrite, if_neg h, if_pos]
  simp only [Bool.or_eq_true, decide_eq_true_eq, Bool.not_eq_true', List.isEmpty_eq_false_iff]
  exact or_assoc.mpr hc

theorem State.chanCfgWrite_idle {s : State} {id : Nat} (v : Word) (h : id % 2048 ≠ 0) (hw : (s.chan id).committed + (s.chan id).reserved = 0)
    (hr : (s.chan id).readers = []) (hq : (s.chan id).writers = []) :
    s.chanCfgWrite id v = s.wr Reg.CLU_CHAN_CFG id (writeFields false Reg.CLU_CHAN_CFG (s.rd Reg.CLU_CHAN_CFG id) v) := by
  rw [State.chanCfgWrite, if_neg h, if_neg (by simp [hw, hr, hq])]

/-- The number of a cluster channel is a multiple of 2,048 at index 0 alone. -/
theorem clusterChan_mod_eq_zero (c : Fin 8) (ix : Fin 2048) : (c.val * 2048 + ix.val) % 2048 = 0 ↔ ix = 0 := by
  rw [Fin.ext_iff, Fin.val_zero]
  omega

/-! ### Send ports (R75 to R77) -/

/-- BUSY stands where RESULT is set. -/
theorem State.fbit_busy_fset_result (s : State) (k r : Nat) :
    (s.fset Fld.PEG_SEND_STATUS_RESULT k r).fbit Fld.PEG_SEND_STATUS_BUSY k = s.fbit Fld.PEG_SEND_STATUS_BUSY k := by
  rw [State.fbit_eq, State.fget_fset_bits s Fld.PEG_SEND_STATUS_RESULT Fld.PEG_SEND_STATUS_BUSY k r (by decide) rfl (by decide), State.fbit_eq]

theorem State.fbit_busy_finc_sent (s : State) (k : Nat) :
    (s.finc Fld.PEG_SEND_STATUS_SENT k).fbit Fld.PEG_SEND_STATUS_BUSY k = s.fbit Fld.PEG_SEND_STATUS_BUSY k := by
  rw [State.fbit_eq, State.finc, State.fget_fset_bits s Fld.PEG_SEND_STATUS_SENT Fld.PEG_SEND_STATUS_BUSY k _ (by decide) rfl (by decide),
    State.fbit_eq]

/-- The fields of a send-port command are stored in its command register. -/
def State.portFields (s : State) (k ch n : Nat) : State :=
  (s.fset Fld.PEG_SEND_CMD_COUNT k n).fset Fld.PEG_SEND_CMD_CHANNEL k ch

/-- The command register is no channel's configuration. -/
theorem State.rd_chanCfg_portFields (s : State) {k id : Nat} (ch n : Nat) (hk : k < 2 ^ 40) (hid : id < 2 ^ 40) :
    (s.portFields k ch n).rd Reg.CLU_CHAN_CFG id = s.rd Reg.CLU_CHAN_CFG id := by
  rw [State.portFields, State.rd_fset_ne _ _ _ _ hk hid (.inl (by decide)), State.rd_fset_ne _ _ _ _ hk hid (.inl (by decide))]

/-- What a command comes to rests on its channel's configuration alone. -/
theorem State.portResult_of_rd {s u : State} {id : Nat} (n : Nat) (h : u.rd Reg.CLU_CHAN_CFG id = s.rd Reg.CLU_CHAN_CFG id) :
    u.portResult id n = s.portResult id n := by
  have hen : u.chanEn id = s.chanEn id := congrArg (fun w => id % 2048 == 0 || Fld.CLU_CHAN_CFG_EN.of w != 0) h
  have hscope : u.fget Fld.CLU_CHAN_CFG_WR_SCOPE id = s.fget Fld.CLU_CHAN_CFG_WR_SCOPE id := congrArg Fld.CLU_CHAN_CFG_WR_SCOPE.of h
  unfold State.portResult
  rw [hen, hscope]

theorem State.portResult_portFields (s : State) (k : Fin 16) (ch : BitVec 16) (n m : Nat) :
    (s.portFields k ch.toNat n).portResult ch.toNat m = s.portResult ch.toNat m :=
  State.portResult_of_rd m (s.rd_chanCfg_portFields ch.toNat n (by omega) (by omega))

/-- A port's command waits in the writer FIFO of the channel with a key. -/
def State.portJoin (s : State) (k key n : Nat) : State :=
  let s := s.setChan key { s.chan key with writers := (s.chan key).writers ++ [.port k] }
  { s with ports := mput s.ports k { ch := key, count := n } }.fset Fld.PEG_SEND_STATUS_BUSY k 1

section
variable {s : State} {k : Fin 16} {n : Fin 32} {ch : BitVec 16}

theorem sendDataWrite_idle (w : Fin 16) (v : Word) (hb : s.fbit Fld.PEG_SEND_STATUS_BUSY k = false) :
    exec (.sendDataWrite (0xE000 + k.val) k w v) s = .next (s.wr Reg.PEG_SEND_DATA (ix2 16 k w) v) := by
  change execSendDataWrite (0xE000 + k.val) k w v s = _
  simp [execSendDataWrite, hb]

/-- An idle port takes its command's fields, and what follows turns on the result alone. -/
theorem sendPortGo_idle (hb : s.fbit Fld.PEG_SEND_STATUS_BUSY k = false) :
    exec (.sendPortGo (0xE000 + k.val) k n ch) s = .next (
      let t := s.portFields k ch.toNat n
      if s.portResult ch.toNat n ≠ 0 then t.fset Fld.PEG_SEND_STATUS_RESULT k (s.portResult ch.toNat n)
      else t.portJoin k (chanKey ch.toNat 8) n) := by
  have hres := s.portResult_portFields k ch n n
  rw [State.portFields] at hres
  change execSendPortGo (0xE000 + k.val) k n ch s = _
  simp only [execSendPortGo, ne_eq, not_true_eq_false, if_false, hb, Bool.false_eq_true, hres]
  split <;> rfl

theorem sendPortGo_joins (hb : s.fbit Fld.PEG_SEND_STATUS_BUSY k = false) (h : s.portResult ch.toNat n = 0) :
    exec (.sendPortGo (0xE000 + k.val) k n ch) s = .next ((s.portFields k ch.toNat n).portJoin k (chanKey ch.toNat 8) n) := by
  rw [sendPortGo_idle hb, if_neg (not_not_intro h)]

theorem sendPortGo_refused (hb : s.fbit Fld.PEG_SEND_STATUS_BUSY k = false) (h : s.portResult ch.toNat n ≠ 0) :
    exec (.sendPortGo (0xE000 + k.val) k n ch) s =
      .next ((s.portFields k ch.toNat n).fset Fld.PEG_SEND_STATUS_RESULT k (s.portResult ch.toNat n)) := by
  rw [sendPortGo_idle hb, if_pos h]

end

/-- What joining a writer FIFO leaves: the port at its tail, the command, BUSY, and memory as it was. -/
theorem State.portJoin_spec (s : State) (k key n : Nat) :
    ((s.portJoin k key n).chan key).writers = (s.chan key).writers ++ [.port k] ∧
      mfind (s.portJoin k key n).ports k = some { ch := key, count := n } ∧
      (s.portJoin k key n).fbit Fld.PEG_SEND_STATUS_BUSY k = true ∧ (s.portJoin k key n).mem = s.mem := by
  refine ⟨congrArg Chan.writers (s.chan_setChan_same key _), ?_, State.fbit_fset_b2n _ Fld.PEG_SEND_STATUS_BUSY k true (by decide) rfl, rfl⟩
  exact (mfind_mput s.ports k k _).trans (if_pos rfl)

/-- A port's command has left the writer FIFO of its channel, which is then `c`, and the port is idle with a result. -/
def State.portLeave (s : State) (k key : Nat) (c : Chan) (r : Nat) : State :=
  ({ s.setChan key c with ports := merase s.ports k }.fset Fld.PEG_SEND_STATUS_BUSY k 0).fset Fld.PEG_SEND_STATUS_RESULT k r

section
variable (s : State) (k key : Nat) (c : Chan) (r : Nat)

theorem State.chan_portLeave : (s.portLeave k key c r).chan key = c := s.chan_setChan_same key c

theorem State.fbit_portLeave_busy : (s.portLeave k key c r).fbit Fld.PEG_SEND_STATUS_BUSY k = false := by
  rw [State.portLeave, State.fbit_busy_fset_result]
  exact State.fbit_fset_b2n _ Fld.PEG_SEND_STATUS_BUSY k false (by decide) rfl

theorem State.fget_portLeave_result : (s.portLeave k key c r).fget Fld.PEG_SEND_STATUS_RESULT k = r % 2 ^ 8 :=
  State.fget_fset_same _ Fld.PEG_SEND_STATUS_RESULT k r (by decide)

end

section
variable {s : State} {k : Fin 16} {p : PortCmd}

theorem sendPortAbort_eq (hp : mfind s.ports k = some p) : exec (.sendPortAbort (0xE000 + k.val) k) s =
    .next (s.portLeave k p.ch { s.chan p.ch with writers := (s.chan p.ch).writers.erase (.port k) } 4) := by
  change execSendPortAbort (0xE000 + k.val) k s = _
  simp only [execSendPortAbort, ne_eq, not_true_eq_false, if_false, hp]
  rfl

/-- The message that a port commits: its first words, from source 0xE000 + k (R76). -/
def State.portMsg (s : State) (k n : Nat) : Msg :=
  { src := 0xE000 + k, words := (List.range n).map fun i => s.rd Reg.PEG_SEND_DATA (ix2 16 k i) }

theorem sendPortCommit_eq (hp : mfind s.ports k = some p) (hhead : (s.chan p.ch).writers.head? = some (.port k))
    (hunits : (s.chan p.ch).units = []) (hroom : p.count ≤ (s.chan p.ch).room) : exec (.sendPortCommit k) s =
    .next ((s.portLeave k p.ch { s.chan p.ch with writers := (s.chan p.ch).writers.tail,
                                                  msgs := (s.chan p.ch).msgs ++ [s.portMsg k p.count] } 0).finc Fld.PEG_SEND_STATUS_SENT k) := by
  change execSendPortCommit k s = _
  rw [execSendPortCommit, hp]
  exact if_pos (by simp [hhead, hunits, hroom])

end

/-- Settles O20: a configuration write by its three cases, and each send-port command by its equation and what that state holds. -/
theorem sendPortsComplete : Obligations.SendPortsComplete := by
  unfold Obligations.SendPortsComplete
  refine ⟨?config, ?go, ?waiting⟩
  case config =>
    intro c ix v s id
    refine ⟨fun h hw hr hq => ?_, fun h hc => ?_, fun h => ?_⟩
    · exact congrArg Host.Outcome.next (State.chanCfgWrite_idle v (mt (clusterChan_mod_eq_zero c ix).mp h) hw hr hq)
    · exact congrArg Host.Outcome.next (State.chanCfgWrite_inUse v (mt (clusterChan_mod_eq_zero c ix).mp h) hc)
    · exact congrArg Host.Outcome.next (State.chanCfgWrite_index_zero v ((clusterChan_mod_eq_zero c ix).mpr h))
  case go =>
    intro k n ch w v s hb
    refine ⟨sendDataWrite_idle w v hb, fun h => ?_, fun h => ⟨_, sendPortGo_refused hb h, rfl, rfl⟩⟩
    exact ⟨_, sendPortGo_joins hb h, (s.portFields k ch.toNat n).portJoin_spec k (chanKey ch.toNat 8) n⟩
  case waiting =>
    intro k p s hp
    refine ⟨⟨_, sendPortAbort_eq hp, ?_, State.fget_portLeave_result s k p.ch _ 4, State.fbit_portLeave_busy s k p.ch _ 4⟩,
      fun hhead hunits hroom => ⟨_, sendPortCommit_eq hp hhead hunits hroom, ?_, ?_, ?_⟩⟩
    · exact congrArg Chan.writers (State.chan_portLeave s k p.ch _ 4)
    · rw [State.chan_finc, State.chan_portLeave]; rfl
    · rw [State.chan_finc, State.chan_portLeave]
    · exact (State.fbit_busy_finc_sent _ k).trans (State.fbit_portLeave_busy s k p.ch _ 0)

end Sys2Proof.Machine
end

section
/-! PROOFS. The state after reset (O56). -/

namespace Sys2Proof.Machine

/-- The arrays whose reset values depend on the index or are fused (Table 09-9, R361). -/
def specialResets : List Nat :=
  [Reg.PCI_TAG_QUOTA.rid, Reg.PCI_TAG_POOL.rid, Reg.PWR_DOM_CFG.rid, Reg.MEM_ARB.rid, Reg.SP_TUNE.rid, Reg.HQE_PATCH_STATUS.rid, Reg.SP_PART.rid]

/-- Every other array resets each of its elements to the value of its field table. -/
theorem resetValue_of_uniform {r : RegDesc} (i : Nat) (h : r.rid ∉ specialResets) : resetValue r i = r.rst := by
  simp only [specialResets, List.mem_cons, List.not_mem_nil, or_false, not_or] at h
  obtain ⟨hquota, hpool, hdom, harb, htune, hpatch, hpart⟩ := h
  rw [resetValue, if_neg hquota, if_neg hpool, if_neg hdom, if_neg harb, if_neg htune, if_neg hpatch, if_neg hpart]

theorem resetValue_tagQuota (i : Nat) :
    resetValue Reg.PCI_TAG_QUOTA i = if i < 4 then Reg.PCI_TAG_QUOTA.rst ||| BitVec.ofNat 64 (8 <<< 42) else Reg.PCI_TAG_QUOTA.rst :=
  if_pos rfl

theorem State.rd_reset (r : RegDesc) (i : Nat) : State.reset.rd r i = resetValue r i := State.rd_of_nil State.reset r i rfl

/-- A field whose bits are zero in its array's reset value reads as zero after reset. -/
theorem State.fget_reset_zero (f : Field) (i : Nat) (h : f.reg.rid ∉ specialResets) (h0 : f.of f.reg.rst = 0) : State.reset.fget f i = 0 := by
  rw [State.fget_eq, State.rd_reset, resetValue_of_uniform i h, h0]

/-- PCI_TAG_QUOTA.MIN is 8 read tags at the first four indices and 0 at every other (Table 09-9). -/
theorem State.fget_reset_tagMin (i : Nat) : State.reset.fget Fld.PCI_TAG_QUOTA_MIN i = if i < 4 then 8 else 0 := by
  rw [State.fget_eq, State.rd_reset]
  change Fld.PCI_TAG_QUOTA_MIN.of (resetValue Reg.PCI_TAG_QUOTA i) = _
  rw [resetValue_tagQuota]
  split <;> decide

theorem State.inv_reset : State.reset.Inv := ⟨State.memOk_reset, fun _ h => nomatch h⟩

theorem State.ringSt_reset {k : Nat} (hk : k < 3) (n : Nat) : State.reset.ringSt k n = 0 := by
  have hring : ∀ k < 3, (rState k).reg.rid ∉ specialResets ∧ (rState k).of (rState k).reg.rst = 0 := by decide
  obtain ⟨huniform, hzero⟩ := hring k hk
  exact State.fget_reset_zero (rState k) n huniform hzero

/-- Settles O56: nothing is listed, so every register reads its reset value and every map its default. -/
theorem resetState : Obligations.ResetState := by
  unfold Obligations.ResetState
  refine ⟨State.inv_reset, rfl, rfl, rfl, fun _ => rfl, fun r _ i => State.rd_reset r i, ?inst, ?link, ?ring, ?ctx, ?bow, ?depth,
    fun _ => rfl, fun _ => rfl⟩
  case inst => exact fun i _ => ⟨State.fget_reset_zero Fld.CAPO_INST_STATUS_STATE i (by decide) (by decide), State.fget_reset_tagMin i⟩
  case link => exact fun m _ => State.fget_reset_zero Fld.PRT_MAC_STATUS_STATE m (by decide) (by decide)
  case ring => exact fun k hk n _ => State.ringSt_reset hk n
  case ctx => exact fun c _ => State.fget_reset_zero Fld.CIP_CTX_W0_STATE c (by decide) (by decide)
  case bow => exact fun c _ => State.fget_reset_zero Fld.BOW_CH_STATUS_STATE c (by decide) (by decide)
  case depth => exact fun d _ => State.fget_reset_zero Fld.PWR_DOM_STATUS_DEPTH d (by decide) (by decide)

end Sys2Proof.Machine
end
